-- ==== Sys2Proof/Word.lean ====
section
/-! DEFINITION. The word types of Ryulum (R3, R5): bytes, 32-bit registers, and lists of bytes as packets and records hold them. -/

namespace Sys2Proof

/-- One byte. -/
abbrev Byte := BitVec 8

/-- One control register (R5). -/
abbrev Word := BitVec 32

/-- A run of bytes, the first at the lowest address (R3). -/
abbrev Bytes := List Byte

end Sys2Proof
end

