-- ==== Sys2Proof/Syntax.lean ====
section
/-! DEFINITION. The commands of Ryulum: one constructor of `Instr` per row of spec/opcode_table.json.
The table gives no operands: the operands are the model's (log entry 1). Each command carries `dt`, the cycles of the clock that counts Thyme (R33) since the command before it (log entry 2). -/

namespace Sys2Proof

/-- Who reads or writes a register (R348): the host port or a control core (R13). -/
inductive Requester where
  | host
  | core (c : Fin 8)
  deriving DecidableEq, Repr

/-- The requester's number in records: 0 for the host, 1 to 8 for control cores (R348). -/
def Requester.num : Requester → Nat
  | .host => 0
  | .core c => c.val + 1

/-- An uncorrectable error met by a command's access (R163): source 0 vault ECC, 1 link CRC, 2 tile SRAM; the logical tile; the local address or SRAM offset. -/
structure UeReport where
  src : Fin 3
  tile : Fin 144
  addr : Nat
  deriving DecidableEq, Repr

/-- What an access meets beside its data: a bit corrected in a vault, by layer and row, or in tile SRAM (R159, R161); a transfer of a vault link that was tried more than once, by local address, with the bytes and the CRC-16 of each try (R161); stalls of a tile's sending at crossing FIFOs, in island cycles (R15, R171). -/
inductive AccessNote where
  | vault (tile : Fin 144) (layer : Fin 4) (row : Nat)
  | sram (tile : Fin 144)
  | link (tile : Fin 144) (addr : Nat) (tries : List (Bytes × BitVec 16))
  | stall (tile : Fin 144) (cycles : Nat)
  | fifo (stream : Fin 48) (seqNo : Nat)
  deriving DecidableEq, Repr

/-- One command of a list, as the environment reports it: the engine and queue that run it (R248), the island cycles it took (R299), what its accesses met, and an uncorrectable error that ended it (R163). -/
structure QCmd where
  eng : Fin 6
  q : Fin 16
  cycles : Nat
  notes : List AccessNote
  ue : Option UeReport
  deriving DecidableEq, Repr

/-- A CAN FD frame as received (R65). -/
structure CanFrame where
  ident : BitVec 29
  ide : Bool
  fdf : Bool
  brs : Bool
  esi : Bool
  res : Bool
  dlc : Fin 16
  data : Bytes
  /-- an error of the frame that the controller detected: bit, stuff, form or CRC (R65, R245). -/
  faulty : Bool
  deriving DecidableEq, Repr

/-- What a vault scrub finds at a word (R164): a corrected bit is in a row of its layer (R162). -/
inductive ScrubFinding where
  | clean
  | corrected (row : Nat)
  | uncorrectable
  deriving DecidableEq, Repr

/-- The two channels of each traffic class of the mesh (R166). -/
inductive MeshKind where
  | request
  | reply
  deriving DecidableEq, Repr

/-- What a mesh message is for (R166): a list of a class, shadow compute, or a golden run, forced or not. -/
inductive MeshUse where
  | list (cls : Fin 3)
  | shadow
  | golden (forced : Bool)
  deriving DecidableEq, Repr

/-- A mesh message (R167, R168): its flow, per-flow sequence number, the 12-bit tick of issue, the partition and generation tag of the request, and the requested bytes. -/
structure MeshMsg where
  kind : MeshKind
  src : Nat
  dst : Nat
  ctx : Fin 64
  use : MeshUse
  seqNo : BitVec 16
  tick : BitVec 12
  part : Fin 12
  gen : BitVec 8
  payload : Bytes
  deriving DecidableEq, Repr

/-- The outcome of tile BIST (R147, R148): failed tiles, failed routers and vaults that failed training or could not be repaired, as (physical column, row), failed physical cell rows per tile as (column, row, cell row). -/
structure BistOutcome where
  failedTiles : List (Nat × Nat)
  failedRouters : List (Nat × Nat)
  failedCellRows : List (Nat × Nat × Nat)
  failedVaults : List (Nat × Nat)
  deriving DecidableEq, Repr

/-- What a start meets outside the part's own registers (R343, R361, R408): NVM answers, supplies, DRAM training, BIST, the full training after a failed recalibration (R373), a retained copy that fails its digest at a resume (R354; entries counted, the manifest itself as 0xFFFF). `stopsIn` is a step the attempt is still in when the command ends, so that a time-out of that step can follow. -/
structure BootInputs where
  sfdp : Bool
  sfdpRev : Byte
  supplyOk : Bool
  badQuadrant : Option (Fin 4)
  retrain : Option (Fin 4)
  bist : BistOutcome
  staleEntry : Option Nat
  stopsIn : Option (Fin 9)
  durationMs : Nat
  deriving DecidableEq, Repr

/-- What a host read of DRAM meets (R380): corrected errors and retries, and the byte offset of a word that is uncorrectable. -/
structure WindowMet where
  notes : List AccessNote
  ue : Option Nat
  deriving DecidableEq, Repr

/-- The instructions of the IEEE 1149.1 port (R357). -/
inductive JtagInstr where
  | bypass
  | idcode
  | samplePreload
  | extest
  | other (code : Nat)
  deriving DecidableEq, Repr

/-- A transition at an input pin: the quarter-ns it came after the counter value (R49), and the ns the pin then held its level, which a glitch filter judges (R244). -/
structure PinEdge where
  q : Fin 8
  held : Nat
  deriving DecidableEq, Repr

/-- The header of a CSI-2 short packet (R62): its virtual channel, and whether ECC corrected it. -/
structure CsiHead where
  vc : Fin 16
  corrected : Bool
  deriving DecidableEq, Repr

/-- A seal test (R94): its result set, and the uncorrectable error that fusion's own reads at the seal meet (R218). -/
structure SealTest where
  rs : Fin 4
  ue : Option UeReport
  deriving DecidableEq, Repr

/-- The commands, in the order of spec/opcode_table.json. -/
inductive Instr where
  -- Thyme (R33 to R59)
  | tbNowLoRead (dt : Nat) (r : Requester)
  | rateCommit (dt : Nat) (c : Fin 8)
  | measurementSubmit (dt : Nat) (c : Fin 8) (hi : Word)
  | measurementTimeout (dt : Nat)
  | holdoverLimitReached (dt : Nat)
  | tbRelockArm (dt : Nat) (v : Word)
  | relockArmExpiry (dt : Nat)
  | standstillReached (dt : Nat)
  | startWaitTimeout (dt : Nat)
  | followUpTimeout (dt : Nat)
  | announceReceiptTimeout (dt : Nat)
  | captureEdge (dt : Nat) (line : Fin 16) (rising : Bool) (edge : PinEdge)
  -- Ingress (R60 to R84)
  | csiFrameStart (dt : Nat) (port : Fin 8) (head : CsiHead) (fnum : BitVec 16) (ts : Option (BitVec 64)) (lock : Bool)
  | csiFrameEnd (dt : Nat) (port : Fin 8) (head : CsiHead) (fnum : BitVec 16)
  | csiLineStart (dt : Nat) (port : Fin 8) (head : CsiHead) (ts : Option (BitVec 64)) (lock : Bool)
  | csiLineEnd (dt : Nat) (port : Fin 8) (head : CsiHead)
  | csiLongPacket (dt : Nat) (port : Fin 8) (vc : Fin 16) (dtype : BitVec 6) (wc : BitVec 16) (data : Bytes) (crc : BitVec 16) (corrected : Bool)
  | csiEmbeddedData (dt : Nat) (port : Fin 8) (vc : Fin 16) (wc : BitVec 16) (data : Bytes) (crc : BitVec 16) (corrected : Bool)
  | csiHeaderEccError (dt : Nat) (port : Fin 8) (header : Word)
  | csiSotSyncError (dt : Nat) (port : Fin 8) (lanes : Byte)
  | ethFrameReceive (dt : Nat) (mac : Fin 4) (frame : Bytes) (hwTs : Bool) (linkDelay : Option Int) (q : Fin 8)
  | encoderEdge (dt : Nat) (input : Fin 12) (a b : Bool) (edge : PinEdge)
  | imuDataReady (dt : Nat) (spi : Fin 4)
  | imuReadComplete (dt : Nat) (spi : Fin 4) (data : Bytes)
  | canFrameReceive (dt : Nat) (ctrl : Fin 2) (frame : CanFrame)
  | canErrorPassive (dt : Nat) (ctrl : Fin 2) (tec rec : Byte)
  | canBusOff (dt : Nat) (ctrl : Fin 2) (tec : Byte)
  | canBusOffRecovery (dt : Nat) (ctrl : Fin 2)
  | packetTimeout (dt : Nat) (stream : Fin 48)
  | overrunClose (dt : Nat) (stream : Fin 48)
  -- Fusion and results (R85 to R127)
  | packetTakeUp (dt : Nat) (stream : Fin 48) (upset : Bool)
  | resultSetStart (dt : Nat) (rs : Fin 4)
  | watermarkSeal (dt : Nat) (test : SealTest)
  | deadlineSeal (dt : Nat) (test : SealTest)
  | resultVote (dt : Nat) (rs : Fin 4)
  | egressQueueRoom (dt : Nat) (mac : Fin 4) (sent : Nat)
  | slotOverwriteAfterRead (dt : Nat) (rs : Fin 4) (slot : Fin 4096)
  -- Command lists (R248 to R266 and the engines' chapters)
  | load (dt : Nat) (c : QCmd)
  | store (dt : Nat) (c : QCmd)
  | matmul (dt : Nat) (c : QCmd)
  | vector (dt : Nat) (c : QCmd)
  | attend (dt : Nat) (c : QCmd)
  | corridorOrderWaitEnd (dt : Nat) (c : QCmd)
  | pointBuild (dt : Nat) (c : QCmd)
  | ingestDone (dt : Nat)
  | sortDone (dt : Nat)
  | leafPassDone (dt : Nat)
  | interiorDone (dt : Nat)
  | query (dt : Nat) (c : QCmd)
  | fuse (dt : Nat) (c : QCmd)
  | solve (dt : Nat) (c : QCmd)
  | solveReadDataReady (dt : Nat) (c : QCmd)
  | copy (dt : Nat) (c : QCmd)
  | collect (dt : Nat) (c : QCmd)
  | createDesc (dt : Nat) (c : QCmd)
  | waitFence (dt : Nat) (c : QCmd)
  | signalFence (dt : Nat) (c : QCmd)
  | semAcquire (dt : Nat) (c : QCmd)
  | semRelease (dt : Nat) (c : QCmd)
  | branchVariant (dt : Nat) (c : QCmd)
  | endList (dt : Nat) (c : QCmd)
  | waitSatisfied (dt : Nat) (c : QCmd)
  | listTimeTrigger (dt : Nat) (list : Fin 4095)
  | batchWaitExpiry (dt : Nat) (list : Fin 4095)
  -- Marjoram (R267 to R280)
  | energyTick (dt : Nat)
  | class0SlackExpiry (dt : Nat) (list : Fin 4095)
  | starveTimeout (dt : Nat) (list : Fin 4095)
  | energyDebtTimeout (dt : Nat)
  | zoneSample (dt : Nat) (temps : List (Option Int))
  | sensorSampleTimeout (dt : Nat) (sensor : Fin 64)
  | capWrite (dt : Nat) (c : Fin 8) (v : Word)
  -- Tiles, vaults, mesh (R147 to R171)
  | tileTempSample (dt : Nat) (tile : Fin 144) (temp : BitVec 8)
  | opChangeDone (dt : Nat) (tile : Fin 144) (settled : Bool)
  | autonomousSpill (dt : Nat) (tile : Fin 144)
  | spillOutComplete (dt : Nat) (tile : Fin 144) (offset : Nat)
  | reloadComplete (dt : Nat) (tile : Fin 144) (offset : Nat)
  | vaultRowRemap (dt : Nat) (vault : Fin 144) (layer : Fin 4) (row : Nat)
  | vaultScrub (dt : Nat) (vault : Fin 144) (offset : Nat) (f : ScrubFinding)
  | meshMessageArrival (dt : Nat) (m : MeshMsg)
  | meshReplyRetire (dt : Nat) (m : MeshMsg)
  -- Tarragon and the control outputs (R227 to R247)
  | tickReady (dt : Nat) (p : Fin 32)
  | tickInputsReady (dt : Nat) (p : Fin 32)
  | tickShort (dt : Nat) (p : Fin 32)
  | kernelStepComplete (dt : Nat) (stall : Nat) (ue : Option UeReport)
  | solverBudgetStop (dt : Nat) (p : Fin 32)
  | pwmPeriodBoundary (dt : Nat) (w : Fin 12)
  | triggerFire (dt : Nat) (o : Fin 16)
  | triggerPulseEnd (dt : Nat) (o : Fin 16)
  | triggerTimePush (dt : Nat) (c : Fin 8) (o : Fin 16) (hi : Word)
  | ioCapPopLoRead (dt : Nat) (r : Requester) (cap : Fin 16)
  -- Events (R281 to R294)
  | statusSourceChange (dt : Nat) (src : Fin 1024) (level : Bool)
  | coalesceTimeout (dt : Nat) (src : Fin 1024)
  | eventDelivery (dt : Nat) (mie : BitVec 8)
  | evCClaimRead (dt : Nat) (r : Requester) (c : Fin 8)
  | eventComplete (dt : Nat) (c : Fin 8) (target : Fin 8) (v : Word)
  | evHCauseRead (dt : Nat) (r : Requester) (pin : Fin 2)
  | evGlobalWrite (dt : Nat) (c : Fin 8) (v : Word)
  | evMaskWrite (dt : Nat) (c : Fin 8) (w : Fin 32) (v : Word)
  | evSyncRead (dt : Nat) (r : Requester)
  | softwareEvent (dt : Nat) (c : Fin 8) (v : Word)
  | fenceWatcherArm (dt : Nat) (c : Fin 8) (w : Fin 64) (hi : Word)
  | wakeLatchEdge (dt : Nat) (src : Fin 64) (rising : Bool) (boot : BootInputs)
  -- Chervil (R295 to R316)
  | supervisionPass (dt : Nat)
  | lockstepMismatch (dt : Nat)
  | budgetStop (dt : Nat) (c : QCmd)
  | budgetStopDrainTimeout (dt : Nat) (c : QCmd)
  | resultDeadlineTest (dt : Nat) (rs : Fin 4)
  | clockMonitorWindow (dt : Nat) (island : Fin 178) (khz : Nat) (opChange : Bool)
  | voltageFault (dt : Nat) (domain : Fin 56) (mv nominal : Nat)
  | temperatureFault (dt : Nat) (sensor : Fin 64) (temp : Int)
  | shadowCompare (dt : Nat) (rs : Fin 4) (behind : Bool) (tileCrc spareCrc goldCrc : Word)
  | goldenRunComplete (dt : Nat) (crcs : List (Nat × Word))
  | selfTestAttempt (dt : Nat) (zone : Fin 9)
  | selfTestSliceEnd (dt : Nat) (zone : Fin 9) (passed : Bool)
  | selfTestSliceOverrun (dt : Nat) (zone : Fin 9)
  -- Recovery (R317 to R338)
  | queueHang (dt : Nat) (eng : Fin 6) (q : Fin 16)
  | fusionHang (dt : Nat) (rs : Fin 4)
  | contextDrainTimeout (dt : Nat) (ctx : Fin 64)
  | contextWindowExpiry (dt : Nat) (ctx : Fin 64)
  | contextResetRequest (dt : Nat) (c : Fin 8) (v : Word)
  | partitionResetRequest (dt : Nat) (c : Fin 8) (v : Word)
  | partitionResetComplete (dt : Nat) (p : Fin 12)
  | partitionWindowExpiry (dt : Nat) (p : Fin 12)
  | crashRecordDone (dt : Nat) (c : Fin 8) (v : Word)
  | jobAbortReceive (dt : Nat) (sender : Fin 8) (level : Fin 3) (resume : Word)
  | backstopTimeout (dt : Nat) (rank : Fin 8)
  -- Boot, NVM, attestation (R339 to R358)
  | powerOnResetRelease (dt : Nat) (b : BootInputs)
  | porstAssert (dt : Nat) (lowNs : Nat)
  | bootWatchdogExpiry (dt : Nat)
  | bootSupplyFault (dt : Nat)
  | sfdpTimeout (dt : Nat)
  | nvmReadTimeout (dt : Nat) (addr : BitVec 29)
  | bootRetryHoldExpiry (dt : Nat)
  | minRead (dt : Nat) (key : BitVec 16)
  | minProgram (dt : Nat) (key : BitVec 16)
  | minErase (dt : Nat) (key : BitVec 16)
  | minRetry (dt : Nat) (key : BitVec 16)
  | nvmOperationComplete (dt : Nat) (failed : Bool) (status : Byte)
  | attestationRequest (dt : Nat) (nonce3 : Word)
  | attestationDone (dt : Nat)
  -- Power (R359 to R374)
  | parkRequest (dt : Nat) (r : Requester) (v : Word)
  | parkDrainLimit (dt : Nat)
  | alarmArm (dt : Nat) (c : Fin 8) (a : Fin 4) (hi : Word)
  | alarmFire (dt : Nat) (a : Fin 4) (boot : BootInputs)
  | comparatorOutputChange (dt : Nat) (c : Fin 4) (high : Bool) (boot : BootInputs)
  | referenceLoss (dt : Nat)
  | pllLockLoss (dt : Nat) (n : Fin 6)
  -- Host port (R375 to R385)
  | rd4 (dt : Nat) (addr : Word) (crc : BitVec 16) (met : WindowMet)
  | rd64 (dt : Nat) (addr : Word) (crc : BitVec 16) (met : WindowMet)
  | rd256 (dt : Nat) (addr : Word) (crc : BitVec 16) (met : WindowMet)
  | rd4k (dt : Nat) (addr : Word) (crc : BitVec 16) (met : WindowMet)
  | wr4 (dt : Nat) (addr : Word) (v : Word) (crc : BitVec 16)
  | setwin (dt : Nat) (addr : Word) (crc : BitVec 16)
  | rres64 (dt : Nat) (addr : Word) (crc : BitVec 16) (met : WindowMet)
  | rres4k (dt : Nat) (addr : Word) (crc : BitVec 16) (met : WindowMet)
  | wreset (dt : Nat) (addr : Word) (crc : BitVec 16)
  | unknownOpcode (dt : Nat) (opcode inverse : Byte)
  | transactionCancel (dt : Nat) (opcode received : Byte)
  | hpResultRelease (dt : Nat) (rs : Fin 4) (sn : Word)
  | clFenceLoRead (dt : Nat) (r : Requester) (f : Fin 4096)
  -- Peer links and Ethernet (R386 to R400)
  | flitReceive (dt : Nat) (link : Fin 4) (flit : Bytes)
  | ackTimeout (dt : Nat) (link : Fin 4)
  | linkDown (dt : Nat) (link : Fin 4)
  | linkTrained (dt : Nat) (link : Fin 4) (rank : Fin 8) (size : Fin 8) (image : Word)
  | linkStartTimeout (dt : Nat)
  | gateIntervalExpiry (dt : Nat) (mac : Fin 4)
  | ethLinkChange (dt : Nat) (mac : Fin 4) (up : Bool) (lanes : Byte)
  -- Control cores, reference, boundary scan (R348, R357, R367)
  | controlCoreStore (dt : Nat) (c : Fin 8) (addr : Word) (v : Word)
  | referenceRestored (dt : Nat)
  | boundaryScanInstruction (dt : Nat) (code : JtagInstr)
  deriving DecidableEq, Repr

end Sys2Proof
end

