-- ==== Sys2Proof/Decode.lean ====
section
/-! DEFINITION. Words that spell a command. spec/opcode_table.json gives its rows no bits, so no word spells one. -/

namespace Sys2Proof

/-- The command a word of `nbits` bits spells by the table's bits: the table gives none. -/
def decodeTableWord (_nbits _w : Nat) : Option Instr := none

end Sys2Proof
end

