-- ==== Sys2Proof/Config.lean ====
section
/-! DEFINITION. The values the manual leaves open: opaque constants, so that nothing in Lean can evaluate them or prove a value of them. Each is named in a log entry. -/

namespace Sys2Proof.Config

/-- How many detections stand in a detection array when a result is voted (R122 gives the array no count): the array's bytes (log entry 20). -/
opaque detections : Bytes → Nat

/-- Quarter-ns from a peer-delay request's counter value to the transmission of its response (R38 gives no turnaround; log entry 91): free counter. -/
opaque pdelayTurn : Nat → Nat

/-- Frames the egress queue holds (R397 names the queue and no depth; log entry 21). -/
opaque egressDepth : Nat

/-- The integer code a NaN converts to: the integer types have none (R156, R172): width (log entry 30). -/
opaque nanToInt : Nat → Nat

/-- The code of an element in an MX block of another scale than its own, where a load's slice does not begin on a block (R176 gives none): block scale, own scale, code (log entry 31). -/
opaque mxRebase : Nat → Nat → Nat → Nat

/-- The result of the vector compare on two FP32 words (R157 names no predicate and no form; log entry 32). -/
opaque vecCompare : Nat → Nat → Nat

/-- Which result within its bound exp, log and tanh give for an FP32 word (R157; log entry 33). -/
opaque vecExp : Nat → Nat
opaque vecLog : Nat → Nat
opaque vecTanh : Nat → Nat

/-- Which result within its bound rsqrt and reciprocal give for an FP32 word (R157; log entry 33). -/
opaque vecRsqrt : Nat → Nat
opaque vecRecip : Nat → Nat

/-- The integer procedure that normalises a quaternion (R105, R213, R229: named, its steps not given): component, the four inputs as 64-bit patterns (log entry 35). -/
opaque normalise : Nat → List Nat → Nat

/-- The body a stream is mounted on, in the body order of R240 (R106; no register names it): stream (log entry 35). -/
opaque bodyOf : Nat → Nat

/-- The relative pose of a camera frame or line (R106 fixes integer operations without giving them): component, what it is composed of (log entry 35). -/
opaque relativePose : Nat → List Nat → Nat

/-- A point's coordinate in the grid frame (R105, R106 fix an integer procedure without giving it): axis, then all it is computed from (log entry 35). -/
opaque gridCoord : Nat → List Nat → Nat

/-- A byte FUSE writes (R106, R256 give the output no layout): what it is computed from, the byte's offset, the byte before (log entry 36). -/
opaque fuseByte : List Nat → Nat → Byte → Byte

/-- A byte of Sorrel's working area after a sort (R133): free counter, offset (log entry 37). -/
opaque sorrelByte : Nat → Nat → Byte

/-- A result's corridor key when the trajectory has no record at all (R105, R107 interpolate between records): its instant (log entry 38). -/
opaque keyNoPose : Nat → Nat

/-- Tarragon (log entry 40): the kernel of the stored program's step (its encoding is not given), and residual rows of a structure: the SRAM image, problem, then step or structure. -/
opaque kernel : Bytes → Nat → Nat → Nat
opaque residualRows : Bytes → Nat → Nat → Nat

/-- Tarragon (log entry 40): a byte of a structure's body table (R227 lays out a record and not where the tables lie): the SRAM image, problem, structure, offset. -/
opaque bodyByte : Bytes → Nat → Nat → Nat → Byte

/-- Tarragon (R231, R237; log entry 44): the bytes of the outputs of a problem, which R231 gives to the image and no register holds: the SRAM image, problem. -/
opaque outputBytes : Bytes → Nat → Nat

/-- Tarragon (R229, log entry 40): an output byte of a solve, and what its warm state carries beside joints and rotations, from all the solve has computed. -/
opaque solution : List Nat → Nat → Byte
opaque warmState : List Nat → Nat

/-- Tarragon (R229, log entry 40): the variables that saturate in the parts of a kernel step the manual gives no formula for: what the tick has computed, the step. -/
opaque stepSats : List Nat → Nat → List Nat

/-- Tarragon (R229, log entry 40): the variable that a kernel's quantity is, and a variable's byte in the Q table: the SRAM image, problem, then the quantity or the variable. -/
opaque qVariable : Bytes → Nat → Nat → Nat
opaque qFormat : Bytes → Nat → Nat → Nat

/-- Tarragon (R229, R231, log entry 40): the reciprocal procedure, which R229 fixes without giving it (fraction bits, value), and λ² in the accumulator's format (the SRAM image, problem). -/
opaque qRecip : Nat → Int → Int
opaque lambdaSq : Bytes → Nat → Int

/-- Tarragon (R231, log entry 40): entries of the residuals' Jacobian (row, column) and the residuals (row), whose formulas the image holds, from all the tick has computed. -/
opaque jacobian : List Nat → Nat → Nat → Int
opaque residual : List Nat → Nat → Int

/-- Tarragon (R230, R231, log entry 40): what an outward pass holds for one body, from its parent's and all the tick has computed (kernel and pass, body); a body's own term of an inward pass, and what it hands to its parent (component). -/
opaque outwardTerm : List Nat → Nat → Nat → Nat → Nat
opaque inwardTerm : List Nat → Nat → Nat → Nat → Int
opaque inwardCarry : List Nat → Nat → List Int → Nat → Int

/-- Tarragon (R231, log entry 40): the joint variables (degree of freedom) and the rotation variables (number, component) after an iteration, from all the tick has computed. -/
opaque jointNext : List Nat → Nat → Int
opaque rotationNext : List Nat → Nat → Nat → Int

/-- Tarragon (R238, log entry 40): where in its outputs a problem's rotations begin, which the image lays out: the SRAM image, problem. -/
opaque rotationOutputs : Bytes → Nat → List Nat

/-- Where the outputs of a control problem hold the duty of a PWM output, and the trigger times of an output (R241, R243; log entry 41): output number, output bytes as a number. -/
opaque duty : Nat → Nat → Nat
opaque triggerTimes : Nat → Nat → List Nat

/-- The structure bit when the selecting stream has given no sample yet (R234; log entry 42): problem, tick. -/
opaque selNone : Nat → Nat → Nat

/-- A byte of a SOLVE read when no record lies at or before the instant (R239; log entry 43): problem, offset. -/
opaque noRecord : Nat → Nat → Byte

/-- A byte of the DMA state of the tiles in a crash record (R321 section 5 gives it no format; log entry 45): free counter, offset. -/
opaque dmaState : Nat → Nat → Byte

/-- The image marks an SRAM buffer spillable (R160 gives the mark no place; log entry 46): list, SRAM offset. -/
opaque spillable : Nat → Nat → Bool

/-- Spare rows a layer of a vault has after BIST (R162 gives no number; log entry 47): vault, layer. -/
opaque spareRows : Nat → Nat → Nat

/-- The measured power over the last millisecond in mW (R280; log entry 48): free counter. -/
opaque measuredPower : Nat → Nat

/-- What an 8-bit temperature field shows of a reading above 127 °C (R272, R280; log entry 49): the reading. -/
opaque hotShown : Int → Nat

/-- Chervil's energy in µJ that the manual puts no number to (R307, R312; log entry 51): a shadow run by set and result, a self-test slice by zone and slice. -/
opaque shadowUj : Nat → Nat → Nat
opaque sliceUj : Nat → Nat → Nat

/-- The cause code in the crash record of a budget stop, which R322 does not list (R300; log entry 52): list. -/
opaque stopCause : Nat → Byte

/-- A byte of the signature of an attestation report, whose private key no text gives (R355, R356; log entry 57): free counter, the signed bytes, offset. -/
opaque attestSign : Nat → Bytes → Nat → Byte

/-- A byte of flash after a program or an erase that failed (R352 says only that it is reported; log entry 58): free counter, NVM address. -/
opaque flashByte : Nat → Nat → Byte

/-- Whether a PORST_N pulse between 1 µs and 10 µs resets the part (R409; log entry 59): free counter, its length in ns. -/
opaque porstTakes : Nat → Nat → Bool

/-- The payloads of the flits that carry a message over a peer link, and the fields and bytes a payload carries (R386, R392 and R335 name what flits carry and give it no layout; log entry 54): the class, the message's fields, its bytes. -/
opaque linkFlits : Nat → List Nat → Bytes → List Bytes
opaque linkPart : Nat → Bytes → List Nat × Bytes

/-- The sequence number a link-control payload names in a NAK; none for other control (R386, R387; log entry 54). -/
opaque linkNak : Bytes → Option Nat

end Sys2Proof.Config
end

