-- ==== Sys2Proof/Machine/Bits.lean ====
section
/-! DEFINITION. Bit fields, byte order (R3: least significant byte first), two's complement, serial comparison, saturation, and the CRCs the manual names (R65 CAN and Ethernet by their standards, R66, R117, R342, R376, R386). -/

namespace Sys2Proof.Machine

/-- Bits [lo + width - 1 : lo] of a number. -/
def bitsOf (n lo width : Nat) : Nat := n / 2 ^ lo % 2 ^ width

/-- Bit i of a number. -/
def bitOf (n i : Nat) : Bool := n / 2 ^ i % 2 == 1

/-- A number with bits [lo + width - 1 : lo] replaced. -/
def putBits (n lo width v : Nat) : Nat :=
  n - n / 2 ^ lo % 2 ^ width * 2 ^ lo + v % 2 ^ width * 2 ^ lo

/-- A number with bit i set or cleared. -/
def putBit (n i : Nat) (b : Bool) : Nat := putBits n i 1 (if b then 1 else 0)

/-- 1 for true. -/
def b2n (b : Bool) : Nat := if b then 1 else 0

/-- The value of a `w`-bit two's complement pattern. -/
def signedOf (w n : Nat) : Int :=
  let m := n % 2 ^ w
  if m < 2 ^ (w - 1) then (m : Int) else (m : Int) - (2 ^ w : Nat)

/-- The `w`-bit two's complement pattern of an integer (modulo 2^w). -/
def patternOf (w : Nat) (i : Int) : Nat := (i % (2 ^ w : Nat)).toNat

/-- An integer saturated to `w`-bit two's complement. -/
def satSigned (w : Nat) (i : Int) : Int :=
  if i < -((2 ^ (w - 1) : Nat) : Int) then -((2 ^ (w - 1) : Nat) : Int)
  else if i > ((2 ^ (w - 1) : Nat) : Int) - 1 then ((2 ^ (w - 1) : Nat) : Int) - 1 else i

/-- A count saturated to `w` bits. -/
def satNat (w n : Nat) : Nat := if n < 2 ^ w then n else 2 ^ w - 1

/-- A number from bytes, least significant first (R3). -/
def leNat : Bytes → Nat
  | [] => 0
  | b :: bs => b.toNat + 256 * leNat bs

/-- `k` bytes of a number, least significant first (R3). -/
def leBytes : Nat → Nat → Bytes
  | 0, _ => []
  | k + 1, n => BitVec.ofNat 8 n :: leBytes k (n / 256)

/-- A number from bytes, most significant first (network order, extraction steps with BE = 1). -/
def beNat (bs : Bytes) : Nat := leNat bs.reverse

/-- `k` bytes of a number, most significant first. -/
def beBytes (k n : Nat) : Bytes := (leBytes k n).reverse

/-- `n` bytes at offset `ofs`; bytes beyond the end read zero. -/
def sliceB (bs : Bytes) (ofs n : Nat) : Bytes :=
  let t := (bs.drop ofs).take n
  t ++ List.replicate (n - t.length) 0

/-- Little-endian number of `n` bytes at `ofs`. -/
def fieldB (bs : Bytes) (ofs n : Nat) : Nat := leNat (sliceB bs ofs n)

/-- Bytes with those from `ofs` on replaced by `v` (the buffer is zero-extended to hold them). -/
def patchB (bs : Bytes) (ofs : Nat) (v : Bytes) : Bytes :=
  sliceB bs 0 ofs ++ v ++ bs.drop (ofs + v.length)

/-- `n` zero bytes. -/
def zerosB (n : Nat) : Bytes := List.replicate n 0

/-- Eight steps of a reflected CRC register. -/
def crcStepR (poly : Nat) : Nat → Nat → Nat
  | 0, c => c
  | k + 1, c => crcStepR poly k (if c % 2 = 1 then Nat.xor (c / 2) poly else c / 2)

/-- A reflected CRC over bytes from a start value. -/
def crcR (poly : Nat) (c : Nat) : Bytes → Nat
  | [] => c
  | b :: bs => crcR poly (crcStepR poly 8 (Nat.xor c b.toNat)) bs

/-- Eight steps of a non-reflected CRC register of width `w`. -/
def crcStepN (w poly : Nat) : Nat → Nat → Nat
  | 0, c => c
  | k + 1, c => crcStepN w poly k ((if c / 2 ^ (w - 1) % 2 = 1 then Nat.xor (2 * c) poly else 2 * c) % 2 ^ w)

/-- A non-reflected CRC of width `w` over bytes from a start value. -/
def crcN (w poly : Nat) (c : Nat) : Bytes → Nat
  | [] => c
  | b :: bs => crcN w poly (crcStepN w poly 8 (Nat.xor c (b.toNat * 2 ^ (w - 8)))) bs

/-- The ceiling of n / d. -/
def cdiv (n d : Nat) : Nat := (n + d - 1) / d

/-- The greatest r with r * r ≤ n, by halving steps from the top bit `k`. -/
def isqrtFrom (n : Nat) : Nat → Nat → Nat
  | 0, r => r
  | k + 1, r => isqrtFrom n k (if (r + 2 ^ k) * (r + 2 ^ k) ≤ n then r + 2 ^ k else r)

/-- The integer square root of a number below 2^128. -/
def isqrt (n : Nat) : Nat := isqrtFrom n 64 0

/-- A list with element i replaced (no change beyond the end). -/
def setAt {α : Type} : List α → Nat → α → List α
  | [], _, _ => []
  | _ :: xs, 0, v => v :: xs
  | x :: xs, n + 1, v => x :: setAt xs n v

/-- Insertion into a list in ascending order of a key; equal keys keep the order of arrival. -/
def insertByKey {α : Type} (key : α → Nat) (v : α) : List α → List α
  | [] => [v]
  | x :: xs => if key v < key x then v :: x :: xs else x :: insertByKey key v xs

/-- A stable sort by key. -/
def sortByKey {α : Type} (key : α → Nat) (xs : List α) : List α := xs.foldl (fun acc x => insertByKey key x acc) []

/-- An association list with one key's value replaced or added at the end. -/
def assocPut {α : Type} (k : Nat) (v : α) : List (Nat × α) → List (Nat × α)
  | [] => [(k, v)]
  | (j, w) :: rest => if j = k then (k, v) :: rest else (j, w) :: assocPut k v rest

/-- The value of a key in an association list. -/
def assocGet {α : Type} (k : Nat) : List (Nat × α) → Option α
  | [] => none
  | (j, w) :: rest => if j = k then some w else assocGet k rest

/-- An association list without a key. -/
def assocDrop {α : Type} (k : Nat) (l : List (Nat × α)) : List (Nat × α) := l.filter (fun p => p.1 != k)

end Sys2Proof.Machine
end

