-- ==== Sys2Proof/Machine/Memory.lean ====
section
/-! DEFINITION. Sparse memories in one canonical form: a list of (key, value) pairs, keys strictly rising, no entry equal to what an unlisted key reads as.
The control registers (R5, R6), DRAM (R26), tile SRAM (R159) and the NVM (R339) are held this way; each names its own unlisted value. -/

namespace Sys2Proof.Machine

/-- The value at a key; an unlisted key reads as `d` of it. -/
def Memory.read {α : Type} (d : Nat → α) (m : List (Nat × α)) (a : Nat) : α :=
  match m with
  | [] => d a
  | (k, v) :: rest => if k = a then v else Memory.read d rest a

/-- A memory without any entry at key `a`. -/
def Memory.dropKey {α : Type} (m : List (Nat × α)) (a : Nat) : List (Nat × α) := m.filter (fun p => p.1 != a)

/-- `v` at key `a`, the keys kept rising; writing what an unlisted key reads as removes the entry. -/
def Memory.write {α : Type} [DecidableEq α] (d : Nat → α) (m : List (Nat × α)) (a : Nat) (v : α) : List (Nat × α) :=
  match m with
  | [] => if v = d a then [] else [(a, v)]
  | (k, w) :: rest =>
    if k < a then (k, w) :: Memory.write d rest a v
    else if v = d a then Memory.dropKey ((k, w) :: rest) a
    else if k = a then (a, v) :: rest
    else (a, v) :: (k, w) :: rest

/-- Every listed key is at least `lo`, keys rise, and no entry equals its unlisted value. -/
def Memory.wfFrom {α : Type} [DecidableEq α] (d : Nat → α) (lo : Nat) : List (Nat × α) → Bool
  | [] => true
  | (k, v) :: rest => decide (lo ≤ k) && decide (v ≠ d k) && Memory.wfFrom d (k + 1) rest

/-- The canonical form. -/
def Memory.wf {α : Type} [DecidableEq α] (d : Nat → α) (m : List (Nat × α)) : Bool := Memory.wfFrom d 0 m

/-- `n` values from key `a` upwards. -/
def Memory.readRange {α : Type} (d : Nat → α) (m : List (Nat × α)) (a : Nat) : Nat → List α
  | 0 => []
  | n + 1 => Memory.read d m a :: Memory.readRange d m (a + 1) n

/-- Values from key `a` upwards. -/
def Memory.writeRange {α : Type} [DecidableEq α] (d : Nat → α) (m : List (Nat × α)) (a : Nat) : List α → List (Nat × α)
  | [] => m
  | v :: vs => Memory.writeRange d (Memory.write d m a v) (a + 1) vs

/-- Every key from `a` to `a + n - 1` back to what an unlisted key reads as. -/
def Memory.forget {α : Type} (m : List (Nat × α)) (a n : Nat) : List (Nat × α) :=
  m.filter (fun p => !(decide (a ≤ p.1) && decide (p.1 < a + n)))

end Sys2Proof.Machine
end

