-- ==== Sys2Proof/Machine/RegMap.lean ====
section
/-! DEFINITION. The register map of R401 and of every register table of spec/ (R32, R58, R59, R84, R108, R127, R146, R171, R191, R211, R226, R246, R247, R266, R280, R294, R316, R338, R358, R374, R385, R399, R400).
Field constants F.<REGISTER>_<FIELD> (F.<REGISTER> where a register has one field) carry address, lowest bit and width; the last arguments are instance numbers.
regRows gives every register of a block with its access types (R5) and reset values (R6: unlisted bits read zero). -/

namespace Sys2Proof.Machine

/-- A field of a control register: the register's address, the lowest bit, the width (R3, R5). -/
structure Field where
  addr : Nat
  lo : Nat
  width : Nat
  deriving DecidableEq, Repr

/-- The access types of R5. -/
inductive Access where
  /-- read/write -/
  | rw
  /-- read-only; writes ignored -/
  | ro
  /-- writing 1 clears -/
  | w1c
  /-- write-only; reads return zero -/
  | wo
  /-- written by the image, locked afterwards -/
  | lk
  /-- host-writable after lock -/
  | hw
  deriving DecidableEq, Repr

/-- One assigned field of a register: lowest bit, width, access, reset value. -/
structure FieldRow where
  lo : Nat
  width : Nat
  acc : Access
  reset : Nat
  deriving DecidableEq, Repr

/-- One row of a register table: first address, outer and inner (stride, count) of its instances, its fields. -/
structure RegRow where
  base : Nat
  stride1 : Nat
  count1 : Nat
  stride2 : Nat
  count2 : Nat
  fields : List FieldRow
  deriving DecidableEq, Repr

end Sys2Proof.Machine

namespace Sys2Proof.F
open Sys2Proof.Machine

/-! ### Block GLB -/
def GLB_ID_PART : Field := ⟨0x0, 16, 16⟩
def GLB_ID_STEPPING : Field := ⟨0x0, 8, 8⟩
def GLB_STATUS_LOCKED : Field := ⟨0x4, 0, 1⟩
def GLB_STATUS_RUN : Field := ⟨0x4, 1, 1⟩
def GLB_STATUS_MINIMAL : Field := ⟨0x4, 2, 1⟩
def GLB_STATUS_FAULT : Field := ⟨0x4, 3, 1⟩
def GLB_STATUS_REDUCED : Field := ⟨0x4, 4, 1⟩
def GLB_STATUS_COLS : Field := ⟨0x4, 8, 4⟩
def GLB_STATUS_PARTS : Field := ⟨0x4, 12, 4⟩
def GLB_STATUS_JOB_SIZE : Field := ⟨0x4, 16, 3⟩
def GLB_STATUS_RANK : Field := ⟨0x4, 19, 3⟩
def GLB_STATUS_STANDBY : Field := ⟨0x4, 22, 1⟩
def GLB_SPARE_MAP : Field := ⟨0x8, 0, 12⟩
def GLB_CELL_SPARED : Field := ⟨0xC, 0, 8⟩
def GLB_PART_LO : Field := ⟨0x10, 0, 32⟩
def GLB_PART_HI : Field := ⟨0x14, 0, 16⟩

/-! ### Block TB -/
def TB_NOW_LO : Field := ⟨0x10000, 0, 32⟩
def TB_NOW_HI : Field := ⟨0x10004, 0, 32⟩
def TB_NOW_FRAC : Field := ⟨0x10008, 0, 16⟩
def TB_CNT_LO : Field := ⟨0x1000C, 0, 32⟩
def TB_CNT_HI : Field := ⟨0x10010, 0, 32⟩
def TB_STATUS_TQ : Field := ⟨0x10014, 0, 4⟩
def TB_STATUS_LOCKED_ONCE : Field := ⟨0x10014, 4, 1⟩
def TB_STATUS_STARTED : Field := ⟨0x10014, 5, 1⟩
def TB_STATUS_STILL : Field := ⟨0x10014, 6, 1⟩
def TB_STATUS_CONSIST : Field := ⟨0x10014, 8, 4⟩
def TB_OFS_LO : Field := ⟨0x10018, 0, 32⟩
def TB_OFS_HI : Field := ⟨0x1001C, 0, 32⟩
def TB_OFS_FRAC : Field := ⟨0x10020, 0, 16⟩
def TB_RATE : Field := ⟨0x10024, 0, 32⟩
def TB_ANCHOR_LO : Field := ⟨0x10028, 0, 32⟩
def TB_ANCHOR_HI : Field := ⟨0x1002C, 0, 32⟩
def TB_RATE_NEXT : Field := ⟨0x10030, 0, 32⟩
def TB_COMMIT : Field := ⟨0x10034, 0, 1⟩
def TB_COMMIT_STATUS_CODE : Field := ⟨0x10038, 0, 2⟩
def TB_COMMIT_STATUS_COUNT : Field := ⟨0x10038, 16, 16⟩
def TB_MEAS_LO : Field := ⟨0x1003C, 0, 32⟩
def TB_MEAS_HI : Field := ⟨0x10040, 0, 32⟩
def TB_JUMP_REFUSED_PENDING : Field := ⟨0x10044, 0, 1⟩
def TB_JUMP_REFUSED_STICKY : Field := ⟨0x10044, 1, 1⟩
def TB_JUMP_REFUSED_JUMP_ID : Field := ⟨0x10044, 16, 16⟩
def TB_JUMP_SIZE_LO : Field := ⟨0x10048, 0, 32⟩
def TB_JUMP_SIZE_HI : Field := ⟨0x1004C, 0, 32⟩
def TB_RELOCK_ARM_JUMP_ID : Field := ⟨0x10050, 0, 16⟩
def TB_RELOCK_ARM_KEY : Field := ⟨0x10050, 16, 16⟩
def TB_CFG_POLICY : Field := ⟨0x10054, 0, 2⟩
def TB_CFG_START_WAIT : Field := ⟨0x10054, 2, 1⟩
def TB_CFG_START_TIMEOUT : Field := ⟨0x10054, 8, 8⟩
def TB_CFG_DOMAIN : Field := ⟨0x10054, 16, 7⟩
def TB_CFG_PTP_MAC : Field := ⟨0x10054, 24, 2⟩
def TB_CFG_ALT_EN : Field := ⟨0x10054, 26, 1⟩
def TB_CFG_ALT_MAC : Field := ⟨0x10054, 27, 2⟩
def TB_JUMP_NS : Field := ⟨0x10058, 0, 24⟩
def TB_LOCK_NS : Field := ⟨0x1005C, 0, 16⟩
def TB_CONSIST_NS : Field := ⟨0x10060, 0, 20⟩
def TB_MEAS_TIMEOUT : Field := ⟨0x10064, 0, 16⟩
def TB_HOLD : Field := ⟨0x10068, 0, 16⟩
def TB_HOLD_LIMIT : Field := ⟨0x1006C, 0, 24⟩
def TB_RATE_MAX : Field := ⟨0x10070, 0, 21⟩
def TB_STILL_MASK : Field := ⟨0x10074, 0, 12⟩
def TB_STILL_MS : Field := ⟨0x10074, 16, 16⟩
def TB_UTC_OFFSET : Field := ⟨0x10078, 0, 16⟩
def TB_UTC_VALID : Field := ⟨0x10078, 16, 1⟩
def TB_UTC_LEAP61 : Field := ⟨0x10078, 17, 1⟩
def TB_UTC_LEAP59 : Field := ⟨0x10078, 18, 1⟩
def TB_HOLD_ELAPSED : Field := ⟨0x1007C, 0, 32⟩
def TB_STEP_IDX_NEXT : Field := ⟨0x10080, 0, 3⟩
def TB_STEP_IDX_TOTAL : Field := ⟨0x10080, 16, 16⟩
def TB_SUSPECT_LO : Field := ⟨0x10088, 0, 32⟩
def TB_SUSPECT_HI : Field := ⟨0x1008C, 0, 16⟩
def TB_WITHHELD_LO : Field := ⟨0x10090, 0, 32⟩
def TB_WITHHELD_HI : Field := ⟨0x10094, 0, 16⟩
def TB_STEP_LOG (n : Nat) : Field := ⟨0x10100 + 4 * n, 0, 32⟩
def TB_SM_OFS_LO (n : Nat) : Field := ⟨0x11000 + 32 * n, 0, 32⟩
def TB_SM_OFS_HI (n : Nat) : Field := ⟨0x11004 + 32 * n, 0, 32⟩
def TB_SM_RATE (n : Nat) : Field := ⟨0x11008 + 32 * n, 0, 32⟩
def TB_SM_ANCHOR_LO (n : Nat) : Field := ⟨0x1100C + 32 * n, 0, 32⟩
def TB_SM_ANCHOR_HI (n : Nat) : Field := ⟨0x11010 + 32 * n, 0, 32⟩
def TB_SM_RESID (n : Nat) : Field := ⟨0x11014 + 32 * n, 0, 32⟩
def TB_SM_STAT_SUSPECT (n : Nat) : Field := ⟨0x11018 + 32 * n, 0, 1⟩
def TB_SM_STAT_WITHHELD (n : Nat) : Field := ⟨0x11018 + 32 * n, 1, 1⟩
def TB_SM_STAT_FALLBACK (n : Nat) : Field := ⟨0x11018 + 32 * n, 2, 1⟩
def TB_SM_STAT_SEEDED (n : Nat) : Field := ⟨0x11018 + 32 * n, 3, 1⟩
def TB_SM_STAT_GOOD (n : Nat) : Field := ⟨0x11018 + 32 * n, 4, 5⟩
def TB_SM_STAT_ENTRIES (n : Nat) : Field := ⟨0x11018 + 32 * n, 16, 16⟩
def TB_SC_CFG_SOURCE (n : Nat) : Field := ⟨0x12000 + 32 * n, 0, 2⟩
def TB_SC_CFG_CAP_LINE (n : Nat) : Field := ⟨0x12000 + 32 * n, 4, 4⟩
def TB_SC_CFG_FALLBACK (n : Nat) : Field := ⟨0x12000 + 32 * n, 8, 1⟩
def TB_SC_BOUND (n : Nat) : Field := ⟨0x12004 + 32 * n, 0, 32⟩
def TB_SC_FRAME (n : Nat) : Field := ⟨0x12008 + 32 * n, 0, 32⟩
def TB_SC_MOD (n : Nat) : Field := ⟨0x1200C + 32 * n, 0, 32⟩
def TB_SC_TICK (n : Nat) : Field := ⟨0x12010 + 32 * n, 0, 32⟩
def TB_SC_LAT (n : Nat) : Field := ⟨0x12014 + 32 * n, 0, 32⟩
def TB_SC_GAIN_A (n : Nat) : Field := ⟨0x12018 + 32 * n, 0, 4⟩
def TB_SC_GAIN_B (n : Nat) : Field := ⟨0x12018 + 32 * n, 8, 4⟩
def TB_SC_FIX (n : Nat) : Field := ⟨0x1201C + 32 * n, 0, 32⟩

/-! ### Block IG -/
def IG_STATUS_STREAMS : Field := ⟨0x20000, 0, 6⟩
def IG_STATUS_ANY_OVR : Field := ⟨0x20000, 6, 1⟩
def IG_STATUS_ANY_EXCL : Field := ⟨0x20000, 7, 1⟩
def IG_SRAM_USED : Field := ⟨0x20004, 0, 15⟩
def IG_OVR_LO : Field := ⟨0x20010, 0, 32⟩
def IG_OVR_HI : Field := ⟨0x20014, 0, 16⟩
def IG_EXCL_LO : Field := ⟨0x20018, 0, 32⟩
def IG_EXCL_HI : Field := ⟨0x2001C, 0, 16⟩
def IG_VR_IDX_NEXT (n : Nat) : Field := ⟨0x20100 + 4 * n, 0, 6⟩
def IG_VR_IDX_TOTAL (n : Nat) : Field := ⟨0x20100 + 4 * n, 16, 16⟩
def IG_CSI_CFG_EN (n : Nat) : Field := ⟨0x20200 + 16 * n, 0, 1⟩
def IG_CSI_CFG_LANES (n : Nat) : Field := ⟨0x20200 + 16 * n, 1, 2⟩
def IG_CSI_CFG_RATE (n : Nat) : Field := ⟨0x20200 + 16 * n, 8, 9⟩
def IG_CSI_ECC_CORR (n : Nat) : Field := ⟨0x20204 + 16 * n, 0, 16⟩
def IG_CSI_ECC_UNCORR (n : Nat) : Field := ⟨0x20204 + 16 * n, 16, 16⟩
def IG_SCFG_KIND (n : Nat) : Field := ⟨0x21000 + 64 * n, 0, 3⟩
def IG_SCFG_EN (n : Nat) : Field := ⟨0x21000 + 64 * n, 3, 1⟩
def IG_SCFG_PORT (n : Nat) : Field := ⟨0x21000 + 64 * n, 4, 4⟩
def IG_SCFG_VC (n : Nat) : Field := ⟨0x21000 + 64 * n, 8, 4⟩
def IG_SCFG_DT (n : Nat) : Field := ⟨0x21000 + 64 * n, 12, 6⟩
def IG_FIFO_BASE (n : Nat) : Field := ⟨0x21004 + 64 * n, 0, 14⟩
def IG_FIFO_SIZE (n : Nat) : Field := ⟨0x21008 + 64 * n, 0, 15⟩
def IG_PKT_MAX (n : Nat) : Field := ⟨0x2100C + 64 * n, 0, 24⟩
def IG_TIMEOUT (n : Nat) : Field := ⟨0x21010 + 64 * n, 0, 17⟩
def IG_PKT_SHAPE_UNITS (n : Nat) : Field := ⟨0x21014 + 64 * n, 0, 16⟩
def IG_PKT_SHAPE_LINE_BYTES (n : Nat) : Field := ⟨0x21014 + 64 * n, 16, 16⟩
def IG_FRZ_CFG_FRZ_N (n : Nat) : Field := ⟨0x21018 + 64 * n, 0, 4⟩
def IG_FRZ_CFG_FRZ_CLEAR (n : Nat) : Field := ⟨0x21018 + 64 * n, 4, 4⟩
def IG_FRZ_CFG_FRZ_MODE (n : Nat) : Field := ⟨0x21018 + 64 * n, 8, 1⟩
def IG_FRZ_CFG_FRZ_EN (n : Nat) : Field := ⟨0x21018 + 64 * n, 9, 1⟩
def IG_FRZ_CFG_LAT_X (n : Nat) : Field := ⟨0x21018 + 64 * n, 16, 8⟩
def IG_FRZ_CFG_LAT_Y (n : Nat) : Field := ⟨0x21018 + 64 * n, 24, 8⟩
def IG_FIFO_STATUS_FULL (n : Nat) : Field := ⟨0x22000 + 64 * n, 0, 1⟩
def IG_FIFO_STATUS_OVR (n : Nat) : Field := ⟨0x22000 + 64 * n, 1, 1⟩
def IG_FIFO_STATUS_OPEN (n : Nat) : Field := ⟨0x22000 + 64 * n, 2, 1⟩
def IG_FIFO_STATUS_RESYNC (n : Nat) : Field := ⟨0x22000 + 64 * n, 3, 1⟩
def IG_FIFO_STATUS_FROZEN (n : Nat) : Field := ⟨0x22000 + 64 * n, 4, 1⟩
def IG_FIFO_STATUS_REPEATED (n : Nat) : Field := ⟨0x22000 + 64 * n, 5, 1⟩
def IG_FIFO_STATUS_FILL (n : Nat) : Field := ⟨0x22000 + 64 * n, 8, 19⟩
def IG_PKTS (n : Nat) : Field := ⟨0x22004 + 64 * n, 0, 32⟩
def IG_TRUNC (n : Nat) : Field := ⟨0x22008 + 64 * n, 0, 32⟩
def IG_OVR_BYTES (n : Nat) : Field := ⟨0x2200C + 64 * n, 0, 32⟩
def IG_DISCARD (n : Nat) : Field := ⟨0x22010 + 64 * n, 0, 32⟩
def IG_FRZ_CNT_FROZEN (n : Nat) : Field := ⟨0x22014 + 64 * n, 0, 16⟩
def IG_FRZ_CNT_REPEATED (n : Nat) : Field := ⟨0x22014 + 64 * n, 16, 16⟩
def IG_CRC_FAIL (n : Nat) : Field := ⟨0x22018 + 64 * n, 0, 32⟩
def IG_SIG_LAT (n : Nat) : Field := ⟨0x2201C + 64 * n, 0, 32⟩
def IG_SIG_FRAME (n : Nat) : Field := ⟨0x22020 + 64 * n, 0, 32⟩
def IG_LAST_FNUM (n : Nat) : Field := ⟨0x22024 + 64 * n, 0, 32⟩
def IG_VIOL (n : Nat) : Field := ⟨0x22028 + 64 * n, 0, 32⟩
def IG_PROG (n i : Nat) : Field := ⟨0x24000 + 512 * n + 4 * i, 0, 32⟩
def IG_VR (n i : Nat) : Field := ⟨0x2A000 + 1024 * n + 4 * i, 0, 32⟩

/-! ### Block FU -/
def FU_LATE_IDX_NEXT : Field := ⟨0x30400, 0, 6⟩
def FU_LATE_IDX_TOTAL : Field := ⟨0x30400, 16, 16⟩
def FU_POSE_CFG_PROBLEM : Field := ⟨0x30500, 0, 5⟩
def FU_POSE_CFG_DEPTH : Field := ⟨0x30500, 16, 12⟩
def FU_POSE_WM_LO : Field := ⟨0x30504, 0, 32⟩
def FU_POSE_WM_HI : Field := ⟨0x30508, 0, 32⟩
def FU_POSE_STALE : Field := ⟨0x3050C, 0, 32⟩
def FU_LATE_LOG (n : Nat) : Field := ⟨0x30800 + 4 * n, 0, 32⟩
def FU_RS_CFG (n : Nat) : Field := ⟨0x31000 + 256 * n, 0, 1⟩
def FU_RS_PERIOD (n : Nat) : Field := ⟨0x31004 + 256 * n, 0, 32⟩
def FU_RS_PHASE (n : Nat) : Field := ⟨0x31008 + 256 * n, 0, 32⟩
def FU_RS_LEAD (n : Nat) : Field := ⟨0x3100C + 256 * n, 0, 32⟩
def FU_RS_WIN (n : Nat) : Field := ⟨0x31010 + 256 * n, 0, 32⟩
def FU_RS_LA (n : Nat) : Field := ⟨0x31014 + 256 * n, 0, 32⟩
def FU_RS_H (n : Nat) : Field := ⟨0x31018 + 256 * n, 0, 32⟩
def FU_RS_L (n : Nat) : Field := ⟨0x3101C + 256 * n, 0, 32⟩
def FU_RS_STREAMS_LO (n : Nat) : Field := ⟨0x31020 + 256 * n, 0, 32⟩
def FU_RS_STREAMS_HI (n : Nat) : Field := ⟨0x31024 + 256 * n, 0, 16⟩
def FU_RS_T0_LO (n : Nat) : Field := ⟨0x31028 + 256 * n, 0, 32⟩
def FU_RS_T0_HI (n : Nat) : Field := ⟨0x3102C + 256 * n, 0, 32⟩
def FU_RS_SEQ (n : Nat) : Field := ⟨0x31030 + 256 * n, 0, 32⟩
def FU_RS_STAT_STATE (n : Nat) : Field := ⟨0x31034 + 256 * n, 0, 2⟩
def FU_RS_STAT_STARTS (n : Nat) : Field := ⟨0x31034 + 256 * n, 16, 16⟩
def FU_RS_SEAL0 (n : Nat) : Field := ⟨0x31038 + 256 * n, 0, 32⟩
def FU_RS_SEAL1 (n : Nat) : Field := ⟨0x3103C + 256 * n, 0, 32⟩
def FU_RS_SEAL2 (n : Nat) : Field := ⟨0x31040 + 256 * n, 0, 32⟩
def FU_RS_STEPSEAL (n : Nat) : Field := ⟨0x31044 + 256 * n, 0, 32⟩
def FU_WM_LO (n : Nat) : Field := ⟨0x32000 + 64 * n, 0, 32⟩
def FU_WM_HI (n : Nat) : Field := ⟨0x32004 + 64 * n, 0, 32⟩
def FU_WM_CFG_DEV_WM (n : Nat) : Field := ⟨0x32008 + 64 * n, 0, 1⟩
def FU_WM_CFG_LAG_US (n : Nat) : Field := ⟨0x32008 + 64 * n, 16, 14⟩
def FU_HOLE_LO (n : Nat) : Field := ⟨0x3200C + 64 * n, 0, 32⟩
def FU_HOLE_HI (n : Nat) : Field := ⟨0x32010 + 64 * n, 0, 32⟩
def FU_SST_HOLE (n : Nat) : Field := ⟨0x32014 + 64 * n, 0, 1⟩
def FU_SST_ABS_LAST (n : Nat) : Field := ⟨0x32014 + 64 * n, 1, 1⟩
def FU_LATE (n : Nat) : Field := ⟨0x32018 + 64 * n, 0, 32⟩
def FU_OOO (n : Nat) : Field := ⟨0x3201C + 64 * n, 0, 32⟩
def FU_ABSENT (n : Nat) : Field := ⟨0x32020 + 64 * n, 0, 32⟩
def FU_BARRED (n : Nat) : Field := ⟨0x32024 + 64 * n, 0, 32⟩
def FU_STATUS_RS_RUN : Field := ⟨0x30000, 0, 4⟩
def FU_STATUS_MEAS : Field := ⟨0x30000, 4, 7⟩
def FU_EG_CFG_MAC : Field := ⟨0x30004, 0, 2⟩
def FU_EG_CFG_MTU : Field := ⟨0x30004, 16, 14⟩
def FU_EG_SRC_IP : Field := ⟨0x30008, 0, 32⟩
def FU_EG_DROP : Field := ⟨0x3000C, 0, 32⟩
def FU_RS_EG_IP (n : Nat) : Field := ⟨0x31080 + 256 * n, 0, 32⟩
def FU_RS_EG_PORT_DST (n : Nat) : Field := ⟨0x31084 + 256 * n, 0, 16⟩
def FU_RS_EG_PORT_SRC (n : Nat) : Field := ⟨0x31084 + 256 * n, 16, 16⟩
def FU_RS_BODY_DET_MAX (n : Nat) : Field := ⟨0x31088 + 256 * n, 0, 11⟩
def FU_RS_BODY_ETH_EN (n : Nat) : Field := ⟨0x31088 + 256 * n, 11, 1⟩
def FU_RS_BODY_RING_EN (n : Nat) : Field := ⟨0x31088 + 256 * n, 12, 1⟩
def FU_RS_GRID (n : Nat) : Field := ⟨0x3108C + 256 * n, 0, 19⟩
def FU_RS_SRC_DESC (n : Nat) : Field := ⟨0x31090 + 256 * n, 0, 16⟩
def FU_RS_DET_DESC (n : Nat) : Field := ⟨0x31094 + 256 * n, 0, 16⟩
def FU_RS_GRID_DESC (n : Nat) : Field := ⟨0x31098 + 256 * n, 0, 16⟩
def FU_SLACK (n : Nat) : Field := ⟨0x310A0 + 256 * n, 0, 32⟩
def FU_SLACK_MIN (n : Nat) : Field := ⟨0x310A4 + 256 * n, 0, 32⟩
def FU_EMIT_LO (n : Nat) : Field := ⟨0x310A8 + 256 * n, 0, 32⟩
def FU_EMIT_HI (n : Nat) : Field := ⟨0x310AC + 256 * n, 0, 32⟩
def FU_EMIT_SEQ (n : Nat) : Field := ⟨0x310B0 + 256 * n, 0, 32⟩
def FU_SEAL_SLACK (n : Nat) : Field := ⟨0x310B4 + 256 * n, 0, 32⟩
def FU_DET_DROP (n : Nat) : Field := ⟨0x310B8 + 256 * n, 0, 32⟩
def FU_EG_FRAGS (n : Nat) : Field := ⟨0x310BC + 256 * n, 0, 32⟩
def FU_MS_CFG_EN (n : Nat) : Field := ⟨0x33000 + 32 * n, 0, 1⟩
def FU_MS_CFG_SAFETY (n : Nat) : Field := ⟨0x33000 + 32 * n, 1, 1⟩
def FU_MS_CFG_RS_MASK (n : Nat) : Field := ⟨0x33000 + 32 * n, 2, 4⟩
def FU_MS_CFG_NSRC (n : Nat) : Field := ⟨0x33000 + 32 * n, 8, 4⟩
def FU_MS_CFG_K (n : Nat) : Field := ⟨0x33000 + 32 * n, 12, 4⟩
def FU_MS_CFG_M (n : Nat) : Field := ⟨0x33000 + 32 * n, 16, 8⟩
def FU_MS_ID (n : Nat) : Field := ⟨0x33004 + 32 * n, 0, 16⟩
def FU_MS_SRC0 (n : Nat) : Field := ⟨0x33008 + 32 * n, 0, 32⟩
def FU_MS_SRC1 (n : Nat) : Field := ⟨0x3300C + 32 * n, 0, 32⟩
def FU_MS_TOL (n i : Nat) : Field := ⟨0x33010 + 32 * n + 4 * i, 0, 32⟩
def FU_MS_STAT_ADMITTED (n i : Nat) : Field := ⟨0x33800 + 2048 * n + 32 * i, 0, 8⟩
def FU_MS_STAT_PRESENT (n i : Nat) : Field := ⟨0x33800 + 2048 * n + 32 * i, 8, 8⟩
def FU_MS_STAT_DEVIATING (n i : Nat) : Field := ⟨0x33800 + 2048 * n + 32 * i, 16, 8⟩
def FU_MS_STAT_STATE (n i : Nat) : Field := ⟨0x33800 + 2048 * n + 32 * i, 24, 3⟩
def FU_MS_RUN0 (n i : Nat) : Field := ⟨0x33804 + 2048 * n + 32 * i, 0, 32⟩
def FU_MS_RUN1 (n i : Nat) : Field := ⟨0x33808 + 2048 * n + 32 * i, 0, 32⟩
def FU_MS_OUTS_VOTEOUTS (n i : Nat) : Field := ⟨0x3380C + 2048 * n + 32 * i, 0, 16⟩
def FU_MS_OUTS_READMITS (n i : Nat) : Field := ⟨0x3380C + 2048 * n + 32 * i, 16, 16⟩
def FU_MS_UNRES (n i : Nat) : Field := ⟨0x33810 + 2048 * n + 32 * i, 0, 32⟩
def FU_MS_UNCHK (n i : Nat) : Field := ⟨0x33814 + 2048 * n + 32 * i, 0, 32⟩

/-! ### Block PT -/
def PT_STATUS_STAGE : Field := ⟨0x40000, 0, 3⟩
def PT_STATUS_OVF_LAST : Field := ⟨0x40000, 3, 1⟩
def PT_STATUS_BUILDS : Field := ⟨0x40000, 16, 16⟩
def PT_QCFG : Field := ⟨0x40004, 0, 5⟩
def PT_ROI_MIN_X : Field := ⟨0x40008, 0, 32⟩
def PT_ROI_MIN_Y : Field := ⟨0x4000C, 0, 32⟩
def PT_ROI_MIN_Z : Field := ⟨0x40010, 0, 32⟩
def PT_ROI_EXT_X : Field := ⟨0x40014, 0, 22⟩
def PT_ROI_EXT_Y : Field := ⟨0x40018, 0, 22⟩
def PT_ROI_EXT_Z : Field := ⟨0x4001C, 0, 22⟩
def PT_PTS_MAX : Field := ⟨0x40020, 0, 21⟩
def PT_LEAF_MAX : Field := ⟨0x40024, 0, 19⟩
def PT_OCT_CFG : Field := ⟨0x40028, 0, 5⟩
def PT_ZONE_CFG : Field := ⟨0x4002C, 0, 4⟩
def PT_ATTR_DESC : Field := ⟨0x40030, 0, 16⟩
def PT_SCR_DESC : Field := ⟨0x40034, 0, 16⟩
def PT_BEV_SIZE_NX : Field := ⟨0x40040, 0, 11⟩
def PT_BEV_SIZE_NY : Field := ⟨0x40040, 16, 10⟩
def PT_BEV_ORG_X : Field := ⟨0x40044, 0, 21⟩
def PT_BEV_ORG_Y : Field := ⟨0x40048, 0, 21⟩
def PT_BEV_CFG_SHIFT : Field := ⟨0x4004C, 0, 4⟩
def PT_BEV_CFG_NCH : Field := ⟨0x4004C, 8, 9⟩
def PT_BEV_FILL : Field := ⟨0x40050, 0, 32⟩
def PT_LAST_RAW : Field := ⟨0x40080, 0, 32⟩
def PT_LAST_STRIDE : Field := ⟨0x40084, 0, 32⟩
def PT_LAST_IN : Field := ⟨0x40088, 0, 32⟩
def PT_LAST_ROI_OUT : Field := ⟨0x4008C, 0, 32⟩
def PT_LAST_KEYS : Field := ⟨0x40090, 0, 32⟩
def PT_LAST_CELLS : Field := ⟨0x40094, 0, 32⟩
def PT_LAST_LEAVES : Field := ⟨0x40098, 0, 32⟩
def PT_LAST_ZONE0 : Field := ⟨0x4009C, 0, 32⟩
def PT_LAST_DROP_CELLS : Field := ⟨0x400A0, 0, 32⟩
def PT_LAST_DROP_PTS : Field := ⟨0x400A4, 0, 32⟩
def PT_LAST_NODES : Field := ⟨0x400A8, 0, 18⟩
def PT_LAST_BASE : Field := ⟨0x400AC, 0, 5⟩
def PT_LAST_RESULT : Field := ⟨0x400B0, 0, 32⟩
def PT_LAST_SET : Field := ⟨0x400B4, 0, 2⟩
def PT_OVF_CNT : Field := ⟨0x400C0, 0, 32⟩
def PT_DECIM_CNT : Field := ⟨0x400C4, 0, 32⟩
def PT_BASE_RAISE : Field := ⟨0x400C8, 0, 32⟩
def PT_WAIT : Field := ⟨0x400CC, 0, 32⟩
def PT_QUERIES : Field := ⟨0x400D0, 0, 32⟩
def PT_QBAD : Field := ⟨0x400D4, 0, 32⟩
def PT_BEV_OUT : Field := ⟨0x400D8, 0, 32⟩
def PT_ZONE_BOX_XLO (n : Nat) : Field := ⟨0x40100 + 32 * n, 0, 21⟩
def PT_ZONE_BOX_XHI (n : Nat) : Field := ⟨0x40104 + 32 * n, 0, 21⟩
def PT_ZONE_BOX_YLO (n : Nat) : Field := ⟨0x40108 + 32 * n, 0, 21⟩
def PT_ZONE_BOX_YHI (n : Nat) : Field := ⟨0x4010C + 32 * n, 0, 21⟩
def PT_ZONE_BOX_ZLO (n : Nat) : Field := ⟨0x40110 + 32 * n, 0, 21⟩
def PT_ZONE_BOX_ZHI (n : Nat) : Field := ⟨0x40114 + 32 * n, 0, 21⟩
def PT_CH_OP_OP (n : Nat) : Field := ⟨0x41000 + 8 * n, 0, 3⟩
def PT_CH_OP_ATTR (n : Nat) : Field := ⟨0x41000 + 8 * n, 4, 2⟩
def PT_CH_BAND_BAND_LO (n : Nat) : Field := ⟨0x41004 + 8 * n, 0, 16⟩
def PT_CH_BAND_BAND_HI (n : Nat) : Field := ⟨0x41004 + 8 * n, 16, 16⟩

/-! ### Block TL -/
def TL_STATUS_GOOD : Field := ⟨0x50000, 0, 8⟩
def TL_STATUS_SPARES : Field := ⟨0x50000, 8, 8⟩
def TL_NUM_CFG : Field := ⟨0x50004, 0, 1⟩
def TL_BOOT_CFG : Field := ⟨0x50008, 0, 4⟩
def TL_SPILL_CFG_HIGH : Field := ⟨0x5000C, 0, 6⟩
def TL_SPILL_CFG_LOW : Field := ⟨0x5000C, 8, 6⟩
def TL_SCRUB_CFG : Field := ⟨0x50010, 0, 24⟩
def TL_CE_LIMIT : Field := ⟨0x50014, 0, 8⟩
def TL_OP_TEMP_T1050 : Field := ⟨0x50018, 0, 8⟩
def TL_OP_TEMP_T900 : Field := ⟨0x50018, 8, 8⟩
def TL_OP_TEMP_T750 : Field := ⟨0x50018, 16, 8⟩
def TL_OP_TEMP_T600 : Field := ⟨0x50018, 24, 8⟩
def TL_UE_CTX_CTX : Field := ⟨0x50020, 0, 6⟩
def TL_UE_CTX_VALID_CTX : Field := ⟨0x50020, 6, 1⟩
def TL_UE_CTX_SRC : Field := ⟨0x50020, 8, 2⟩
def TL_UE_CTX_TILE : Field := ⟨0x50020, 16, 8⟩
def TL_UE_ADDR_LO : Field := ⟨0x50024, 0, 32⟩
def TL_UE_ADDR_HI : Field := ⟨0x50028, 0, 8⟩
def TL_UE_COUNT : Field := ⟨0x5002C, 0, 32⟩
def TL_MESH_RETIRED : Field := ⟨0x50030, 0, 32⟩
def TL_ROW_MAP_FAILED (n : Nat) : Field := ⟨0x50040 + 4 * n, 0, 13⟩
def TL_ROW_MAP_ACTIVE (n : Nat) : Field := ⟨0x50040 + 4 * n, 16, 13⟩
def TL_T_STAT_OP (n : Nat) : Field := ⟨0x51000 + 64 * n, 0, 3⟩
def TL_T_STAT_TEMP (n : Nat) : Field := ⟨0x51000 + 64 * n, 8, 8⟩
def TL_T_STAT_PCOL (n : Nat) : Field := ⟨0x51000 + 64 * n, 16, 4⟩
def TL_T_STAT_CELL_SPARE (n : Nat) : Field := ⟨0x51000 + 64 * n, 20, 1⟩
def TL_T_STAT_BYPASS_NEAR (n : Nat) : Field := ⟨0x51000 + 64 * n, 21, 1⟩
def TL_T_OPCHG (n : Nat) : Field := ⟨0x51004 + 64 * n, 0, 32⟩
def TL_SPILL_OUT (n : Nat) : Field := ⟨0x51008 + 64 * n, 0, 32⟩
def TL_SPILL_IN (n : Nat) : Field := ⟨0x5100C + 64 * n, 0, 32⟩
def TL_SPILL_STALL (n : Nat) : Field := ⟨0x51010 + 64 * n, 0, 32⟩
def TL_SPILL_EVENTS (n : Nat) : Field := ⟨0x51014 + 64 * n, 0, 32⟩
def TL_VAULT_CE (n : Nat) : Field := ⟨0x51018 + 64 * n, 0, 32⟩
def TL_VAULT_LINK (n : Nat) : Field := ⟨0x5101C + 64 * n, 0, 32⟩
def TL_VAULT_REPAIR_DONE (n : Nat) : Field := ⟨0x51020 + 64 * n, 0, 8⟩
def TL_VAULT_REPAIR_DENIED (n : Nat) : Field := ⟨0x51020 + 64 * n, 8, 8⟩
def TL_VAULT_REPAIR_LEFT (n : Nat) : Field := ⟨0x51020 + 64 * n, 16, 8⟩
def TL_SRAM_CE (n : Nat) : Field := ⟨0x51024 + 64 * n, 0, 32⟩
def TL_MESH_STALL (n : Nat) : Field := ⟨0x51028 + 64 * n, 0, 32⟩
def TL_INT_OVF (n : Nat) : Field := ⟨0x5102C + 64 * n, 0, 32⟩
def TL_CONV_SAT (n : Nat) : Field := ⟨0x51030 + 64 * n, 0, 32⟩
def TL_T_SPILL_OFS (n : Nat) : Field := ⟨0x51034 + 64 * n, 0, 12⟩
def TL_T_SPILL_SIZE (n : Nat) : Field := ⟨0x51038 + 64 * n, 0, 12⟩
def TL_BUSY (n : Nat) : Field := ⟨0x5103C + 64 * n, 0, 32⟩

/-! ### Block DS -/
def DS_STATUS : Field := ⟨0x60000, 0, 17⟩
def DS_TBL_BASE_LO : Field := ⟨0x60004, 0, 32⟩
def DS_TBL_BASE_HI : Field := ⟨0x60008, 0, 8⟩
def DS_TBL_SLOTS : Field := ⟨0x6000C, 0, 17⟩
def DS_ALLOC_BASE_LO : Field := ⟨0x60010, 0, 32⟩
def DS_ALLOC_BASE_HI : Field := ⟨0x60014, 0, 8⟩
def DS_ALLOC_COUNT : Field := ⟨0x60018, 0, 13⟩
def DS_CREATED : Field := ⟨0x6001C, 0, 32⟩
def DS_ERR_LAST_CODE : Field := ⟨0x60020, 0, 8⟩
def DS_ERR_LAST_DIM : Field := ⟨0x60020, 8, 3⟩
def DS_ERR_LAST_SLOT : Field := ⟨0x60020, 16, 16⟩
def DS_ERR_COUNT : Field := ⟨0x60024, 0, 32⟩
def DS_ERR_CTX_CTX : Field := ⟨0x60028, 0, 6⟩
def DS_ERR_CTX_BOOT : Field := ⟨0x60028, 6, 1⟩
def DS_INVALID_USE : Field := ⟨0x6002C, 0, 32⟩
def DS_CLAMP_CMDS : Field := ⟨0x60030, 0, 32⟩
def DS_STORE_CLIP : Field := ⟨0x60034, 0, 32⟩
def DS_GRAN_BAD : Field := ⟨0x60038, 0, 32⟩
def DS_MX_NAN : Field := ⟨0x6003C, 0, 32⟩
def DS_COPY_BYTES : Field := ⟨0x60040, 0, 32⟩

/-! ### Block AT -/
def AT_STATUS_HL : Field := ⟨0x70000, 0, 7⟩
def AT_STATUS_MIRROR : Field := ⟨0x70000, 7, 1⟩
def AT_STATUS_FIRST_HEAD : Field := ⟨0x70000, 8, 7⟩
def AT_STATUS_READING : Field := ⟨0x70000, 15, 1⟩
def AT_STATUS_WRITING : Field := ⟨0x70000, 16, 1⟩
def AT_CFG_HEADS : Field := ⟨0x70004, 0, 7⟩
def AT_CFG_NB : Field := ⟨0x70004, 8, 6⟩
def AT_CFG_LAG : Field := ⟨0x70004, 16, 6⟩
def AT_CFG_CTX : Field := ⟨0x70004, 24, 6⟩
def AT_SPAN : Field := ⟨0x70008, 0, 20⟩
def AT_RING : Field := ⟨0x7000C, 0, 17⟩
def AT_KV_PAGES : Field := ⟨0x70010, 0, 17⟩
def AT_DIM_DH : Field := ⟨0x70014, 0, 9⟩
def AT_DIM_DMODEL : Field := ⟨0x70014, 16, 11⟩
def AT_PT_BASE_LO : Field := ⟨0x70018, 0, 32⟩
def AT_PT_BASE_HI : Field := ⟨0x7001C, 0, 8⟩
def AT_SRC_DESC : Field := ⟨0x70020, 0, 16⟩
def AT_KV_DESC : Field := ⟨0x70024, 0, 16⟩
def AT_MISS_DESC : Field := ⟨0x70028, 0, 16⟩
def AT_FENCE_MISS : Field := ⟨0x7002C, 0, 12⟩
def AT_FENCE_DONE : Field := ⟨0x7002C, 16, 12⟩
def AT_CUR_BIN_LO : Field := ⟨0x70030, 0, 32⟩
def AT_CUR_BIN_HI_BIN : Field := ⟨0x70034, 0, 8⟩
def AT_CUR_BIN_HI_DIR : Field := ⟨0x70034, 8, 1⟩
def AT_WRITTEN_SEQ : Field := ⟨0x70038, 0, 32⟩
def AT_RESIDENT : Field := ⟨0x7003C, 0, 17⟩
def AT_DROPS : Field := ⟨0x70040, 0, 32⟩
def AT_MISSES : Field := ⟨0x70044, 0, 32⟩
def AT_RECOMPUTED : Field := ⟨0x70048, 0, 32⟩
def AT_MISS_SHARED : Field := ⟨0x7004C, 0, 32⟩
def AT_INVALID_READS : Field := ⟨0x70050, 0, 32⟩
def AT_EVICT_SRC : Field := ⟨0x70054, 0, 32⟩
def AT_WRITE_SKIP : Field := ⟨0x70058, 0, 32⟩
def AT_ORDER_WAIT : Field := ⟨0x7005C, 0, 32⟩
def AT_SEG_BAD : Field := ⟨0x70060, 0, 32⟩
def AT_EMPTY_ROWS : Field := ⟨0x70064, 0, 32⟩
def AT_NAN_ROWS : Field := ⟨0x70068, 0, 32⟩
def AT_GATHERS : Field := ⟨0x7006C, 0, 32⟩

/-! ### Block CB -/
def CB_STATUS_MODE : Field := ⟨0x80000, 0, 2⟩
def CB_STATUS_HALTED : Field := ⟨0x80000, 2, 1⟩
def CB_STATUS_CAUSE : Field := ⟨0x80000, 8, 4⟩
def CB_STATUS_FILL : Field := ⟨0x80000, 16, 6⟩
def CB_CFG_MODE : Field := ⟨0x80004, 0, 2⟩
def CB_CFG_RS : Field := ⟨0x80004, 2, 2⟩
def CB_CFG_LOG2N : Field := ⟨0x80004, 4, 4⟩
def CB_CFG_BATCH : Field := ⟨0x80004, 8, 5⟩
def CB_CFG_SLIP : Field := ⟨0x80004, 13, 3⟩
def CB_CFG_K : Field := ⟨0x80004, 16, 16⟩
def CB_FIRST : Field := ⟨0x80008, 0, 32⟩
def CB_MOMENTUM : Field := ⟨0x8000C, 0, 32⟩
def CB_ACT_DESC : Field := ⟨0x80010, 0, 16⟩
def CB_UPD_DESC : Field := ⟨0x80014, 0, 16⟩
def CB_FENCE_READY : Field := ⟨0x80018, 0, 12⟩
def CB_FENCE_DONE : Field := ⟨0x80018, 16, 12⟩
def CB_STATE_BASE_LO : Field := ⟨0x8001C, 0, 32⟩
def CB_STATE_BASE_HI : Field := ⟨0x80020, 0, 8⟩
def CB_SLOTS : Field := ⟨0x80024, 0, 5⟩
def CB_EPOCH : Field := ⟨0x80028, 0, 32⟩
def CB_UPDATE : Field := ⟨0x8002C, 0, 32⟩
def CB_WIN_START : Field := ⟨0x80030, 0, 32⟩
def CB_SLIPS : Field := ⟨0x80034, 0, 32⟩
def CB_DISCARDS : Field := ⟨0x80038, 0, 32⟩
def CB_REFUSED : Field := ⟨0x8003C, 0, 32⟩
def CB_CLAMPED : Field := ⟨0x80040, 0, 32⟩
def CB_LOG_IDX_NEXT : Field := ⟨0x80044, 0, 6⟩
def CB_LOG_IDX_TOTAL : Field := ⟨0x80044, 16, 16⟩
def CB_STEP_UNTIL (n : Nat) : Field := ⟨0x80100 + 8 * n, 0, 32⟩
def CB_STEP_ETA (n : Nat) : Field := ⟨0x80104 + 8 * n, 0, 32⟩
def CB_LOG (n : Nat) : Field := ⟨0x80800 + 4 * n, 0, 32⟩
def CB_S_COR (n i : Nat) : Field := ⟨0x81000 + 32 * n + 4 * i, 0, 32⟩
def CB_S_STAT_CLAMPED (n : Nat) : Field := ⟨0x8101C + 32 * n, 0, 7⟩
def CB_S_STAT_OUT (n : Nat) : Field := ⟨0x8101C + 32 * n, 8, 7⟩
def CB_S_STAT_REFUSED (n : Nat) : Field := ⟨0x8101C + 32 * n, 15, 1⟩
def CB_S_STAT_REFUSALS (n : Nat) : Field := ⟨0x8101C + 32 * n, 16, 16⟩
def CB_C_CFG_STREAM (n : Nat) : Field := ⟨0x82000 + 64 * n, 0, 6⟩
def CB_C_CFG_EN (n : Nat) : Field := ⟨0x82000 + 64 * n, 6, 1⟩
def CB_C_TBOUND (n : Nat) : Field := ⟨0x82004 + 64 * n, 0, 20⟩
def CB_C_RBOUND (n : Nat) : Field := ⟨0x82008 + 64 * n, 0, 31⟩
def CB_C_TAUBOUND (n : Nat) : Field := ⟨0x8200C + 64 * n, 0, 24⟩
def CB_C_NOM_T (n i : Nat) : Field := ⟨0x82010 + 64 * n + 4 * i, 0, 32⟩
def CB_C_NOM_Q (n i : Nat) : Field := ⟨0x8201C + 64 * n + 4 * i, 0, 32⟩

/-! ### Block SV -/
def SV_STATUS_RESIDENT : Field := ⟨0x90000, 0, 6⟩
def SV_STATUS_BUSY : Field := ⟨0x90000, 6, 1⟩
def SV_STATUS_CUR : Field := ⟨0x90000, 8, 5⟩
def SV_STATUS_TICKS : Field := ⟨0x90000, 16, 16⟩
def SV_SAT_DESC : Field := ⟨0x90004, 0, 16⟩
def SV_SAT_LAST_VAR : Field := ⟨0x90008, 0, 10⟩
def SV_SAT_LAST_PROBLEM : Field := ⟨0x90008, 16, 5⟩
def SV_STOPS : Field := ⟨0x9000C, 0, 32⟩
def SV_P_CFG_EN (n : Nat) : Field := ⟨0x91000 + 64 * n, 0, 1⟩
def SV_P_CFG_MODE (n : Nat) : Field := ⟨0x91000 + 64 * n, 1, 1⟩
def SV_P_CFG_CARRY (n : Nat) : Field := ⟨0x91000 + 64 * n, 2, 1⟩
def SV_P_CFG_PUB_POSE (n : Nat) : Field := ⟨0x91000 + 64 * n, 3, 1⟩
def SV_P_CFG_PRIO (n : Nat) : Field := ⟨0x91000 + 64 * n, 4, 2⟩
def SV_P_CFG_RS (n : Nat) : Field := ⟨0x91000 + 64 * n, 6, 2⟩
def SV_P_CFG_ITER (n : Nat) : Field := ⟨0x91000 + 64 * n, 8, 7⟩
def SV_P_CFG_RESEED (n : Nat) : Field := ⟨0x91000 + 64 * n, 16, 4⟩
def SV_P_CFG_SAFE_N (n : Nat) : Field := ⟨0x91000 + 64 * n, 20, 4⟩
def SV_P_SHAPE_NB0 (n : Nat) : Field := ⟨0x91004 + 64 * n, 0, 7⟩
def SV_P_SHAPE_NB1 (n : Nat) : Field := ⟨0x91004 + 64 * n, 8, 7⟩
def SV_P_SHAPE_DOF (n : Nat) : Field := ⟨0x91004 + 64 * n, 16, 6⟩
def SV_P_PERIOD (n : Nat) : Field := ⟨0x91008 + 64 * n, 0, 32⟩
def SV_P_PHASE (n : Nat) : Field := ⟨0x9100C + 64 * n, 0, 32⟩
def SV_P_BUDGET (n : Nat) : Field := ⟨0x91010 + 64 * n, 0, 24⟩
def SV_P_WAIT (n : Nat) : Field := ⟨0x91014 + 64 * n, 0, 32⟩
def SV_P_OUT_DESC (n : Nat) : Field := ⟨0x91018 + 64 * n, 0, 16⟩
def SV_P_OUT_DEPTH (n : Nat) : Field := ⟨0x91018 + 64 * n, 16, 12⟩
def SV_P_IN_LO (n : Nat) : Field := ⟨0x9101C + 64 * n, 0, 32⟩
def SV_P_IN_HI (n : Nat) : Field := ⟨0x91020 + 64 * n, 0, 16⟩
def SV_P_WIN (n : Nat) : Field := ⟨0x91024 + 64 * n, 0, 32⟩
def SV_P_DELAY (n : Nat) : Field := ⟨0x91028 + 64 * n, 0, 32⟩
def SV_P_SEL_SEL_STREAM (n : Nat) : Field := ⟨0x9102C + 64 * n, 0, 6⟩
def SV_P_SEL_SEL_BYTE (n : Nat) : Field := ⟨0x9102C + 64 * n, 8, 6⟩
def SV_P_SEL_SEL_BIT (n : Nat) : Field := ⟨0x9102C + 64 * n, 14, 3⟩
def SV_P_SEL_EN (n : Nat) : Field := ⟨0x9102C + 64 * n, 31, 1⟩
def SV_P_STAT_STATE (n : Nat) : Field := ⟨0x91030 + 64 * n, 0, 2⟩
def SV_P_STAT_WARM (n : Nat) : Field := ⟨0x91030 + 64 * n, 2, 1⟩
def SV_P_STAT_TAINT (n : Nat) : Field := ⟨0x91030 + 64 * n, 3, 1⟩
def SV_P_STAT_SAFE (n : Nat) : Field := ⟨0x91030 + 64 * n, 4, 1⟩
def SV_P_STAT_STRUCT (n : Nat) : Field := ⟨0x91030 + 64 * n, 5, 1⟩
def SV_P_COLD_MISMATCH (n : Nat) : Field := ⟨0x91034 + 64 * n, 0, 16⟩
def SV_P_COLD_SEED (n : Nat) : Field := ⟨0x91034 + 64 * n, 16, 16⟩
def SV_P_STOPS_BUDGET (n : Nat) : Field := ⟨0x91038 + 64 * n, 0, 16⟩
def SV_P_STOPS_SHORT (n : Nat) : Field := ⟨0x91038 + 64 * n, 16, 16⟩
def SV_P_AGE (n : Nat) : Field := ⟨0x9103C + 64 * n, 0, 32⟩
def SV_P_HASH0 (n : Nat) : Field := ⟨0x92000 + 16 * n, 0, 32⟩
def SV_P_HASH1 (n : Nat) : Field := ⟨0x92004 + 16 * n, 0, 32⟩
def SV_P_WARM_HASH (n : Nat) : Field := ⟨0x92008 + 16 * n, 0, 32⟩
def SV_P_LAST (n : Nat) : Field := ⟨0x9200C + 16 * n, 0, 24⟩
def SV_Q_PIV_MIN (n : Nat) : Field := ⟨0x98000 + 64 * n, 0, 32⟩
def SV_P_SAT (n : Nat) : Field := ⟨0x98004 + 64 * n, 0, 32⟩
def SV_P_PIVFIX (n : Nat) : Field := ⟨0x98008 + 64 * n, 0, 32⟩
def SV_P_PROG_PRO (n : Nat) : Field := ⟨0x9800C + 64 * n, 0, 5⟩
def SV_P_PROG_ITB (n : Nat) : Field := ⟨0x9800C + 64 * n, 5, 5⟩
def SV_P_PROG_EPI (n : Nat) : Field := ⟨0x9800C + 64 * n, 10, 5⟩
def SV_P_SMAX (n : Nat) : Field := ⟨0x98010 + 64 * n, 0, 16⟩

/-! ### Block CL -/
def CL_STATUS_LISTS : Field := ⟨0xA0000, 0, 12⟩
def CL_STATUS_RUNNING : Field := ⟨0xA0000, 16, 7⟩
def CL_LIST_BASE_LO : Field := ⟨0xA0004, 0, 32⟩
def CL_LIST_BASE_HI : Field := ⟨0xA0008, 0, 8⟩
def CL_LIST_COUNT : Field := ⟨0xA000C, 0, 12⟩
def CL_STATE_BASE_LO : Field := ⟨0xA0010, 0, 32⟩
def CL_STATE_BASE_HI : Field := ⟨0xA0014, 0, 8⟩
def CL_TAKEUPS : Field := ⟨0xA0018, 0, 32⟩
def CL_ERR_LAST_CODE : Field := ⟨0xA001C, 0, 8⟩
def CL_ERR_LAST_LIST : Field := ⟨0xA001C, 16, 12⟩
def CL_ERR_CMD_INDEX : Field := ⟨0xA0020, 0, 13⟩
def CL_ERR_CMD_CTX : Field := ⟨0xA0020, 16, 6⟩
def CL_ERR_COUNT : Field := ⟨0xA0024, 0, 32⟩
def CL_FENCE_STALE : Field := ⟨0xA0028, 0, 32⟩
def CL_SEM_SAT : Field := ⟨0xA002C, 0, 32⟩
def CL_FZERO (n : Nat) : Field := ⟨0xA0400 + 4 * n, 0, 32⟩
def CL_SEM_INIT (n : Nat) : Field := ⟨0xA0800 + 4 * n, 0, 16⟩
def CL_SEM (n : Nat) : Field := ⟨0xA0C00 + 4 * n, 0, 16⟩
def CL_Q_CFG_CTX (n : Nat) : Field := ⟨0xA1000 + 16 * n, 0, 6⟩
def CL_Q_CFG_EN (n : Nat) : Field := ⟨0xA1000 + 16 * n, 6, 1⟩
def CL_Q_STAT_STATE (n : Nat) : Field := ⟨0xA1004 + 16 * n, 0, 2⟩
def CL_Q_STAT_LIST (n : Nat) : Field := ⟨0xA1004 + 16 * n, 4, 12⟩
def CL_Q_STAT_CMD (n : Nat) : Field := ⟨0xA1004 + 16 * n, 16, 13⟩
def CL_Q_WAIT_FENCE (n : Nat) : Field := ⟨0xA1008 + 16 * n, 0, 12⟩
def CL_Q_WAIT_SEM (n : Nat) : Field := ⟨0xA1008 + 16 * n, 12, 1⟩
def CL_Q_RUNS (n : Nat) : Field := ⟨0xA100C + 16 * n, 0, 32⟩
def CL_FENCE_LO (n : Nat) : Field := ⟨0xA4000 + 8 * n, 0, 32⟩
def CL_FENCE_HI (n : Nat) : Field := ⟨0xA4004 + 8 * n, 0, 32⟩

/-! ### Block MJ -/
def MJ_STATUS_DEBT : Field := ⟨0xB0000, 0, 1⟩
def MJ_STATUS_STARVE1 : Field := ⟨0xB0000, 1, 1⟩
def MJ_STATUS_STARVE2 : Field := ⟨0xB0000, 2, 1⟩
def MJ_STATUS_NOROOM : Field := ⟨0xB0000, 4, 12⟩
def MJ_CAP_MW : Field := ⟨0xB0004, 0, 19⟩
def MJ_BASE_MW : Field := ⟨0xB0008, 0, 17⟩
def MJ_SHARE_S0 : Field := ⟨0xB000C, 0, 10⟩
def MJ_SHARE_S1 : Field := ⟨0xB000C, 10, 10⟩
def MJ_SHARE_S2 : Field := ⟨0xB000C, 20, 10⟩
def MJ_WINDOW : Field := ⟨0xB0010, 0, 7⟩
def MJ_C0_SLACK : Field := ⟨0xB0014, 0, 10⟩
def MJ_CFG_FORCE_OP : Field := ⟨0xB0018, 0, 1⟩
def MJ_CFG_BOOST : Field := ⟨0xB0018, 1, 1⟩
def MJ_HEADROOM_C0 : Field := ⟨0xB001C, 0, 8⟩
def MJ_HEADROOM_C1 : Field := ⟨0xB001C, 8, 8⟩
def MJ_HEADROOM_C2 : Field := ⟨0xB001C, 16, 8⟩
def MJ_STARVE : Field := ⟨0xB0020, 0, 16⟩
def MJ_POWER_MW : Field := ⟨0xB0024, 0, 19⟩
def MJ_CAP_REJ : Field := ⟨0xB0028, 0, 32⟩
def MJ_SENSOR_BAD : Field := ⟨0xB002C, 0, 32⟩
def MJ_ZONE_LIMIT (n : Nat) : Field := ⟨0xB0040 + 4 * n, 0, 8⟩
def MJ_ZONE_TEMP (n : Nat) : Field := ⟨0xB0040 + 4 * n, 8, 8⟩
def MJ_C_LEVEL (n : Nat) : Field := ⟨0xB0100 + 32 * n, 0, 32⟩
def MJ_C_CAPACITY (n : Nat) : Field := ⟨0xB0104 + 32 * n, 0, 32⟩
def MJ_C_ADMIT_UJ (n : Nat) : Field := ⟨0xB0108 + 32 * n, 0, 32⟩
def MJ_C_ADMITS (n : Nat) : Field := ⟨0xB010C + 32 * n, 0, 32⟩
def MJ_C_DEFER (n : Nat) : Field := ⟨0xB0110 + 32 * n, 0, 32⟩
def MJ_C_VARIANT (n : Nat) : Field := ⟨0xB0114 + 32 * n, 0, 32⟩
def MJ_C_FORCED (n : Nat) : Field := ⟨0xB0118 + 32 * n, 0, 32⟩
def MJ_C_WAIT_MAX (n : Nat) : Field := ⟨0xB011C + 32 * n, 0, 32⟩
def MJ_P_GRANT_OP (n : Nat) : Field := ⟨0xB0200 + 4 * n, 0, 3⟩
def MJ_P_GRANT_FORCED (n : Nat) : Field := ⟨0xB0200 + 4 * n, 3, 1⟩
def MJ_SENSOR_TEMP (n : Nat) : Field := ⟨0xB0400 + 4 * n, 0, 8⟩
def MJ_SENSOR_ZONE (n : Nat) : Field := ⟨0xB0400 + 4 * n, 8, 4⟩
def MJ_SENSOR_BAD_FLD (n : Nat) : Field := ⟨0xB0400 + 4 * n, 12, 1⟩

/-! ### Block EV -/
def EV_STATUS : Field := ⟨0xC0000, 0, 11⟩
def EV_GLOBAL : Field := ⟨0xC0004, 0, 1⟩
def EV_CFG : Field := ⟨0xC0008, 0, 3⟩
def EV_SYNC : Field := ⟨0xC000C, 0, 16⟩
def EV_SWSET : Field := ⟨0xC0010, 0, 7⟩
def EV_NEST_FULL : Field := ⟨0xC0014, 0, 32⟩
def EV_WAKE_LATCH_LO : Field := ⟨0xC0020, 0, 32⟩
def EV_WAKE_LATCH_HI : Field := ⟨0xC0024, 0, 32⟩
def EV_WAKE_EN_LO : Field := ⟨0xC0028, 0, 32⟩
def EV_WAKE_EN_HI : Field := ⟨0xC002C, 0, 32⟩
def EV_WAKE_EDGE_LO : Field := ⟨0xC0030, 0, 32⟩
def EV_WAKE_EDGE_HI : Field := ⟨0xC0034, 0, 32⟩
def EV_MASK (n : Nat) : Field := ⟨0xC0400 + 4 * n, 0, 32⟩
def EV_PEND (n : Nat) : Field := ⟨0xC0500 + 4 * n, 0, 32⟩
def EV_C_CLAIM_SOURCE (n : Nat) : Field := ⟨0xC0100 + 32 * n, 0, 10⟩
def EV_C_CLAIM_VALID (n : Nat) : Field := ⟨0xC0100 + 32 * n, 10, 1⟩
def EV_C_CLAIM_LATE (n : Nat) : Field := ⟨0xC0100 + 32 * n, 11, 1⟩
def EV_C_CLAIM_COUNT (n : Nat) : Field := ⟨0xC0100 + 32 * n, 16, 8⟩
def EV_C_CLAIM_PRIO (n : Nat) : Field := ⟨0xC0100 + 32 * n, 24, 8⟩
def EV_C_COMPLETE (n : Nat) : Field := ⟨0xC0104 + 32 * n, 0, 10⟩
def EV_C_LEVEL_GROUP (n : Nat) : Field := ⟨0xC0108 + 32 * n, 0, 8⟩
def EV_C_LEVEL_IDLE (n : Nat) : Field := ⟨0xC0108 + 32 * n, 8, 1⟩
def EV_C_LEVEL_DEPTH (n : Nat) : Field := ⟨0xC0108 + 32 * n, 9, 4⟩
def EV_C_DELIVERED (n : Nat) : Field := ⟨0xC010C + 32 * n, 0, 32⟩
def EV_C_DISPLACED (n : Nat) : Field := ⟨0xC0110 + 32 * n, 0, 32⟩
def EV_C_COMPLETE_BAD (n : Nat) : Field := ⟨0xC0114 + 32 * n, 0, 32⟩
def EV_H_CAUSE_SOURCE (n : Nat) : Field := ⟨0xC0200 + 16 * n, 0, 10⟩
def EV_H_CAUSE_VALID (n : Nat) : Field := ⟨0xC0200 + 16 * n, 10, 1⟩
def EV_H_CAUSE_COUNT (n : Nat) : Field := ⟨0xC0200 + 16 * n, 16, 8⟩
def EV_H_CAUSE_PRIO (n : Nat) : Field := ⟨0xC0200 + 16 * n, 24, 8⟩
def EV_H_STAT_ASSERTED (n : Nat) : Field := ⟨0xC0204 + 16 * n, 0, 1⟩
def EV_H_STAT_PENDING (n : Nat) : Field := ⟨0xC0204 + 16 * n, 1, 11⟩
def EV_FW_FENCE_FENCE (n : Nat) : Field := ⟨0xC0800 + 16 * n, 0, 12⟩
def EV_FW_FENCE_EN (n : Nat) : Field := ⟨0xC0800 + 16 * n, 31, 1⟩
def EV_FW_VAL_LO (n : Nat) : Field := ⟨0xC0804 + 16 * n, 0, 32⟩
def EV_FW_VAL_HI (n : Nat) : Field := ⟨0xC0808 + 16 * n, 0, 32⟩
def EV_S_CFG_EN (n : Nat) : Field := ⟨0xC1000 + 8 * n, 0, 1⟩
def EV_S_CFG_MODE (n : Nat) : Field := ⟨0xC1000 + 8 * n, 1, 3⟩
def EV_S_CFG_PRIO (n : Nat) : Field := ⟨0xC1000 + 8 * n, 8, 8⟩
def EV_S_CFG_TARGET (n : Nat) : Field := ⟨0xC1000 + 8 * n, 16, 8⟩
def EV_S_CFG_HOST (n : Nat) : Field := ⟨0xC1000 + 8 * n, 24, 2⟩
def EV_S_COAL_COUNT (n : Nat) : Field := ⟨0xC1004 + 8 * n, 0, 8⟩
def EV_S_COAL_TIME_US (n : Nat) : Field := ⟨0xC1004 + 8 * n, 8, 16⟩
def EV_S_STAT_COUNT (n : Nat) : Field := ⟨0xC3000 + 4 * n, 0, 8⟩
def EV_S_STAT_STATE (n : Nat) : Field := ⟨0xC3000 + 4 * n, 8, 3⟩
def EV_S_STAT_DELIV (n : Nat) : Field := ⟨0xC3000 + 4 * n, 16, 16⟩

/-! ### Block SF -/
def SF_STATUS_FAULT : Field := ⟨0xD0000, 0, 1⟩
def SF_STATUS_SUPERVISING : Field := ⟨0xD0000, 1, 1⟩
def SF_STATUS_HB : Field := ⟨0xD0000, 2, 1⟩
def SF_STATUS_COVER_DEG : Field := ⟨0xD0000, 3, 1⟩
def SF_STATUS_SHADOW_DEG : Field := ⟨0xD0000, 4, 1⟩
def SF_STATUS_FATAL_CODE : Field := ⟨0xD0000, 8, 8⟩
def SF_STATUS_SPARES : Field := ⟨0xD0000, 16, 4⟩
def SF_CFG_SHADOW_EN : Field := ⟨0xD0004, 0, 1⟩
def SF_CFG_GOLD_EN : Field := ⟨0xD0004, 1, 1⟩
def SF_CFG_ST_EN : Field := ⟨0xD0004, 2, 1⟩
def SF_CFG_GOLD_RS : Field := ⟨0xD0004, 4, 2⟩
def SF_CFG_LATE_RUN : Field := ⟨0xD0004, 8, 8⟩
def SF_CFG_MS_RUN : Field := ⟨0xD0004, 16, 8⟩
def SF_ST_PERIOD : Field := ⟨0xD0008, 0, 14⟩
def SF_ST_SLICE : Field := ⟨0xD000C, 0, 6⟩
def SF_CLK_TOL : Field := ⟨0xD0010, 0, 8⟩
def SF_CE_RATE : Field := ⟨0xD0014, 0, 16⟩
def SF_TJ_MAX : Field := ⟨0xD0018, 0, 8⟩
def SF_GOLD_LIST : Field := ⟨0xD001C, 0, 12⟩
def SF_GOLD_CRC : Field := ⟨0xD0020, 0, 32⟩
def SF_GOLD_UJ : Field := ⟨0xD0024, 0, 32⟩
def SF_LOG_IDX_NEXT : Field := ⟨0xD0028, 0, 8⟩
def SF_LOG_IDX_TOTAL : Field := ⟨0xD0028, 16, 16⟩
def SF_STOPS : Field := ⟨0xD002C, 0, 32⟩
def SF_SHADOW_RUNS : Field := ⟨0xD0030, 0, 32⟩
def SF_SHADOW_SKIP : Field := ⟨0xD0034, 0, 32⟩
def SF_SHADOW_MISM : Field := ⟨0xD0038, 0, 32⟩
def SF_GOLD_RUNS : Field := ⟨0xD003C, 0, 32⟩
def SF_GOLD_DEFER : Field := ⟨0xD0040, 0, 32⟩
def SF_GOLD_FORCED : Field := ⟨0xD0044, 0, 32⟩
def SF_GOLD_FAIL : Field := ⟨0xD0048, 0, 32⟩
def SF_ST_FAIL : Field := ⟨0xD004C, 0, 32⟩
def SF_HB_COUNT : Field := ⟨0xD0050, 0, 32⟩
def SF_SPARE_POOL : Field := ⟨0xD0054, 0, 12⟩
def SF_STREAM_DEG_LO : Field := ⟨0xD0058, 0, 32⟩
def SF_STREAM_DEG_HI : Field := ⟨0xD005C, 0, 16⟩
def SF_CLK_BAD : Field := ⟨0xD0060, 0, 32⟩
def SF_SUPPRESSED : Field := ⟨0xD0064, 0, 32⟩
def SF_ST_ZONE_SKIPS (n : Nat) : Field := ⟨0xD0100 + 8 * n, 0, 8⟩
def SF_ST_ZONE_DEGRADED (n : Nat) : Field := ⟨0xD0100 + 8 * n, 8, 1⟩
def SF_ST_ZONE_HEAD (n : Nat) : Field := ⟨0xD0100 + 8 * n, 16, 16⟩
def SF_ST_DONE (n : Nat) : Field := ⟨0xD0104 + 8 * n, 0, 32⟩
def SF_RS_LATE (n : Nat) : Field := ⟨0xD0200 + 16 * n, 0, 32⟩
def SF_RS_LATE_RUN (n : Nat) : Field := ⟨0xD0204 + 16 * n, 0, 8⟩
def SF_RS_LAST_LATE (n : Nat) : Field := ⟨0xD0208 + 16 * n, 0, 32⟩
def SF_EVENT_LOG (n : Nat) : Field := ⟨0xD1000 + 4 * n, 0, 32⟩

/-! ### Block RC -/
def RC_STATUS_CTX_ACTIVE : Field := ⟨0xE0000, 0, 1⟩
def RC_STATUS_PART_ACTIVE : Field := ⟨0xE0000, 1, 1⟩
def RC_STATUS_DEV_NEEDED : Field := ⟨0xE0000, 2, 1⟩
def RC_STATUS_JOB_ABORT : Field := ⟨0xE0000, 3, 1⟩
def RC_STATUS_PART_HELD : Field := ⟨0xE0000, 8, 12⟩
def RC_CFG_PROFILE : Field := ⟨0xE0004, 0, 1⟩
def RC_CFG_PART_EN : Field := ⟨0xE0004, 1, 1⟩
def RC_CFG_JOB_RS : Field := ⟨0xE0004, 2, 2⟩
def RC_CFG_CORE : Field := ⟨0xE0004, 8, 3⟩
def RC_CFG_JOB_GAP : Field := ⟨0xE0004, 16, 8⟩
def RC_HANG_MS : Field := ⟨0xE0008, 0, 7⟩
def RC_CTX_WINDOW : Field := ⟨0xE000C, 0, 13⟩
def RC_PART_WINDOW : Field := ⟨0xE0010, 0, 7⟩
def RC_BACKSTOP_MS : Field := ⟨0xE0014, 0, 7⟩
def RC_CRASH_BASE : Field := ⟨0xE0018, 20, 12⟩
def RC_CRASH_BASE_HI : Field := ⟨0xE001C, 0, 8⟩
def RC_CRASH_IDX_NEXT : Field := ⟨0xE0020, 0, 6⟩
def RC_CRASH_IDX_TOTAL : Field := ⟨0xE0020, 16, 16⟩
def RC_CTX_REQ_CTX : Field := ⟨0xE0024, 0, 6⟩
def RC_CTX_REQ_GO : Field := ⟨0xE0024, 31, 1⟩
def RC_PART_REQ_PART : Field := ⟨0xE0028, 0, 4⟩
def RC_PART_REQ_GO : Field := ⟨0xE0028, 31, 1⟩
def RC_CR_DONE : Field := ⟨0xE002C, 0, 6⟩
def RC_CTX_RESETS : Field := ⟨0xE0030, 0, 32⟩
def RC_PART_RESETS : Field := ⟨0xE0034, 0, 32⟩
def RC_DEV_RESETS : Field := ⟨0xE0038, 0, 32⟩
def RC_HANGS : Field := ⟨0xE003C, 0, 32⟩
def RC_REFUSED : Field := ⟨0xE0040, 0, 32⟩
def RC_ERR_ANSWERS : Field := ⟨0xE0044, 0, 32⟩
def RC_GEN_DROPS : Field := ⟨0xE0048, 0, 32⟩
def RC_MERGED : Field := ⟨0xE004C, 0, 32⟩
def RC_CR_LATE : Field := ⟨0xE0050, 0, 32⟩
def RC_LAST_LEVEL : Field := ⟨0xE0054, 0, 2⟩
def RC_LAST_CAUSE : Field := ⟨0xE0054, 4, 4⟩
def RC_LAST_CTX : Field := ⟨0xE0054, 8, 6⟩
def RC_LAST_PART : Field := ⟨0xE0054, 16, 4⟩
def RC_LAST_SLOT : Field := ⟨0xE0058, 0, 6⟩
def RC_JOB_ABORTS_SENT : Field := ⟨0xE005C, 0, 16⟩
def RC_JOB_ABORTS_RECEIVED : Field := ⟨0xE005C, 16, 16⟩
def RC_BACKSTOPS : Field := ⟨0xE0060, 0, 32⟩
def RC_JOB_RESUME : Field := ⟨0xE0064, 0, 32⟩
def RC_JOB_CTX_LO : Field := ⟨0xE0068, 0, 32⟩
def RC_JOB_CTX_HI : Field := ⟨0xE006C, 0, 32⟩
def RC_CTX_STAT_STATE (n : Nat) : Field := ⟨0xE0100 + 4 * n, 0, 2⟩
def RC_CTX_STAT_RESETS (n : Nat) : Field := ⟨0xE0100 + 4 * n, 8, 8⟩
def RC_PART_GEN_GEN (n : Nat) : Field := ⟨0xE0200 + 4 * n, 0, 8⟩
def RC_PART_GEN_HELD (n : Nat) : Field := ⟨0xE0200 + 4 * n, 8, 1⟩
def RC_PART_GEN_RESETS (n : Nat) : Field := ⟨0xE0200 + 4 * n, 16, 16⟩
def RC_PROGRESS (n : Nat) : Field := ⟨0xE0300 + 4 * n, 0, 32⟩

/-! ### Block BT -/
def BT_STATUS : Field := ⟨0xF0000, 0, 3⟩
def BT_LAST_CAUSE_CAUSE : Field := ⟨0xF0004, 0, 8⟩
def BT_LAST_CAUSE_STEP : Field := ⟨0xF0004, 8, 4⟩
def BT_LAST_CAUSE_DETAIL : Field := ⟨0xF0004, 16, 16⟩
def BT_BOOT_COUNT_COUNT : Field := ⟨0xF0008, 0, 4⟩
def BT_BOOT_COUNT_THRESH : Field := ⟨0xF0008, 8, 3⟩
def BT_BOOT_COUNT_TOTAL : Field := ⟨0xF0008, 16, 16⟩
def BT_CAUSE_HIST0 : Field := ⟨0xF000C, 0, 32⟩
def BT_CAUSE_HIST1 : Field := ⟨0xF0010, 0, 32⟩
def BT_OTP_CFG_THRESH : Field := ⟨0xF0014, 0, 3⟩
def BT_OTP_CFG_DEBUG_CLOSED : Field := ⟨0xF0014, 3, 1⟩
def BT_OTP_CFG_WDOG : Field := ⟨0xF0014, 4, 4⟩
def BT_OTP_CFG_SVN : Field := ⟨0xF0014, 8, 6⟩
def BT_IMG_SVN_SVN : Field := ⟨0xF0018, 0, 6⟩
def BT_IMG_SVN_MIN_COLS : Field := ⟨0xF0018, 8, 4⟩
def BT_BOOT_MS : Field := ⟨0xF001C, 0, 16⟩
def BT_LOCK_VIOL : Field := ⟨0xF0020, 0, 32⟩
def BT_MIN_CMD_OP : Field := ⟨0xF0024, 0, 4⟩
def BT_MIN_CMD_KEY : Field := ⟨0xF0024, 16, 16⟩
def BT_MIN_STAT_BUSY : Field := ⟨0xF0028, 0, 1⟩
def BT_MIN_STAT_ERR : Field := ⟨0xF0028, 1, 1⟩
def BT_MIN_STAT_LAST_OP : Field := ⟨0xF0028, 4, 4⟩
def BT_MIN_STAT_REJECTED : Field := ⟨0xF0028, 16, 16⟩
def BT_NVM_ADDR : Field := ⟨0xF002C, 0, 29⟩
def BT_CHECK_OFS : Field := ⟨0xF0030, 0, 16⟩
def BT_IMG_DIGEST (n : Nat) : Field := ⟨0xF0040 + 4 * n, 0, 32⟩
def BT_ATT_NONCE (n : Nat) : Field := ⟨0xF0060 + 4 * n, 0, 32⟩
def BT_ATT_STAT_BUSY : Field := ⟨0xF0070, 0, 1⟩
def BT_ATT_STAT_DONE : Field := ⟨0xF0070, 1, 1⟩
def BT_ATT_STAT_REJ : Field := ⟨0xF0070, 8, 8⟩
def BT_ATT_STAT_COUNT : Field := ⟨0xF0070, 16, 16⟩
def BT_ID_PUB (n : Nat) : Field := ⟨0xF0080 + 4 * n, 0, 32⟩
def BT_CERT_LEN : Field := ⟨0xF00C0, 0, 11⟩
def BT_UID_LO : Field := ⟨0xF00C4, 0, 32⟩
def BT_UID_HI : Field := ⟨0xF00C8, 0, 32⟩
def BT_NVM_BUF (n : Nat) : Field := ⟨0xF0100 + 4 * n, 0, 32⟩
def BT_ATT_REPORT (n : Nat) : Field := ⟨0xF0200 + 4 * n, 0, 32⟩
def BT_CERT (n : Nat) : Field := ⟨0xF0400 + 4 * n, 0, 32⟩
def BT_NVM_RING (n : Nat) : Field := ⟨0xF0800 + 4 * n, 0, 32⟩
def BT_NVM_VR_IDX_NEXT : Field := ⟨0xF0C00, 0, 6⟩
def BT_NVM_VR_IDX_TOTAL : Field := ⟨0xF0C00, 16, 16⟩

/-! ### Block PW -/
def PW_STATUS_STATE : Field := ⟨0x100000, 0, 3⟩
def PW_STATUS_REF_LOST : Field := ⟨0x100000, 3, 1⟩
def PW_STATUS_WAKE_SRC : Field := ⟨0x100000, 8, 8⟩
def PW_STATUS_COLD_WAKE : Field := ⟨0x100000, 16, 1⟩
def PW_PARK_REQ_GO : Field := ⟨0x100004, 0, 1⟩
def PW_PARK_REQ_RETAIN : Field := ⟨0x100004, 1, 1⟩
def PW_PARK_REQ_KEY : Field := ⟨0x100004, 16, 16⟩
def PW_PARK_STAT_MODE : Field := ⟨0x100008, 0, 1⟩
def PW_PARK_STAT_CODE : Field := ⟨0x100008, 1, 3⟩
def PW_PARK_STAT_COUNT : Field := ⟨0x100008, 16, 16⟩
def PW_DRAIN : Field := ⟨0x10000C, 0, 10⟩
def PW_DOM_ON_LO : Field := ⟨0x100010, 0, 32⟩
def PW_DOM_ON_HI : Field := ⟨0x100014, 0, 24⟩
def PW_DOM_EN : Field := ⟨0x100018, 0, 8⟩
def PW_PARKED_NS_LO : Field := ⟨0x10001C, 0, 32⟩
def PW_PARKED_NS_HI : Field := ⟨0x100020, 0, 32⟩
def PW_PLL_STAT_LOCK : Field := ⟨0x100024, 0, 6⟩
def PW_PLL_STAT_LOSSES : Field := ⟨0x100024, 16, 16⟩
def PW_ALARM_LO (n : Nat) : Field := ⟨0x100040 + 16 * n, 0, 32⟩
def PW_ALARM_HI (n : Nat) : Field := ⟨0x100044 + 16 * n, 0, 32⟩
def PW_ALARM_STAT_ARMED (n : Nat) : Field := ⟨0x100048 + 16 * n, 0, 1⟩
def PW_ALARM_STAT_FIRED (n : Nat) : Field := ⟨0x100048 + 16 * n, 1, 1⟩
def PW_ALARM_STAT_SKIPPED (n : Nat) : Field := ⟨0x100048 + 16 * n, 2, 1⟩
def PW_CMP_CFG_THRESH (n : Nat) : Field := ⟨0x100080 + 8 * n, 0, 10⟩
def PW_CMP_CFG_HYST (n : Nat) : Field := ⟨0x100080 + 8 * n, 10, 5⟩
def PW_CMP_CFG_EN (n : Nat) : Field := ⟨0x100080 + 8 * n, 15, 1⟩
def PW_CMP_CFG_FILT (n : Nat) : Field := ⟨0x100080 + 8 * n, 16, 8⟩
def PW_CMP_CFG_POL (n : Nat) : Field := ⟨0x100080 + 8 * n, 24, 1⟩
def PW_CMP_STAT_LEVEL (n : Nat) : Field := ⟨0x100084 + 8 * n, 0, 1⟩
def PW_CMP_STAT_CROSSINGS (n : Nat) : Field := ⟨0x100084 + 8 * n, 16, 16⟩

/-! ### Block HP -/
def HP_STATUS_LAST_STATUS : Field := ⟨0x110000, 0, 8⟩
def HP_STATUS_LAST_OPCODE : Field := ⟨0x110000, 8, 8⟩
def HP_WIN_BASE : Field := ⟨0x110004, 0, 9⟩
def HP_TXN_COUNT : Field := ⟨0x110008, 0, 32⟩
def HP_CRC_ERR : Field := ⟨0x11000C, 0, 32⟩
def HP_ADDR_ERR : Field := ⟨0x110010, 0, 32⟩
def HP_DRAM_UE : Field := ⟨0x110014, 0, 32⟩
def HP_VR_IDX_NEXT : Field := ⟨0x110018, 0, 6⟩
def HP_VR_IDX_TOTAL : Field := ⟨0x110018, 16, 16⟩
def HP_CFG : Field := ⟨0x110020, 0, 5⟩
def HP_RESULT_RELEASE (n : Nat) : Field := ⟨0x110100 + 32 * n, 0, 32⟩
def HP_RING_CFG_SLOTS (n : Nat) : Field := ⟨0x110104 + 32 * n, 0, 13⟩
def HP_RING_CFG_SLOT_4K (n : Nat) : Field := ⟨0x110104 + 32 * n, 16, 7⟩
def HP_RING_DESC (n : Nat) : Field := ⟨0x110108 + 32 * n, 0, 16⟩
def HP_RING_LOST (n : Nat) : Field := ⟨0x11010C + 32 * n, 0, 32⟩
def HP_RING_NEWEST (n : Nat) : Field := ⟨0x110110 + 32 * n, 0, 32⟩
def HP_RING_UNREL (n : Nat) : Field := ⟨0x110114 + 32 * n, 0, 13⟩
def HP_STALE (n : Nat) : Field := ⟨0x110118 + 32 * n, 0, 32⟩
def HP_VR (n : Nat) : Field := ⟨0x111000 + 4 * n, 0, 32⟩

/-! ### Block LK -/
def LK_JOB_CFG_SIZE : Field := ⟨0x120000, 0, 3⟩
def LK_JOB_CFG_RANK : Field := ⟨0x120000, 3, 3⟩
def LK_JOB_CFG_TOPO : Field := ⟨0x120000, 6, 1⟩
def LK_JOB_CFG_STANDBY_EN : Field := ⟨0x120000, 7, 1⟩
def LK_JOB_CFG_X : Field := ⟨0x120000, 8, 2⟩
def LK_START_MS : Field := ⟨0x120004, 0, 14⟩
def LK_CREDITS_DATA : Field := ⟨0x120008, 0, 8⟩
def LK_CREDITS_COLL : Field := ⟨0x120008, 8, 8⟩
def LK_CREDITS_ABORT : Field := ⟨0x120008, 16, 8⟩
def LK_TAKEOVER_RANK : Field := ⟨0x12000C, 0, 3⟩
def LK_TAKEOVER_DONE : Field := ⟨0x12000C, 3, 1⟩
def LK_TAKEOVER_SEQ : Field := ⟨0x120010, 0, 32⟩
def LK_L_STAT_STATE (n : Nat) : Field := ⟨0x120100 + 64 * n, 0, 2⟩
def LK_L_STAT_RETRAINS (n : Nat) : Field := ⟨0x120100 + 64 * n, 16, 16⟩
def LK_L_CRC_ERR (n : Nat) : Field := ⟨0x120104 + 64 * n, 0, 32⟩
def LK_L_RETX (n : Nat) : Field := ⟨0x120108 + 64 * n, 0, 32⟩
def LK_L_OOS (n : Nat) : Field := ⟨0x12010C + 64 * n, 0, 32⟩
def LK_L_STALL (n : Nat) : Field := ⟨0x120110 + 64 * n, 0, 32⟩
def LK_VR_IDX_NEXT (n : Nat) : Field := ⟨0x120114 + 64 * n, 0, 6⟩
def LK_VR_IDX_TOTAL (n : Nat) : Field := ⟨0x120114 + 64 * n, 16, 16⟩
def LK_VR (n i : Nat) : Field := ⟨0x121000 + 1024 * n + 4 * i, 0, 32⟩

/-! ### Block EN -/
def EN_STATUS : Field := ⟨0x130000, 0, 4⟩
def EN_M_CFG_EN (n : Nat) : Field := ⟨0x130100 + 64 * n, 0, 1⟩
def EN_M_CFG_ROLE_IN (n : Nat) : Field := ⟨0x130100 + 64 * n, 1, 1⟩
def EN_M_CFG_ROLE_EG (n : Nat) : Field := ⟨0x130100 + 64 * n, 2, 1⟩
def EN_M_CFG_TAG (n : Nat) : Field := ⟨0x130100 + 64 * n, 3, 1⟩
def EN_M_CFG_PCP (n : Nat) : Field := ⟨0x130100 + 64 * n, 4, 3⟩
def EN_M_CFG_VID (n : Nat) : Field := ⟨0x130100 + 64 * n, 8, 12⟩
def EN_M_MAC_LO (n : Nat) : Field := ⟨0x130104 + 64 * n, 0, 32⟩
def EN_M_MAC_HI (n : Nat) : Field := ⟨0x130108 + 64 * n, 0, 16⟩
def EN_M_IP (n : Nat) : Field := ⟨0x13010C + 64 * n, 0, 32⟩
def EN_M_DMAC_LO (n : Nat) : Field := ⟨0x130110 + 64 * n, 0, 32⟩
def EN_M_DMAC_HI (n : Nat) : Field := ⟨0x130114 + 64 * n, 0, 16⟩
def EN_M_TS_LAT_RX_PS (n : Nat) : Field := ⟨0x130118 + 64 * n, 0, 16⟩
def EN_M_TS_LAT_TX_PS (n : Nat) : Field := ⟨0x130118 + 64 * n, 16, 16⟩
def EN_M_GCL (n : Nat) : Field := ⟨0x13011C + 64 * n, 0, 7⟩
def EN_M_CYCLE (n : Nat) : Field := ⟨0x130120 + 64 * n, 0, 30⟩
def EN_M_BASE_LO (n : Nat) : Field := ⟨0x130124 + 64 * n, 0, 32⟩
def EN_M_BASE_HI (n : Nat) : Field := ⟨0x130128 + 64 * n, 0, 32⟩
def EN_M_CBS (n : Nat) : Field := ⟨0x13012C + 64 * n, 0, 14⟩
def EN_M_RX_DROP (n : Nat) : Field := ⟨0x130130 + 64 * n, 0, 32⟩
def EN_M_FCS_ERR (n : Nat) : Field := ⟨0x130134 + 64 * n, 0, 32⟩
def EN_M_TX_FRAMES (n : Nat) : Field := ⟨0x130138 + 64 * n, 0, 32⟩
def EN_M_STALL (n : Nat) : Field := ⟨0x13013C + 64 * n, 0, 32⟩
def EN_GCL (n i : Nat) : Field := ⟨0x131000 + 512 * n + 4 * i, 0, 32⟩

/-! ### Block IO -/
def IO_CAP_CFG_EDGE (n : Nat) : Field := ⟨0x140000 + 32 * n, 0, 2⟩
def IO_CAP_CFG_FILT (n : Nat) : Field := ⟨0x140000 + 32 * n, 8, 8⟩
def IO_CAP_STAT_FILL (n : Nat) : Field := ⟨0x140004 + 32 * n, 0, 7⟩
def IO_CAP_STAT_OVR (n : Nat) : Field := ⟨0x140004 + 32 * n, 7, 1⟩
def IO_CAP_STAT_DROPPED (n : Nat) : Field := ⟨0x140004 + 32 * n, 16, 16⟩
def IO_CAP_POP_LO (n : Nat) : Field := ⟨0x140008 + 32 * n, 0, 32⟩
def IO_CAP_HI (n : Nat) : Field := ⟨0x14000C + 32 * n, 0, 32⟩
def IO_CAP_EXT_QNS (n : Nat) : Field := ⟨0x140010 + 32 * n, 0, 2⟩
def IO_CAP_EXT_RISE (n : Nat) : Field := ⟨0x140010 + 32 * n, 2, 1⟩
def IO_CAP_EXT_VALID (n : Nat) : Field := ⟨0x140010 + 32 * n, 3, 1⟩
def IO_TRG_CFG_EN (n : Nat) : Field := ⟨0x140200 + 32 * n, 0, 1⟩
def IO_TRG_CFG_POL (n : Nat) : Field := ⟨0x140200 + 32 * n, 1, 1⟩
def IO_TRG_CFG_PERIODIC (n : Nat) : Field := ⟨0x140200 + 32 * n, 2, 1⟩
def IO_TRG_CFG_SRC (n : Nat) : Field := ⟨0x140200 + 32 * n, 3, 1⟩
def IO_TRG_CFG_PROBLEM (n : Nat) : Field := ⟨0x140200 + 32 * n, 4, 5⟩
def IO_TRG_WIDTH (n : Nat) : Field := ⟨0x140204 + 32 * n, 0, 24⟩
def IO_TRG_PERIOD (n : Nat) : Field := ⟨0x140208 + 32 * n, 0, 32⟩
def IO_TRG_PHASE (n : Nat) : Field := ⟨0x14020C + 32 * n, 0, 32⟩
def IO_TRG_TIME_LO (n : Nat) : Field := ⟨0x140210 + 32 * n, 0, 32⟩
def IO_TRG_TIME_HI (n : Nat) : Field := ⟨0x140214 + 32 * n, 0, 32⟩
def IO_TRG_STAT_QUEUED (n : Nat) : Field := ⟨0x140218 + 32 * n, 0, 3⟩
def IO_TRG_STAT_SKIPPED (n : Nat) : Field := ⟨0x140218 + 32 * n, 3, 1⟩
def IO_TRG_STAT_QFULL (n : Nat) : Field := ⟨0x140218 + 32 * n, 4, 12⟩
def IO_TRG_STAT_LATE (n : Nat) : Field := ⟨0x140218 + 32 * n, 16, 8⟩
def IO_TRG_STAT_OVERLAP (n : Nat) : Field := ⟨0x140218 + 32 * n, 24, 8⟩
def IO_PWM_CFG_EN (n : Nat) : Field := ⟨0x140400 + 16 * n, 0, 1⟩
def IO_PWM_CFG_PAIR (n : Nat) : Field := ⟨0x140400 + 16 * n, 1, 1⟩
def IO_PWM_CFG_SAFE (n : Nat) : Field := ⟨0x140400 + 16 * n, 2, 1⟩
def IO_PWM_CFG_POL (n : Nat) : Field := ⟨0x140400 + 16 * n, 3, 1⟩
def IO_PWM_CFG_PROBLEM (n : Nat) : Field := ⟨0x140400 + 16 * n, 4, 5⟩
def IO_PWM_CFG_DEAD (n : Nat) : Field := ⟨0x140400 + 16 * n, 16, 8⟩
def IO_PWM_PERIOD (n : Nat) : Field := ⟨0x140404 + 16 * n, 0, 16⟩
def IO_PWM_DUTY (n : Nat) : Field := ⟨0x140408 + 16 * n, 0, 16⟩
def IO_PWM_STAT_SAFE (n : Nat) : Field := ⟨0x14040C + 16 * n, 0, 1⟩
def IO_PWM_STAT_LATE (n : Nat) : Field := ⟨0x14040C + 16 * n, 16, 16⟩
def IO_ENC_CFG_FILT (n : Nat) : Field := ⟨0x140600 + 16 * n, 0, 8⟩
def IO_ENC_CFG_INVERT (n : Nat) : Field := ⟨0x140600 + 16 * n, 8, 1⟩
def IO_ENC_COUNT (n : Nat) : Field := ⟨0x140604 + 16 * n, 0, 32⟩
def IO_ENC_ILLEGAL (n : Nat) : Field := ⟨0x140608 + 16 * n, 0, 32⟩
def IO_CAN_CTRL_EN (n : Nat) : Field := ⟨0x140800 + 32 * n, 0, 1⟩
def IO_CAN_CTRL_FD_EN (n : Nat) : Field := ⟨0x140800 + 32 * n, 1, 1⟩
def IO_CAN_CTRL_LISTEN (n : Nat) : Field := ⟨0x140800 + 32 * n, 2, 1⟩
def IO_CAN_CTRL_TDC_EN (n : Nat) : Field := ⟨0x140800 + 32 * n, 3, 1⟩
def IO_CAN_CTRL_FILT (n : Nat) : Field := ⟨0x140800 + 32 * n, 8, 8⟩
def IO_CAN_NBT_BRP (n : Nat) : Field := ⟨0x140804 + 32 * n, 0, 9⟩
def IO_CAN_NBT_TSEG1 (n : Nat) : Field := ⟨0x140804 + 32 * n, 9, 8⟩
def IO_CAN_NBT_TSEG2 (n : Nat) : Field := ⟨0x140804 + 32 * n, 17, 7⟩
def IO_CAN_NBT_SJW (n : Nat) : Field := ⟨0x140804 + 32 * n, 24, 7⟩
def IO_CAN_DBT_BRP (n : Nat) : Field := ⟨0x140808 + 32 * n, 0, 5⟩
def IO_CAN_DBT_TSEG1 (n : Nat) : Field := ⟨0x140808 + 32 * n, 5, 5⟩
def IO_CAN_DBT_TSEG2 (n : Nat) : Field := ⟨0x140808 + 32 * n, 10, 4⟩
def IO_CAN_DBT_SJW (n : Nat) : Field := ⟨0x140808 + 32 * n, 14, 4⟩
def IO_CAN_DBT_TDCO (n : Nat) : Field := ⟨0x140808 + 32 * n, 18, 7⟩
def IO_CAN_STAT_TEC (n : Nat) : Field := ⟨0x14080C + 32 * n, 0, 8⟩
def IO_CAN_STAT_REC (n : Nat) : Field := ⟨0x14080C + 32 * n, 8, 8⟩
def IO_CAN_STAT_STATE (n : Nat) : Field := ⟨0x14080C + 32 * n, 16, 2⟩
def IO_CAN_UNMATCHED (n : Nat) : Field := ⟨0x140810 + 32 * n, 0, 32⟩

end Sys2Proof.F

namespace Sys2Proof.Machine

/-- Registers of the GLB block, part 1. -/
def rowsGLB0 : List RegRow := [
  ⟨0x0, 4, 1, 4, 1, [⟨16, 16, .ro, 0x988⟩, ⟨8, 8, .ro, 17⟩]⟩,
  ⟨0x4, 4, 1, 4, 1, [⟨0, 1, .ro, 0⟩, ⟨1, 1, .ro, 0⟩, ⟨2, 1, .ro, 0⟩, ⟨3, 1, .ro, 0⟩, ⟨4, 1, .ro, 0⟩, ⟨8, 4, .ro, 0⟩, ⟨12, 4, .ro, 0⟩, ⟨16, 3, .ro, 0⟩, ⟨19, 3, .ro, 0⟩, ⟨22, 1, .ro, 0⟩]⟩,
  ⟨0x8, 4, 1, 4, 1, [⟨0, 12, .ro, 0⟩]⟩,
  ⟨0xC, 4, 1, 4, 1, [⟨0, 8, .ro, 0⟩]⟩,
  ⟨0x10, 4, 1, 4, 1, [⟨0, 32, .lk, 0⟩]⟩,
  ⟨0x14, 4, 1, 4, 1, [⟨0, 16, .lk, 0⟩]⟩]

/-- Registers of the TB block, part 1. -/
def rowsTB0 : List RegRow := [
  ⟨0x10000, 4, 1, 4, 1, [⟨0, 32, .ro, 0⟩]⟩,
  ⟨0x10004, 4, 1, 4, 1, [⟨0, 32, .ro, 0⟩]⟩,
  ⟨0x10008, 4, 1, 4, 1, [⟨0, 16, .ro, 0⟩]⟩,
  ⟨0x1000C, 4, 1, 4, 1, [⟨0, 32, .ro, 0⟩]⟩,
  ⟨0x10010, 4, 1, 4, 1, [⟨0, 32, .ro, 0⟩]⟩,
  ⟨0x10014, 4, 1, 4, 1, [⟨0, 4, .ro, 4⟩, ⟨4, 1, .ro, 0⟩, ⟨5, 1, .ro, 0⟩, ⟨6, 1, .ro, 0⟩, ⟨8, 4, .ro, 0⟩]⟩,
  ⟨0x10018, 4, 1, 4, 1, [⟨0, 32, .ro, 0⟩]⟩,
  ⟨0x1001C, 4, 1, 4, 1, [⟨0, 32, .ro, 0⟩]⟩,
  ⟨0x10020, 4, 1, 4, 1, [⟨0, 16, .ro, 0⟩]⟩,
  ⟨0x10024, 4, 1, 4, 1, [⟨0, 32, .ro, 0⟩]⟩,
  ⟨0x10028, 4, 1, 4, 1, [⟨0, 32, .ro, 0⟩]⟩,
  ⟨0x1002C, 4, 1, 4, 1, [⟨0, 32, .ro, 0⟩]⟩,
  ⟨0x10030, 4, 1, 4, 1, [⟨0, 32, .rw, 0⟩]⟩,
  ⟨0x10034, 4, 1, 4, 1, [⟨0, 1, .wo, 0⟩]⟩,
  ⟨0x10038, 4, 1, 4, 1, [⟨0, 2, .ro, 0⟩, ⟨16, 16, .ro, 0⟩]⟩,
  ⟨0x1003C, 4, 1, 4, 1, [⟨0, 32, .rw, 0⟩]⟩,
  ⟨0x10040, 4, 1, 4, 1, [⟨0, 32, .rw, 0⟩]⟩,
  ⟨0x10044, 4, 1, 4, 1, [⟨0, 1, .ro, 0⟩, ⟨1, 1, .w1c, 0⟩, ⟨16, 16, .ro, 0⟩]⟩,
  ⟨0x10048, 4, 1, 4, 1, [⟨0, 32, .ro, 0⟩]⟩,
  ⟨0x1004C, 4, 1, 4, 1, [⟨0, 32, .ro, 0⟩]⟩,
  ⟨0x10050, 4, 1, 4, 1, [⟨0, 16, .hw, 0⟩, ⟨16, 16, .hw, 0⟩]⟩,
  ⟨0x10054, 4, 1, 4, 1, [⟨0, 2, .lk, 0⟩, ⟨2, 1, .lk, 1⟩, ⟨8, 8, .lk, 10⟩, ⟨16, 7, .lk, 0⟩, ⟨24, 2, .lk, 2⟩, ⟨26, 1, .lk, 0⟩, ⟨27, 2, .lk, 3⟩]⟩,
  ⟨0x10058, 4, 1, 4, 1, [⟨0, 24, .lk, 0x3E8⟩]⟩,
  ⟨0x1005C, 4, 1, 4, 1, [⟨0, 16, .lk, 100⟩]⟩]
/-- Registers of the TB block, part 2. -/
def rowsTB1 : List RegRow := [
  ⟨0x10060, 4, 1, 4, 1, [⟨0, 20, .lk, 200⟩]⟩,
  ⟨0x10064, 4, 1, 4, 1, [⟨0, 16, .lk, 0x177⟩]⟩,
  ⟨0x10068, 4, 1, 4, 1, [⟨0, 16, .lk, 50⟩]⟩,
  ⟨0x1006C, 4, 1, 4, 1, [⟨0, 24, .lk, 0x2710⟩]⟩,
  ⟨0x10070, 4, 1, 4, 1, [⟨0, 21, .lk, 0x186A0⟩]⟩,
  ⟨0x10074, 4, 1, 4, 1, [⟨0, 12, .lk, 0⟩, ⟨16, 16, .lk, 0x7D0⟩]⟩,
  ⟨0x10078, 4, 1, 4, 1, [⟨0, 16, .rw, 0⟩, ⟨16, 1, .rw, 0⟩, ⟨17, 1, .rw, 0⟩, ⟨18, 1, .rw, 0⟩]⟩,
  ⟨0x1007C, 4, 1, 4, 1, [⟨0, 32, .ro, 0⟩]⟩,
  ⟨0x10080, 4, 1, 4, 1, [⟨0, 3, .ro, 0⟩, ⟨16, 16, .ro, 0⟩]⟩,
  ⟨0x10088, 4, 1, 4, 1, [⟨0, 32, .ro, 0⟩]⟩,
  ⟨0x1008C, 4, 1, 4, 1, [⟨0, 16, .ro, 0⟩]⟩,
  ⟨0x10090, 4, 1, 4, 1, [⟨0, 32, .ro, 0⟩]⟩,
  ⟨0x10094, 4, 1, 4, 1, [⟨0, 16, .ro, 0⟩]⟩,
  ⟨0x10100, 4, 64, 4, 1, [⟨0, 32, .ro, 0⟩]⟩,
  ⟨0x11000, 32, 48, 4, 1, [⟨0, 32, .ro, 0⟩]⟩,
  ⟨0x11004, 32, 48, 4, 1, [⟨0, 32, .ro, 0⟩]⟩,
  ⟨0x11008, 32, 48, 4, 1, [⟨0, 32, .ro, 0⟩]⟩,
  ⟨0x1100C, 32, 48, 4, 1, [⟨0, 32, .ro, 0⟩]⟩,
  ⟨0x11010, 32, 48, 4, 1, [⟨0, 32, .ro, 0⟩]⟩,
  ⟨0x11014, 32, 48, 4, 1, [⟨0, 32, .ro, 0⟩]⟩,
  ⟨0x11018, 32, 48, 4, 1, [⟨0, 1, .ro, 0⟩, ⟨1, 1, .ro, 0⟩, ⟨2, 1, .ro, 0⟩, ⟨3, 1, .ro, 0⟩, ⟨4, 5, .ro, 0⟩, ⟨16, 16, .ro, 0⟩]⟩,
  ⟨0x12000, 32, 48, 4, 1, [⟨0, 2, .lk, 0⟩, ⟨4, 4, .lk, 0⟩, ⟨8, 1, .lk, 0⟩]⟩,
  ⟨0x12004, 32, 48, 4, 1, [⟨0, 32, .lk, 0⟩]⟩,
  ⟨0x12008, 32, 48, 4, 1, [⟨0, 32, .lk, 0⟩]⟩]
/-- Registers of the TB block, part 3. -/
def rowsTB2 : List RegRow := [
  ⟨0x1200C, 32, 48, 4, 1, [⟨0, 32, .lk, 0⟩]⟩,
  ⟨0x12010, 32, 48, 4, 1, [⟨0, 32, .lk, 0x3E8⟩]⟩,
  ⟨0x12014, 32, 48, 4, 1, [⟨0, 32, .lk, 0⟩]⟩,
  ⟨0x12018, 32, 48, 4, 1, [⟨0, 4, .lk, 2⟩, ⟨8, 4, .lk, 4⟩]⟩,
  ⟨0x1201C, 32, 48, 4, 1, [⟨0, 32, .lk, 0⟩]⟩]

/-- Registers of the IG block, part 1. -/
def rowsIG0 : List RegRow := [
  ⟨0x20000, 4, 1, 4, 1, [⟨0, 6, .ro, 0⟩, ⟨6, 1, .ro, 0⟩, ⟨7, 1, .ro, 0⟩]⟩,
  ⟨0x20004, 4, 1, 4, 1, [⟨0, 15, .ro, 0⟩]⟩,
  ⟨0x20010, 4, 1, 4, 1, [⟨0, 32, .ro, 0⟩]⟩,
  ⟨0x20014, 4, 1, 4, 1, [⟨0, 16, .ro, 0⟩]⟩,
  ⟨0x20018, 4, 1, 4, 1, [⟨0, 32, .ro, 0⟩]⟩,
  ⟨0x2001C, 4, 1, 4, 1, [⟨0, 16, .ro, 0⟩]⟩,
  ⟨0x20100, 4, 19, 4, 1, [⟨0, 6, .ro, 0⟩, ⟨16, 16, .ro, 0⟩]⟩,
  ⟨0x20200, 16, 8, 4, 1, [⟨0, 1, .lk, 0⟩, ⟨1, 2, .lk, 0⟩, ⟨8, 9, .lk, 0⟩]⟩,
  ⟨0x20204, 16, 8, 4, 1, [⟨0, 16, .ro, 0⟩, ⟨16, 16, .ro, 0⟩]⟩,
  ⟨0x21000, 64, 48, 4, 1, [⟨0, 3, .lk, 0⟩, ⟨3, 1, .lk, 0⟩, ⟨4, 4, .lk, 0⟩, ⟨8, 4, .lk, 0⟩, ⟨12, 6, .lk, 0⟩]⟩,
  ⟨0x21004, 64, 48, 4, 1, [⟨0, 14, .lk, 0⟩]⟩,
  ⟨0x21008, 64, 48, 4, 1, [⟨0, 15, .lk, 0⟩]⟩,
  ⟨0x2100C, 64, 48, 4, 1, [⟨0, 24, .lk, 0⟩]⟩,
  ⟨0x21010, 64, 48, 4, 1, [⟨0, 17, .lk, 0x2710⟩]⟩,
  ⟨0x21014, 64, 48, 4, 1, [⟨0, 16, .lk, 1⟩, ⟨16, 16, .lk, 0⟩]⟩,
  ⟨0x21018, 64, 48, 4, 1, [⟨0, 4, .lk, 3⟩, ⟨4, 4, .lk, 4⟩, ⟨8, 1, .lk, 0⟩, ⟨9, 1, .lk, 1⟩, ⟨16, 8, .lk, 61⟩, ⟨24, 8, .lk, 17⟩]⟩,
  ⟨0x21020, 64, 48, 4, 1, [⟨0, 32, .lk, 0⟩]⟩,
  ⟨0x21024, 64, 48, 4, 1, [⟨0, 32, .lk, 0⟩]⟩,
  ⟨0x21028, 64, 48, 4, 1, [⟨0, 32, .lk, 0⟩]⟩,
  ⟨0x22000, 64, 48, 4, 1, [⟨0, 1, .ro, 0⟩, ⟨1, 1, .w1c, 0⟩, ⟨2, 1, .ro, 0⟩, ⟨3, 1, .ro, 0⟩, ⟨4, 1, .ro, 0⟩, ⟨5, 1, .ro, 0⟩, ⟨8, 19, .ro, 0⟩]⟩,
  ⟨0x22004, 64, 48, 4, 1, [⟨0, 32, .ro, 0⟩]⟩,
  ⟨0x22008, 64, 48, 4, 1, [⟨0, 32, .ro, 0⟩]⟩,
  ⟨0x2200C, 64, 48, 4, 1, [⟨0, 32, .ro, 0⟩]⟩,
  ⟨0x22010, 64, 48, 4, 1, [⟨0, 32, .ro, 0⟩]⟩]
/-- Registers of the IG block, part 2. -/
def rowsIG1 : List RegRow := [
  ⟨0x22014, 64, 48, 4, 1, [⟨0, 16, .ro, 0⟩, ⟨16, 16, .ro, 0⟩]⟩,
  ⟨0x22018, 64, 48, 4, 1, [⟨0, 32, .ro, 0⟩]⟩,
  ⟨0x2201C, 64, 48, 4, 1, [⟨0, 32, .ro, 0⟩]⟩,
  ⟨0x22020, 64, 48, 4, 1, [⟨0, 32, .ro, 0⟩]⟩,
  ⟨0x22024, 64, 48, 4, 1, [⟨0, 32, .ro, 0⟩]⟩,
  ⟨0x22028, 64, 48, 4, 1, [⟨0, 32, .ro, 0⟩]⟩,
  ⟨0x24000, 512, 48, 4, 128, [⟨0, 32, .lk, 0⟩]⟩,
  ⟨0x2A000, 1024, 19, 4, 256, [⟨0, 32, .ro, 0⟩]⟩]

/-- Registers of the FU block, part 1. -/
def rowsFU0 : List RegRow := [
  ⟨0x30400, 4, 1, 4, 1, [⟨0, 6, .ro, 0⟩, ⟨16, 16, .ro, 0⟩]⟩,
  ⟨0x30500, 4, 1, 4, 1, [⟨0, 5, .lk, 0⟩, ⟨16, 12, .lk, 0x200⟩]⟩,
  ⟨0x30504, 4, 1, 4, 1, [⟨0, 32, .ro, 0⟩]⟩,
  ⟨0x30508, 4, 1, 4, 1, [⟨0, 32, .ro, 0⟩]⟩,
  ⟨0x3050C, 4, 1, 4, 1, [⟨0, 32, .ro, 0⟩]⟩,
  ⟨0x30800, 4, 256, 4, 1, [⟨0, 32, .ro, 0⟩]⟩,
  ⟨0x31000, 256, 4, 4, 1, [⟨0, 1, .lk, 0⟩]⟩,
  ⟨0x31004, 256, 4, 4, 1, [⟨0, 32, .lk, 0⟩]⟩,
  ⟨0x31008, 256, 4, 4, 1, [⟨0, 32, .lk, 0⟩]⟩,
  ⟨0x3100C, 256, 4, 4, 1, [⟨0, 32, .lk, 0xF4240⟩]⟩,
  ⟨0x31010, 256, 4, 4, 1, [⟨0, 32, .lk, 0⟩]⟩,
  ⟨0x31014, 256, 4, 4, 1, [⟨0, 32, .lk, 0⟩]⟩,
  ⟨0x31018, 256, 4, 4, 1, [⟨0, 32, .lk, 0x4C4B40⟩]⟩,
  ⟨0x3101C, 256, 4, 4, 1, [⟨0, 32, .lk, 0x989680⟩]⟩,
  ⟨0x31020, 256, 4, 4, 1, [⟨0, 32, .lk, 0⟩]⟩,
  ⟨0x31024, 256, 4, 4, 1, [⟨0, 16, .lk, 0⟩]⟩,
  ⟨0x31028, 256, 4, 4, 1, [⟨0, 32, .ro, 0⟩]⟩,
  ⟨0x3102C, 256, 4, 4, 1, [⟨0, 32, .ro, 0⟩]⟩,
  ⟨0x31030, 256, 4, 4, 1, [⟨0, 32, .ro, 0⟩]⟩,
  ⟨0x31034, 256, 4, 4, 1, [⟨0, 2, .ro, 0⟩, ⟨16, 16, .ro, 0⟩]⟩,
  ⟨0x31038, 256, 4, 4, 1, [⟨0, 32, .ro, 0⟩]⟩,
  ⟨0x3103C, 256, 4, 4, 1, [⟨0, 32, .ro, 0⟩]⟩,
  ⟨0x31040, 256, 4, 4, 1, [⟨0, 32, .ro, 0⟩]⟩,
  ⟨0x31044, 256, 4, 4, 1, [⟨0, 32, .ro, 0⟩]⟩]
/-- Registers of the FU block, part 2. -/
def rowsFU1 : List RegRow := [
  ⟨0x32000, 64, 48, 4, 1, [⟨0, 32, .ro, 0⟩]⟩,
  ⟨0x32004, 64, 48, 4, 1, [⟨0, 32, .ro, 0⟩]⟩,
  ⟨0x32008, 64, 48, 4, 1, [⟨0, 1, .lk, 0⟩, ⟨16, 14, .lk, 20⟩]⟩,
  ⟨0x3200C, 64, 48, 4, 1, [⟨0, 32, .ro, 0⟩]⟩,
  ⟨0x32010, 64, 48, 4, 1, [⟨0, 32, .ro, 0⟩]⟩,
  ⟨0x32014, 64, 48, 4, 1, [⟨0, 1, .ro, 0⟩, ⟨1, 1, .ro, 0⟩]⟩,
  ⟨0x32018, 64, 48, 4, 1, [⟨0, 32, .ro, 0⟩]⟩,
  ⟨0x3201C, 64, 48, 4, 1, [⟨0, 32, .ro, 0⟩]⟩,
  ⟨0x32020, 64, 48, 4, 1, [⟨0, 32, .ro, 0⟩]⟩,
  ⟨0x32024, 64, 48, 4, 1, [⟨0, 32, .ro, 0⟩]⟩,
  ⟨0x30000, 4, 1, 4, 1, [⟨0, 4, .ro, 0⟩, ⟨4, 7, .ro, 0⟩]⟩,
  ⟨0x30004, 4, 1, 4, 1, [⟨0, 2, .lk, 2⟩, ⟨16, 14, .lk, 0x5C0⟩]⟩,
  ⟨0x30008, 4, 1, 4, 1, [⟨0, 32, .lk, 0⟩]⟩,
  ⟨0x3000C, 4, 1, 4, 1, [⟨0, 32, .ro, 0⟩]⟩,
  ⟨0x31080, 256, 4, 4, 1, [⟨0, 32, .lk, 0⟩]⟩,
  ⟨0x31084, 256, 4, 4, 1, [⟨0, 16, .lk, 0⟩, ⟨16, 16, .lk, 0⟩]⟩,
  ⟨0x31088, 256, 4, 4, 1, [⟨0, 11, .lk, 0⟩, ⟨11, 1, .lk, 0⟩, ⟨12, 1, .lk, 1⟩]⟩,
  ⟨0x3108C, 256, 4, 4, 1, [⟨0, 19, .lk, 0⟩]⟩,
  ⟨0x31090, 256, 4, 4, 1, [⟨0, 16, .lk, 0⟩]⟩,
  ⟨0x31094, 256, 4, 4, 1, [⟨0, 16, .lk, 0⟩]⟩,
  ⟨0x31098, 256, 4, 4, 1, [⟨0, 16, .lk, 0⟩]⟩,
  ⟨0x310A0, 256, 4, 4, 1, [⟨0, 32, .ro, 0⟩]⟩,
  ⟨0x310A4, 256, 4, 4, 1, [⟨0, 32, .ro, 0x7FFFFFFF⟩]⟩,
  ⟨0x310A8, 256, 4, 4, 1, [⟨0, 32, .ro, 0⟩]⟩]
/-- Registers of the FU block, part 3. -/
def rowsFU2 : List RegRow := [
  ⟨0x310AC, 256, 4, 4, 1, [⟨0, 32, .ro, 0⟩]⟩,
  ⟨0x310B0, 256, 4, 4, 1, [⟨0, 32, .ro, 0⟩]⟩,
  ⟨0x310B4, 256, 4, 4, 1, [⟨0, 32, .ro, 0⟩]⟩,
  ⟨0x310B8, 256, 4, 4, 1, [⟨0, 32, .ro, 0⟩]⟩,
  ⟨0x310BC, 256, 4, 4, 1, [⟨0, 32, .ro, 0⟩]⟩,
  ⟨0x33000, 32, 64, 4, 1, [⟨0, 1, .lk, 0⟩, ⟨1, 1, .lk, 0⟩, ⟨2, 4, .lk, 0⟩, ⟨8, 4, .lk, 0⟩, ⟨12, 4, .lk, 4⟩, ⟨16, 8, .lk, 16⟩]⟩,
  ⟨0x33004, 32, 64, 4, 1, [⟨0, 16, .lk, 0⟩]⟩,
  ⟨0x33008, 32, 64, 4, 1, [⟨0, 6, .lk, 0⟩, ⟨8, 6, .lk, 0⟩, ⟨16, 6, .lk, 0⟩, ⟨24, 6, .lk, 0⟩]⟩,
  ⟨0x3300C, 32, 64, 4, 1, [⟨0, 6, .lk, 0⟩, ⟨8, 6, .lk, 0⟩, ⟨16, 6, .lk, 0⟩, ⟨24, 6, .lk, 0⟩]⟩,
  ⟨0x33010, 32, 64, 4, 4, [⟨0, 32, .lk, 0⟩]⟩,
  ⟨0x33800, 2048, 4, 32, 64, [⟨0, 8, .ro, 255⟩, ⟨8, 8, .ro, 0⟩, ⟨16, 8, .ro, 0⟩, ⟨24, 3, .ro, 0⟩]⟩,
  ⟨0x33804, 2048, 4, 32, 64, [⟨0, 32, .ro, 0⟩]⟩,
  ⟨0x33808, 2048, 4, 32, 64, [⟨0, 32, .ro, 0⟩]⟩,
  ⟨0x3380C, 2048, 4, 32, 64, [⟨0, 16, .ro, 0⟩, ⟨16, 16, .ro, 0⟩]⟩,
  ⟨0x33810, 2048, 4, 32, 64, [⟨0, 32, .ro, 0⟩]⟩,
  ⟨0x33814, 2048, 4, 32, 64, [⟨0, 32, .ro, 0⟩]⟩]

/-- Registers of the PT block, part 1. -/
def rowsPT0 : List RegRow := [
  ⟨0x40000, 4, 1, 4, 1, [⟨0, 3, .ro, 0⟩, ⟨3, 1, .ro, 0⟩, ⟨16, 16, .ro, 0⟩]⟩,
  ⟨0x40004, 4, 1, 4, 1, [⟨0, 5, .lk, 5⟩]⟩,
  ⟨0x40008, 4, 1, 4, 1, [⟨0, 32, .lk, 0⟩]⟩,
  ⟨0x4000C, 4, 1, 4, 1, [⟨0, 32, .lk, 0⟩]⟩,
  ⟨0x40010, 4, 1, 4, 1, [⟨0, 32, .lk, 0⟩]⟩,
  ⟨0x40014, 4, 1, 4, 1, [⟨0, 22, .lk, 0⟩]⟩,
  ⟨0x40018, 4, 1, 4, 1, [⟨0, 22, .lk, 0⟩]⟩,
  ⟨0x4001C, 4, 1, 4, 1, [⟨0, 22, .lk, 0⟩]⟩,
  ⟨0x40020, 4, 1, 4, 1, [⟨0, 21, .lk, 0x100000⟩]⟩,
  ⟨0x40024, 4, 1, 4, 1, [⟨0, 19, .lk, 0x40000⟩]⟩,
  ⟨0x40028, 4, 1, 4, 1, [⟨0, 5, .lk, 17⟩]⟩,
  ⟨0x4002C, 4, 1, 4, 1, [⟨0, 4, .lk, 0⟩]⟩,
  ⟨0x40030, 4, 1, 4, 1, [⟨0, 16, .lk, 0⟩]⟩,
  ⟨0x40034, 4, 1, 4, 1, [⟨0, 16, .lk, 0⟩]⟩,
  ⟨0x40040, 4, 1, 4, 1, [⟨0, 11, .lk, 0⟩, ⟨16, 10, .lk, 0⟩]⟩,
  ⟨0x40044, 4, 1, 4, 1, [⟨0, 21, .lk, 0⟩]⟩,
  ⟨0x40048, 4, 1, 4, 1, [⟨0, 21, .lk, 0⟩]⟩,
  ⟨0x4004C, 4, 1, 4, 1, [⟨0, 4, .lk, 0⟩, ⟨8, 9, .lk, 0⟩]⟩,
  ⟨0x40050, 4, 1, 4, 1, [⟨0, 32, .lk, 0⟩]⟩,
  ⟨0x40080, 4, 1, 4, 1, [⟨0, 32, .ro, 0⟩]⟩,
  ⟨0x40084, 4, 1, 4, 1, [⟨0, 32, .ro, 0⟩]⟩,
  ⟨0x40088, 4, 1, 4, 1, [⟨0, 32, .ro, 0⟩]⟩,
  ⟨0x4008C, 4, 1, 4, 1, [⟨0, 32, .ro, 0⟩]⟩,
  ⟨0x40090, 4, 1, 4, 1, [⟨0, 32, .ro, 0⟩]⟩]
/-- Registers of the PT block, part 2. -/
def rowsPT1 : List RegRow := [
  ⟨0x40094, 4, 1, 4, 1, [⟨0, 32, .ro, 0⟩]⟩,
  ⟨0x40098, 4, 1, 4, 1, [⟨0, 32, .ro, 0⟩]⟩,
  ⟨0x4009C, 4, 1, 4, 1, [⟨0, 32, .ro, 0⟩]⟩,
  ⟨0x400A0, 4, 1, 4, 1, [⟨0, 32, .ro, 0⟩]⟩,
  ⟨0x400A4, 4, 1, 4, 1, [⟨0, 32, .ro, 0⟩]⟩,
  ⟨0x400A8, 4, 1, 4, 1, [⟨0, 18, .ro, 0⟩]⟩,
  ⟨0x400AC, 4, 1, 4, 1, [⟨0, 5, .ro, 0⟩]⟩,
  ⟨0x400B0, 4, 1, 4, 1, [⟨0, 32, .ro, 0⟩]⟩,
  ⟨0x400B4, 4, 1, 4, 1, [⟨0, 2, .ro, 0⟩]⟩,
  ⟨0x400C0, 4, 1, 4, 1, [⟨0, 32, .ro, 0⟩]⟩,
  ⟨0x400C4, 4, 1, 4, 1, [⟨0, 32, .ro, 0⟩]⟩,
  ⟨0x400C8, 4, 1, 4, 1, [⟨0, 32, .ro, 0⟩]⟩,
  ⟨0x400CC, 4, 1, 4, 1, [⟨0, 32, .ro, 0⟩]⟩,
  ⟨0x400D0, 4, 1, 4, 1, [⟨0, 32, .ro, 0⟩]⟩,
  ⟨0x400D4, 4, 1, 4, 1, [⟨0, 32, .ro, 0⟩]⟩,
  ⟨0x400D8, 4, 1, 4, 1, [⟨0, 32, .ro, 0⟩]⟩,
  ⟨0x40100, 32, 8, 4, 1, [⟨0, 21, .lk, 0⟩]⟩,
  ⟨0x40104, 32, 8, 4, 1, [⟨0, 21, .lk, 0⟩]⟩,
  ⟨0x40108, 32, 8, 4, 1, [⟨0, 21, .lk, 0⟩]⟩,
  ⟨0x4010C, 32, 8, 4, 1, [⟨0, 21, .lk, 0⟩]⟩,
  ⟨0x40110, 32, 8, 4, 1, [⟨0, 21, .lk, 0⟩]⟩,
  ⟨0x40114, 32, 8, 4, 1, [⟨0, 21, .lk, 0⟩]⟩,
  ⟨0x41000, 8, 256, 4, 1, [⟨0, 3, .lk, 0⟩, ⟨4, 2, .lk, 0⟩]⟩,
  ⟨0x41004, 8, 256, 4, 1, [⟨0, 16, .lk, 0⟩, ⟨16, 16, .lk, 0⟩]⟩]

/-- Registers of the TL block, part 1. -/
def rowsTL0 : List RegRow := [
  ⟨0x50000, 4, 1, 4, 1, [⟨0, 8, .ro, 0⟩, ⟨8, 8, .ro, 0⟩]⟩,
  ⟨0x50004, 4, 1, 4, 1, [⟨0, 1, .lk, 0⟩]⟩,
  ⟨0x50008, 4, 1, 4, 1, [⟨0, 4, .ro, 12⟩]⟩,
  ⟨0x5000C, 4, 1, 4, 1, [⟨0, 6, .lk, 44⟩, ⟨8, 6, .lk, 40⟩]⟩,
  ⟨0x50010, 4, 1, 4, 1, [⟨0, 24, .lk, 0x15180⟩]⟩,
  ⟨0x50014, 4, 1, 4, 1, [⟨0, 8, .lk, 8⟩]⟩,
  ⟨0x50018, 4, 1, 4, 1, [⟨0, 8, .lk, 85⟩, ⟨8, 8, .lk, 95⟩, ⟨16, 8, .lk, 100⟩, ⟨24, 8, .lk, 105⟩]⟩,
  ⟨0x50020, 4, 1, 4, 1, [⟨0, 6, .ro, 0⟩, ⟨6, 1, .ro, 0⟩, ⟨8, 2, .ro, 0⟩, ⟨16, 8, .ro, 0⟩]⟩,
  ⟨0x50024, 4, 1, 4, 1, [⟨0, 32, .ro, 0⟩]⟩,
  ⟨0x50028, 4, 1, 4, 1, [⟨0, 8, .ro, 0⟩]⟩,
  ⟨0x5002C, 4, 1, 4, 1, [⟨0, 32, .ro, 0⟩]⟩,
  ⟨0x50030, 4, 1, 4, 1, [⟨0, 32, .ro, 0⟩]⟩,
  ⟨0x50040, 4, 12, 4, 1, [⟨0, 13, .ro, 0⟩, ⟨16, 13, .ro, 0⟩]⟩,
  ⟨0x51000, 64, 144, 4, 1, [⟨0, 3, .ro, 0⟩, ⟨8, 8, .ro, 0⟩, ⟨16, 4, .ro, 0⟩, ⟨20, 1, .ro, 0⟩, ⟨21, 1, .ro, 0⟩]⟩,
  ⟨0x51004, 64, 144, 4, 1, [⟨0, 32, .ro, 0⟩]⟩,
  ⟨0x51008, 64, 144, 4, 1, [⟨0, 32, .ro, 0⟩]⟩,
  ⟨0x5100C, 64, 144, 4, 1, [⟨0, 32, .ro, 0⟩]⟩,
  ⟨0x51010, 64, 144, 4, 1, [⟨0, 32, .ro, 0⟩]⟩,
  ⟨0x51014, 64, 144, 4, 1, [⟨0, 32, .ro, 0⟩]⟩,
  ⟨0x51018, 64, 144, 4, 1, [⟨0, 32, .ro, 0⟩]⟩,
  ⟨0x5101C, 64, 144, 4, 1, [⟨0, 32, .ro, 0⟩]⟩,
  ⟨0x51020, 64, 144, 4, 1, [⟨0, 8, .ro, 0⟩, ⟨8, 8, .ro, 0⟩, ⟨16, 8, .ro, 0⟩]⟩,
  ⟨0x51024, 64, 144, 4, 1, [⟨0, 32, .ro, 0⟩]⟩,
  ⟨0x51028, 64, 144, 4, 1, [⟨0, 32, .ro, 0⟩]⟩]
/-- Registers of the TL block, part 2. -/
def rowsTL1 : List RegRow := [
  ⟨0x5102C, 64, 144, 4, 1, [⟨0, 32, .ro, 0⟩]⟩,
  ⟨0x51030, 64, 144, 4, 1, [⟨0, 32, .ro, 0⟩]⟩,
  ⟨0x51034, 64, 144, 4, 1, [⟨0, 12, .lk, 0⟩]⟩,
  ⟨0x51038, 64, 144, 4, 1, [⟨0, 12, .lk, 0⟩]⟩,
  ⟨0x5103C, 64, 144, 4, 1, [⟨0, 32, .ro, 0⟩]⟩]

/-- Registers of the DS block, part 1. -/
def rowsDS0 : List RegRow := [
  ⟨0x60000, 4, 1, 4, 1, [⟨0, 17, .ro, 0⟩]⟩,
  ⟨0x60004, 4, 1, 4, 1, [⟨0, 32, .lk, 0⟩]⟩,
  ⟨0x60008, 4, 1, 4, 1, [⟨0, 8, .lk, 0⟩]⟩,
  ⟨0x6000C, 4, 1, 4, 1, [⟨0, 17, .lk, 0⟩]⟩,
  ⟨0x60010, 4, 1, 4, 1, [⟨0, 32, .lk, 0⟩]⟩,
  ⟨0x60014, 4, 1, 4, 1, [⟨0, 8, .lk, 0⟩]⟩,
  ⟨0x60018, 4, 1, 4, 1, [⟨0, 13, .lk, 0⟩]⟩,
  ⟨0x6001C, 4, 1, 4, 1, [⟨0, 32, .ro, 0⟩]⟩,
  ⟨0x60020, 4, 1, 4, 1, [⟨0, 8, .ro, 0⟩, ⟨8, 3, .ro, 0⟩, ⟨16, 16, .ro, 0⟩]⟩,
  ⟨0x60024, 4, 1, 4, 1, [⟨0, 32, .ro, 0⟩]⟩,
  ⟨0x60028, 4, 1, 4, 1, [⟨0, 6, .ro, 0⟩, ⟨6, 1, .ro, 0⟩]⟩,
  ⟨0x6002C, 4, 1, 4, 1, [⟨0, 32, .ro, 0⟩]⟩,
  ⟨0x60030, 4, 1, 4, 1, [⟨0, 32, .ro, 0⟩]⟩,
  ⟨0x60034, 4, 1, 4, 1, [⟨0, 32, .ro, 0⟩]⟩,
  ⟨0x60038, 4, 1, 4, 1, [⟨0, 32, .ro, 0⟩]⟩,
  ⟨0x6003C, 4, 1, 4, 1, [⟨0, 32, .ro, 0⟩]⟩,
  ⟨0x60040, 4, 1, 4, 1, [⟨0, 32, .ro, 0⟩]⟩]

/-- Registers of the AT block, part 1. -/
def rowsAT0 : List RegRow := [
  ⟨0x70000, 4, 1, 4, 1, [⟨0, 7, .ro, 0⟩, ⟨7, 1, .ro, 0⟩, ⟨8, 7, .ro, 0⟩, ⟨15, 1, .ro, 0⟩, ⟨16, 1, .ro, 0⟩]⟩,
  ⟨0x70004, 4, 1, 4, 1, [⟨0, 7, .lk, 0⟩, ⟨8, 6, .lk, 16⟩, ⟨16, 6, .lk, 2⟩, ⟨24, 6, .lk, 0⟩]⟩,
  ⟨0x70008, 4, 1, 4, 1, [⟨0, 20, .lk, 0x1000⟩]⟩,
  ⟨0x7000C, 4, 1, 4, 1, [⟨0, 17, .lk, 0x400⟩]⟩,
  ⟨0x70010, 4, 1, 4, 1, [⟨0, 17, .lk, 0⟩]⟩,
  ⟨0x70014, 4, 1, 4, 1, [⟨0, 9, .lk, 64⟩, ⟨16, 11, .lk, 0x100⟩]⟩,
  ⟨0x70018, 4, 1, 4, 1, [⟨0, 32, .lk, 0⟩]⟩,
  ⟨0x7001C, 4, 1, 4, 1, [⟨0, 8, .lk, 0⟩]⟩,
  ⟨0x70020, 4, 1, 4, 1, [⟨0, 16, .lk, 0⟩]⟩,
  ⟨0x70024, 4, 1, 4, 1, [⟨0, 16, .lk, 0⟩]⟩,
  ⟨0x70028, 4, 1, 4, 1, [⟨0, 16, .lk, 0⟩]⟩,
  ⟨0x7002C, 4, 1, 4, 1, [⟨0, 12, .lk, 0⟩, ⟨16, 12, .lk, 0⟩]⟩,
  ⟨0x70030, 4, 1, 4, 1, [⟨0, 32, .ro, 0⟩]⟩,
  ⟨0x70034, 4, 1, 4, 1, [⟨0, 8, .ro, 0⟩, ⟨8, 1, .ro, 0⟩]⟩,
  ⟨0x70038, 4, 1, 4, 1, [⟨0, 32, .ro, 0⟩]⟩,
  ⟨0x7003C, 4, 1, 4, 1, [⟨0, 17, .ro, 0⟩]⟩,
  ⟨0x70040, 4, 1, 4, 1, [⟨0, 32, .ro, 0⟩]⟩,
  ⟨0x70044, 4, 1, 4, 1, [⟨0, 32, .ro, 0⟩]⟩,
  ⟨0x70048, 4, 1, 4, 1, [⟨0, 32, .ro, 0⟩]⟩,
  ⟨0x7004C, 4, 1, 4, 1, [⟨0, 32, .ro, 0⟩]⟩,
  ⟨0x70050, 4, 1, 4, 1, [⟨0, 32, .ro, 0⟩]⟩,
  ⟨0x70054, 4, 1, 4, 1, [⟨0, 32, .ro, 0⟩]⟩,
  ⟨0x70058, 4, 1, 4, 1, [⟨0, 32, .ro, 0⟩]⟩,
  ⟨0x7005C, 4, 1, 4, 1, [⟨0, 32, .ro, 0⟩]⟩]
/-- Registers of the AT block, part 2. -/
def rowsAT1 : List RegRow := [
  ⟨0x70060, 4, 1, 4, 1, [⟨0, 32, .ro, 0⟩]⟩,
  ⟨0x70064, 4, 1, 4, 1, [⟨0, 32, .ro, 0⟩]⟩,
  ⟨0x70068, 4, 1, 4, 1, [⟨0, 32, .ro, 0⟩]⟩,
  ⟨0x7006C, 4, 1, 4, 1, [⟨0, 32, .ro, 0⟩]⟩]

/-- Registers of the CB block, part 1. -/
def rowsCB0 : List RegRow := [
  ⟨0x80000, 4, 1, 4, 1, [⟨0, 2, .ro, 0⟩, ⟨2, 1, .ro, 0⟩, ⟨8, 4, .ro, 0⟩, ⟨16, 6, .ro, 0⟩]⟩,
  ⟨0x80004, 4, 1, 4, 1, [⟨0, 2, .lk, 0⟩, ⟨2, 2, .lk, 0⟩, ⟨4, 4, .lk, 6⟩, ⟨8, 5, .lk, 3⟩, ⟨13, 3, .lk, 2⟩, ⟨16, 16, .lk, 0x100⟩]⟩,
  ⟨0x80008, 4, 1, 4, 1, [⟨0, 32, .lk, 0x1000⟩]⟩,
  ⟨0x8000C, 4, 1, 4, 1, [⟨0, 32, .lk, 0x3F666666⟩]⟩,
  ⟨0x80010, 4, 1, 4, 1, [⟨0, 16, .lk, 0⟩]⟩,
  ⟨0x80014, 4, 1, 4, 1, [⟨0, 16, .lk, 0⟩]⟩,
  ⟨0x80018, 4, 1, 4, 1, [⟨0, 12, .lk, 0⟩, ⟨16, 12, .lk, 0⟩]⟩,
  ⟨0x8001C, 4, 1, 4, 1, [⟨0, 32, .lk, 0⟩]⟩,
  ⟨0x80020, 4, 1, 4, 1, [⟨0, 8, .lk, 0⟩]⟩,
  ⟨0x80024, 4, 1, 4, 1, [⟨0, 5, .lk, 0⟩]⟩,
  ⟨0x80028, 4, 1, 4, 1, [⟨0, 32, .ro, 0⟩]⟩,
  ⟨0x8002C, 4, 1, 4, 1, [⟨0, 32, .ro, 0⟩]⟩,
  ⟨0x80030, 4, 1, 4, 1, [⟨0, 32, .ro, 0⟩]⟩,
  ⟨0x80034, 4, 1, 4, 1, [⟨0, 32, .ro, 0⟩]⟩,
  ⟨0x80038, 4, 1, 4, 1, [⟨0, 32, .ro, 0⟩]⟩,
  ⟨0x8003C, 4, 1, 4, 1, [⟨0, 32, .ro, 0⟩]⟩,
  ⟨0x80040, 4, 1, 4, 1, [⟨0, 32, .ro, 0⟩]⟩,
  ⟨0x80044, 4, 1, 4, 1, [⟨0, 6, .ro, 0⟩, ⟨16, 16, .ro, 0⟩]⟩,
  ⟨0x80100, 8, 8, 4, 1, [⟨0, 32, .lk, 0xFFFFFFFF⟩]⟩,
  ⟨0x80104, 8, 8, 4, 1, [⟨0, 32, .lk, 0⟩]⟩,
  ⟨0x80800, 4, 512, 4, 1, [⟨0, 32, .ro, 0⟩]⟩,
  ⟨0x81000, 32, 24, 4, 7, [⟨0, 32, .ro, 0⟩]⟩,
  ⟨0x8101C, 32, 24, 4, 1, [⟨0, 7, .ro, 0⟩, ⟨8, 7, .ro, 0⟩, ⟨15, 1, .w1c, 0⟩, ⟨16, 16, .ro, 0⟩]⟩,
  ⟨0x82000, 64, 24, 4, 1, [⟨0, 6, .lk, 0⟩, ⟨6, 1, .lk, 0⟩]⟩]
/-- Registers of the CB block, part 2. -/
def rowsCB1 : List RegRow := [
  ⟨0x82004, 64, 24, 4, 1, [⟨0, 20, .lk, 0⟩]⟩,
  ⟨0x82008, 64, 24, 4, 1, [⟨0, 31, .lk, 0⟩]⟩,
  ⟨0x8200C, 64, 24, 4, 1, [⟨0, 24, .lk, 0⟩]⟩,
  ⟨0x82010, 64, 24, 4, 3, [⟨0, 32, .lk, 0⟩]⟩,
  ⟨0x8201C, 64, 24, 4, 4, [⟨0, 32, .lk, 0⟩]⟩]

/-- Registers of the SV block, part 1. -/
def rowsSV0 : List RegRow := [
  ⟨0x90000, 4, 1, 4, 1, [⟨0, 6, .ro, 0⟩, ⟨6, 1, .ro, 0⟩, ⟨8, 5, .ro, 0⟩, ⟨16, 16, .ro, 0⟩]⟩,
  ⟨0x90004, 4, 1, 4, 1, [⟨0, 16, .lk, 0⟩]⟩,
  ⟨0x90008, 4, 1, 4, 1, [⟨0, 10, .ro, 0⟩, ⟨16, 5, .ro, 0⟩]⟩,
  ⟨0x9000C, 4, 1, 4, 1, [⟨0, 32, .ro, 0⟩]⟩,
  ⟨0x91000, 64, 32, 4, 1, [⟨0, 1, .lk, 0⟩, ⟨1, 1, .lk, 0⟩, ⟨2, 1, .lk, 0⟩, ⟨3, 1, .lk, 0⟩, ⟨4, 2, .lk, 0⟩, ⟨6, 2, .lk, 0⟩, ⟨8, 7, .lk, 1⟩, ⟨16, 4, .lk, 0⟩, ⟨20, 4, .lk, 3⟩]⟩,
  ⟨0x91004, 64, 32, 4, 1, [⟨0, 7, .lk, 0⟩, ⟨8, 7, .lk, 0⟩, ⟨16, 6, .lk, 0⟩]⟩,
  ⟨0x91008, 64, 32, 4, 1, [⟨0, 32, .lk, 0⟩]⟩,
  ⟨0x9100C, 64, 32, 4, 1, [⟨0, 32, .lk, 0⟩]⟩,
  ⟨0x91010, 64, 32, 4, 1, [⟨0, 24, .lk, 0⟩]⟩,
  ⟨0x91014, 64, 32, 4, 1, [⟨0, 32, .lk, 0⟩]⟩,
  ⟨0x91018, 64, 32, 4, 1, [⟨0, 16, .lk, 0⟩, ⟨16, 12, .lk, 0⟩]⟩,
  ⟨0x9101C, 64, 32, 4, 1, [⟨0, 32, .lk, 0⟩]⟩,
  ⟨0x91020, 64, 32, 4, 1, [⟨0, 16, .lk, 0⟩]⟩,
  ⟨0x91024, 64, 32, 4, 1, [⟨0, 32, .lk, 0⟩]⟩,
  ⟨0x91028, 64, 32, 4, 1, [⟨0, 32, .lk, 0⟩]⟩,
  ⟨0x9102C, 64, 32, 4, 1, [⟨0, 6, .lk, 0⟩, ⟨8, 6, .lk, 0⟩, ⟨14, 3, .lk, 0⟩, ⟨31, 1, .lk, 0⟩]⟩,
  ⟨0x91030, 64, 32, 4, 1, [⟨0, 2, .ro, 0⟩, ⟨2, 1, .ro, 0⟩, ⟨3, 1, .ro, 0⟩, ⟨4, 1, .ro, 0⟩, ⟨5, 1, .ro, 0⟩]⟩,
  ⟨0x91034, 64, 32, 4, 1, [⟨0, 16, .ro, 0⟩, ⟨16, 16, .ro, 0⟩]⟩,
  ⟨0x91038, 64, 32, 4, 1, [⟨0, 16, .ro, 0⟩, ⟨16, 16, .ro, 0⟩]⟩,
  ⟨0x9103C, 64, 32, 4, 1, [⟨0, 32, .ro, 0⟩]⟩,
  ⟨0x92000, 16, 32, 4, 1, [⟨0, 32, .ro, 0⟩]⟩,
  ⟨0x92004, 16, 32, 4, 1, [⟨0, 32, .ro, 0⟩]⟩,
  ⟨0x92008, 16, 32, 4, 1, [⟨0, 32, .ro, 0⟩]⟩,
  ⟨0x9200C, 16, 32, 4, 1, [⟨0, 24, .ro, 0⟩]⟩]
/-- Registers of the SV block, part 2. -/
def rowsSV1 : List RegRow := [
  ⟨0x98000, 64, 32, 4, 1, [⟨0, 32, .lk, 0⟩]⟩,
  ⟨0x98004, 64, 32, 4, 1, [⟨0, 32, .ro, 0⟩]⟩,
  ⟨0x98008, 64, 32, 4, 1, [⟨0, 32, .ro, 0⟩]⟩,
  ⟨0x9800C, 64, 32, 4, 1, [⟨0, 5, .lk, 0⟩, ⟨5, 5, .lk, 0⟩, ⟨10, 5, .lk, 0⟩]⟩,
  ⟨0x98010, 64, 32, 4, 1, [⟨0, 16, .lk, 0⟩]⟩]

/-- Registers of the CL block, part 1. -/
def rowsCL0 : List RegRow := [
  ⟨0xA0000, 4, 1, 4, 1, [⟨0, 12, .ro, 0⟩, ⟨16, 7, .ro, 0⟩]⟩,
  ⟨0xA0004, 4, 1, 4, 1, [⟨0, 32, .lk, 0⟩]⟩,
  ⟨0xA0008, 4, 1, 4, 1, [⟨0, 8, .lk, 0⟩]⟩,
  ⟨0xA000C, 4, 1, 4, 1, [⟨0, 12, .lk, 0⟩]⟩,
  ⟨0xA0010, 4, 1, 4, 1, [⟨0, 32, .lk, 0⟩]⟩,
  ⟨0xA0014, 4, 1, 4, 1, [⟨0, 8, .lk, 0⟩]⟩,
  ⟨0xA0018, 4, 1, 4, 1, [⟨0, 32, .ro, 0⟩]⟩,
  ⟨0xA001C, 4, 1, 4, 1, [⟨0, 8, .ro, 0⟩, ⟨16, 12, .ro, 0⟩]⟩,
  ⟨0xA0020, 4, 1, 4, 1, [⟨0, 13, .ro, 0⟩, ⟨16, 6, .ro, 0⟩]⟩,
  ⟨0xA0024, 4, 1, 4, 1, [⟨0, 32, .ro, 0⟩]⟩,
  ⟨0xA0028, 4, 1, 4, 1, [⟨0, 32, .ro, 0⟩]⟩,
  ⟨0xA002C, 4, 1, 4, 1, [⟨0, 32, .ro, 0⟩]⟩,
  ⟨0xA0400, 4, 128, 4, 1, [⟨0, 32, .lk, 0⟩]⟩,
  ⟨0xA0800, 4, 256, 4, 1, [⟨0, 16, .lk, 0⟩]⟩,
  ⟨0xA0C00, 4, 256, 4, 1, [⟨0, 16, .ro, 0⟩]⟩,
  ⟨0xA1000, 16, 96, 4, 1, [⟨0, 6, .lk, 0⟩, ⟨6, 1, .lk, 0⟩]⟩,
  ⟨0xA1004, 16, 96, 4, 1, [⟨0, 2, .ro, 0⟩, ⟨4, 12, .ro, 0xFFF⟩, ⟨16, 13, .ro, 0⟩]⟩,
  ⟨0xA1008, 16, 96, 4, 1, [⟨0, 12, .ro, 0⟩, ⟨12, 1, .ro, 0⟩]⟩,
  ⟨0xA100C, 16, 96, 4, 1, [⟨0, 32, .ro, 0⟩]⟩,
  ⟨0xA4000, 8, 4096, 4, 1, [⟨0, 32, .ro, 0⟩]⟩,
  ⟨0xA4004, 8, 4096, 4, 1, [⟨0, 32, .ro, 0⟩]⟩]

/-- Registers of the MJ block, part 1. -/
def rowsMJ0 : List RegRow := [
  ⟨0xB0000, 4, 1, 4, 1, [⟨0, 1, .ro, 0⟩, ⟨1, 1, .ro, 0⟩, ⟨2, 1, .ro, 0⟩, ⟨4, 12, .ro, 0⟩]⟩,
  ⟨0xB0004, 4, 1, 4, 1, [⟨0, 19, .rw, 0x493E0⟩]⟩,
  ⟨0xB0008, 4, 1, 4, 1, [⟨0, 17, .lk, 0x61A8⟩]⟩,
  ⟨0xB000C, 4, 1, 4, 1, [⟨0, 10, .lk, 0x2BC⟩, ⟨10, 10, .lk, 200⟩, ⟨20, 10, .lk, 100⟩]⟩,
  ⟨0xB0010, 4, 1, 4, 1, [⟨0, 7, .lk, 10⟩]⟩,
  ⟨0xB0014, 4, 1, 4, 1, [⟨0, 10, .lk, 20⟩]⟩,
  ⟨0xB0018, 4, 1, 4, 1, [⟨0, 1, .lk, 1⟩, ⟨1, 1, .lk, 0⟩]⟩,
  ⟨0xB001C, 4, 1, 4, 1, [⟨0, 8, .lk, 0⟩, ⟨8, 8, .lk, 3⟩, ⟨16, 8, .lk, 6⟩]⟩,
  ⟨0xB0020, 4, 1, 4, 1, [⟨0, 16, .lk, 0x2710⟩]⟩,
  ⟨0xB0024, 4, 1, 4, 1, [⟨0, 19, .ro, 0⟩]⟩,
  ⟨0xB0028, 4, 1, 4, 1, [⟨0, 32, .ro, 0⟩]⟩,
  ⟨0xB002C, 4, 1, 4, 1, [⟨0, 32, .ro, 0⟩]⟩,
  ⟨0xB0040, 4, 12, 4, 1, [⟨0, 8, .lk, 100⟩, ⟨8, 8, .ro, 0⟩]⟩,
  ⟨0xB0100, 32, 4, 4, 1, [⟨0, 32, .ro, 0⟩]⟩,
  ⟨0xB0104, 32, 4, 4, 1, [⟨0, 32, .ro, 0⟩]⟩,
  ⟨0xB0108, 32, 4, 4, 1, [⟨0, 32, .ro, 0⟩]⟩,
  ⟨0xB010C, 32, 4, 4, 1, [⟨0, 32, .ro, 0⟩]⟩,
  ⟨0xB0110, 32, 4, 4, 1, [⟨0, 32, .ro, 0⟩]⟩,
  ⟨0xB0114, 32, 4, 4, 1, [⟨0, 32, .ro, 0⟩]⟩,
  ⟨0xB0118, 32, 4, 4, 1, [⟨0, 32, .ro, 0⟩]⟩,
  ⟨0xB011C, 32, 4, 4, 1, [⟨0, 32, .ro, 0⟩]⟩,
  ⟨0xB0200, 4, 12, 4, 1, [⟨0, 3, .ro, 3⟩, ⟨3, 1, .ro, 0⟩]⟩,
  ⟨0xB0400, 4, 64, 4, 1, [⟨0, 8, .ro, 0⟩, ⟨8, 4, .ro, 0⟩, ⟨12, 1, .ro, 0⟩]⟩]

/-- Registers of the EV block, part 1. -/
def rowsEV0 : List RegRow := [
  ⟨0xC0000, 4, 1, 4, 1, [⟨0, 11, .ro, 0⟩]⟩,
  ⟨0xC0004, 4, 1, 4, 1, [⟨0, 1, .rw, 0⟩]⟩,
  ⟨0xC0008, 4, 1, 4, 1, [⟨0, 3, .lk, 4⟩]⟩,
  ⟨0xC000C, 4, 1, 4, 1, [⟨0, 16, .ro, 0⟩]⟩,
  ⟨0xC0010, 4, 1, 4, 1, [⟨0, 7, .wo, 0⟩]⟩,
  ⟨0xC0014, 4, 1, 4, 1, [⟨0, 32, .ro, 0⟩]⟩,
  ⟨0xC0020, 4, 1, 4, 1, [⟨0, 32, .ro, 0⟩]⟩,
  ⟨0xC0024, 4, 1, 4, 1, [⟨0, 32, .ro, 0⟩]⟩,
  ⟨0xC0028, 4, 1, 4, 1, [⟨0, 32, .lk, 0⟩]⟩,
  ⟨0xC002C, 4, 1, 4, 1, [⟨0, 32, .lk, 0⟩]⟩,
  ⟨0xC0030, 4, 1, 4, 1, [⟨0, 32, .lk, 0⟩]⟩,
  ⟨0xC0034, 4, 1, 4, 1, [⟨0, 32, .lk, 0⟩]⟩,
  ⟨0xC0400, 4, 32, 4, 1, [⟨0, 32, .rw, 0⟩]⟩,
  ⟨0xC0500, 4, 32, 4, 1, [⟨0, 32, .ro, 0⟩]⟩,
  ⟨0xC0100, 32, 8, 4, 1, [⟨0, 10, .ro, 0⟩, ⟨10, 1, .ro, 0⟩, ⟨11, 1, .ro, 0⟩, ⟨16, 8, .ro, 0⟩, ⟨24, 8, .ro, 0⟩]⟩,
  ⟨0xC0104, 32, 8, 4, 1, [⟨0, 10, .wo, 0⟩]⟩,
  ⟨0xC0108, 32, 8, 4, 1, [⟨0, 8, .ro, 0⟩, ⟨8, 1, .ro, 1⟩, ⟨9, 4, .ro, 0⟩]⟩,
  ⟨0xC010C, 32, 8, 4, 1, [⟨0, 32, .ro, 0⟩]⟩,
  ⟨0xC0110, 32, 8, 4, 1, [⟨0, 32, .ro, 0⟩]⟩,
  ⟨0xC0114, 32, 8, 4, 1, [⟨0, 32, .ro, 0⟩]⟩,
  ⟨0xC0200, 16, 2, 4, 1, [⟨0, 10, .ro, 0⟩, ⟨10, 1, .ro, 0⟩, ⟨16, 8, .ro, 0⟩, ⟨24, 8, .ro, 0⟩]⟩,
  ⟨0xC0204, 16, 2, 4, 1, [⟨0, 1, .ro, 0⟩, ⟨1, 11, .ro, 0⟩]⟩,
  ⟨0xC0800, 16, 64, 4, 1, [⟨0, 12, .lk, 0⟩, ⟨31, 1, .lk, 0⟩]⟩,
  ⟨0xC0804, 16, 64, 4, 1, [⟨0, 32, .rw, 0⟩]⟩]
/-- Registers of the EV block, part 2. -/
def rowsEV1 : List RegRow := [
  ⟨0xC0808, 16, 64, 4, 1, [⟨0, 32, .rw, 0⟩]⟩,
  ⟨0xC1000, 8, 1024, 4, 1, [⟨0, 1, .lk, 0⟩, ⟨1, 3, .lk, 2⟩, ⟨8, 8, .lk, 0⟩, ⟨16, 8, .lk, 0⟩, ⟨24, 2, .lk, 0⟩]⟩,
  ⟨0xC1004, 8, 1024, 4, 1, [⟨0, 8, .lk, 1⟩, ⟨8, 16, .lk, 0⟩]⟩,
  ⟨0xC3000, 4, 1024, 4, 1, [⟨0, 8, .ro, 0⟩, ⟨8, 3, .ro, 0⟩, ⟨16, 16, .ro, 0⟩]⟩]

/-- Registers of the SF block, part 1. -/
def rowsSF0 : List RegRow := [
  ⟨0xD0000, 4, 1, 4, 1, [⟨0, 1, .ro, 1⟩, ⟨1, 1, .ro, 0⟩, ⟨2, 1, .ro, 0⟩, ⟨3, 1, .ro, 0⟩, ⟨4, 1, .ro, 0⟩, ⟨8, 8, .ro, 0⟩, ⟨16, 4, .ro, 0⟩]⟩,
  ⟨0xD0004, 4, 1, 4, 1, [⟨0, 1, .lk, 1⟩, ⟨1, 1, .lk, 1⟩, ⟨2, 1, .lk, 1⟩, ⟨4, 2, .lk, 0⟩, ⟨8, 8, .lk, 8⟩, ⟨16, 8, .lk, 16⟩]⟩,
  ⟨0xD0008, 4, 1, 4, 1, [⟨0, 14, .lk, 100⟩]⟩,
  ⟨0xD000C, 4, 1, 4, 1, [⟨0, 6, .lk, 50⟩]⟩,
  ⟨0xD0010, 4, 1, 4, 1, [⟨0, 8, .lk, 20⟩]⟩,
  ⟨0xD0014, 4, 1, 4, 1, [⟨0, 16, .lk, 0x3E8⟩]⟩,
  ⟨0xD0018, 4, 1, 4, 1, [⟨0, 8, .lk, 105⟩]⟩,
  ⟨0xD001C, 4, 1, 4, 1, [⟨0, 12, .lk, 0xFFF⟩]⟩,
  ⟨0xD0020, 4, 1, 4, 1, [⟨0, 32, .lk, 0⟩]⟩,
  ⟨0xD0024, 4, 1, 4, 1, [⟨0, 32, .lk, 0⟩]⟩,
  ⟨0xD0028, 4, 1, 4, 1, [⟨0, 8, .ro, 0⟩, ⟨16, 16, .ro, 0⟩]⟩,
  ⟨0xD002C, 4, 1, 4, 1, [⟨0, 32, .ro, 0⟩]⟩,
  ⟨0xD0030, 4, 1, 4, 1, [⟨0, 32, .ro, 0⟩]⟩,
  ⟨0xD0034, 4, 1, 4, 1, [⟨0, 32, .ro, 0⟩]⟩,
  ⟨0xD0038, 4, 1, 4, 1, [⟨0, 32, .ro, 0⟩]⟩,
  ⟨0xD003C, 4, 1, 4, 1, [⟨0, 32, .ro, 0⟩]⟩,
  ⟨0xD0040, 4, 1, 4, 1, [⟨0, 32, .ro, 0⟩]⟩,
  ⟨0xD0044, 4, 1, 4, 1, [⟨0, 32, .ro, 0⟩]⟩,
  ⟨0xD0048, 4, 1, 4, 1, [⟨0, 32, .ro, 0⟩]⟩,
  ⟨0xD004C, 4, 1, 4, 1, [⟨0, 32, .ro, 0⟩]⟩,
  ⟨0xD0050, 4, 1, 4, 1, [⟨0, 32, .ro, 0⟩]⟩,
  ⟨0xD0054, 4, 1, 4, 1, [⟨0, 12, .ro, 0⟩]⟩,
  ⟨0xD0058, 4, 1, 4, 1, [⟨0, 32, .ro, 0⟩]⟩,
  ⟨0xD005C, 4, 1, 4, 1, [⟨0, 16, .ro, 0⟩]⟩]
/-- Registers of the SF block, part 2. -/
def rowsSF1 : List RegRow := [
  ⟨0xD0060, 4, 1, 4, 1, [⟨0, 32, .ro, 0⟩]⟩,
  ⟨0xD0064, 4, 1, 4, 1, [⟨0, 32, .ro, 0⟩]⟩,
  ⟨0xD0100, 8, 9, 4, 1, [⟨0, 8, .ro, 0⟩, ⟨8, 1, .ro, 0⟩, ⟨16, 16, .ro, 0⟩]⟩,
  ⟨0xD0104, 8, 9, 4, 1, [⟨0, 32, .ro, 0⟩]⟩,
  ⟨0xD0200, 16, 4, 4, 1, [⟨0, 32, .ro, 0⟩]⟩,
  ⟨0xD0204, 16, 4, 4, 1, [⟨0, 8, .ro, 0⟩]⟩,
  ⟨0xD0208, 16, 4, 4, 1, [⟨0, 32, .ro, 0⟩]⟩,
  ⟨0xD1000, 4, 2048, 4, 1, [⟨0, 32, .ro, 0⟩]⟩]

/-- Registers of the RC block, part 1. -/
def rowsRC0 : List RegRow := [
  ⟨0xE0000, 4, 1, 4, 1, [⟨0, 1, .ro, 0⟩, ⟨1, 1, .ro, 0⟩, ⟨2, 1, .ro, 0⟩, ⟨3, 1, .ro, 0⟩, ⟨8, 12, .ro, 0⟩]⟩,
  ⟨0xE0004, 4, 1, 4, 1, [⟨0, 1, .lk, 0⟩, ⟨1, 1, .lk, 1⟩, ⟨2, 2, .lk, 0⟩, ⟨8, 3, .lk, 1⟩, ⟨16, 8, .lk, 128⟩]⟩,
  ⟨0xE0008, 4, 1, 4, 1, [⟨0, 7, .lk, 10⟩]⟩,
  ⟨0xE000C, 4, 1, 4, 1, [⟨0, 13, .lk, 0x3E8⟩]⟩,
  ⟨0xE0010, 4, 1, 4, 1, [⟨0, 7, .lk, 10⟩]⟩,
  ⟨0xE0014, 4, 1, 4, 1, [⟨0, 7, .lk, 20⟩]⟩,
  ⟨0xE0018, 4, 1, 4, 1, [⟨20, 12, .lk, 0⟩]⟩,
  ⟨0xE001C, 4, 1, 4, 1, [⟨0, 8, .lk, 0⟩]⟩,
  ⟨0xE0020, 4, 1, 4, 1, [⟨0, 6, .ro, 0⟩, ⟨16, 16, .ro, 0⟩]⟩,
  ⟨0xE0024, 4, 1, 4, 1, [⟨0, 6, .wo, 0⟩, ⟨31, 1, .wo, 0⟩]⟩,
  ⟨0xE0028, 4, 1, 4, 1, [⟨0, 4, .wo, 0⟩, ⟨31, 1, .wo, 0⟩]⟩,
  ⟨0xE002C, 4, 1, 4, 1, [⟨0, 6, .wo, 0⟩]⟩,
  ⟨0xE0030, 4, 1, 4, 1, [⟨0, 32, .ro, 0⟩]⟩,
  ⟨0xE0034, 4, 1, 4, 1, [⟨0, 32, .ro, 0⟩]⟩,
  ⟨0xE0038, 4, 1, 4, 1, [⟨0, 32, .ro, 0⟩]⟩,
  ⟨0xE003C, 4, 1, 4, 1, [⟨0, 32, .ro, 0⟩]⟩,
  ⟨0xE0040, 4, 1, 4, 1, [⟨0, 32, .ro, 0⟩]⟩,
  ⟨0xE0044, 4, 1, 4, 1, [⟨0, 32, .ro, 0⟩]⟩,
  ⟨0xE0048, 4, 1, 4, 1, [⟨0, 32, .ro, 0⟩]⟩,
  ⟨0xE004C, 4, 1, 4, 1, [⟨0, 32, .ro, 0⟩]⟩,
  ⟨0xE0050, 4, 1, 4, 1, [⟨0, 32, .ro, 0⟩]⟩,
  ⟨0xE0054, 4, 1, 4, 1, [⟨0, 2, .ro, 0⟩, ⟨4, 4, .ro, 0⟩, ⟨8, 6, .ro, 0⟩, ⟨16, 4, .ro, 0⟩]⟩,
  ⟨0xE0058, 4, 1, 4, 1, [⟨0, 6, .ro, 0⟩]⟩,
  ⟨0xE005C, 4, 1, 4, 1, [⟨0, 16, .ro, 0⟩, ⟨16, 16, .ro, 0⟩]⟩]
/-- Registers of the RC block, part 2. -/
def rowsRC1 : List RegRow := [
  ⟨0xE0060, 4, 1, 4, 1, [⟨0, 32, .ro, 0⟩]⟩,
  ⟨0xE0064, 4, 1, 4, 1, [⟨0, 32, .ro, 0⟩]⟩,
  ⟨0xE0068, 4, 1, 4, 1, [⟨0, 32, .lk, 0⟩]⟩,
  ⟨0xE006C, 4, 1, 4, 1, [⟨0, 32, .lk, 0⟩]⟩,
  ⟨0xE0100, 4, 64, 4, 1, [⟨0, 2, .ro, 0⟩, ⟨8, 8, .ro, 0⟩]⟩,
  ⟨0xE0200, 4, 12, 4, 1, [⟨0, 8, .ro, 0⟩, ⟨8, 1, .ro, 0⟩, ⟨16, 16, .ro, 0⟩]⟩,
  ⟨0xE0300, 4, 6, 4, 1, [⟨0, 32, .ro, 0⟩]⟩]

/-- Registers of the BT block, part 1. -/
def rowsBT0 : List RegRow := [
  ⟨0xF0000, 4, 1, 4, 1, [⟨0, 3, .ro, 0⟩]⟩,
  ⟨0xF0004, 4, 1, 4, 1, [⟨0, 8, .ro, 0⟩, ⟨8, 4, .ro, 0⟩, ⟨16, 16, .ro, 0⟩]⟩,
  ⟨0xF0008, 4, 1, 4, 1, [⟨0, 4, .ro, 0⟩, ⟨8, 3, .ro, 3⟩, ⟨16, 16, .ro, 0⟩]⟩,
  ⟨0xF000C, 4, 1, 4, 1, [⟨0, 32, .ro, 0⟩]⟩,
  ⟨0xF0010, 4, 1, 4, 1, [⟨0, 32, .ro, 0⟩]⟩,
  ⟨0xF0014, 4, 1, 4, 1, [⟨0, 3, .ro, 3⟩, ⟨3, 1, .ro, 1⟩, ⟨4, 4, .ro, 0⟩, ⟨8, 6, .ro, 0⟩]⟩,
  ⟨0xF0018, 4, 1, 4, 1, [⟨0, 6, .ro, 0⟩, ⟨8, 4, .ro, 0⟩]⟩,
  ⟨0xF001C, 4, 1, 4, 1, [⟨0, 16, .ro, 0⟩]⟩,
  ⟨0xF0020, 4, 1, 4, 1, [⟨0, 32, .ro, 0⟩]⟩,
  ⟨0xF0024, 4, 1, 4, 1, [⟨0, 4, .hw, 0⟩, ⟨16, 16, .hw, 0⟩]⟩,
  ⟨0xF0028, 4, 1, 4, 1, [⟨0, 1, .ro, 0⟩, ⟨1, 1, .ro, 0⟩, ⟨4, 4, .ro, 0⟩, ⟨16, 16, .ro, 0⟩]⟩,
  ⟨0xF002C, 4, 1, 4, 1, [⟨0, 29, .hw, 0⟩]⟩,
  ⟨0xF0030, 4, 1, 4, 1, [⟨0, 16, .ro, 0⟩]⟩,
  ⟨0xF0040, 4, 8, 4, 1, [⟨0, 32, .ro, 0⟩]⟩,
  ⟨0xF0060, 4, 4, 4, 1, [⟨0, 32, .hw, 0⟩]⟩,
  ⟨0xF0070, 4, 1, 4, 1, [⟨0, 1, .ro, 0⟩, ⟨1, 1, .ro, 0⟩, ⟨8, 8, .ro, 0⟩, ⟨16, 16, .ro, 0⟩]⟩,
  ⟨0xF0080, 4, 16, 4, 1, [⟨0, 32, .ro, 0⟩]⟩,
  ⟨0xF00C0, 4, 1, 4, 1, [⟨0, 11, .ro, 0⟩]⟩,
  ⟨0xF00C4, 4, 1, 4, 1, [⟨0, 32, .ro, 0⟩]⟩,
  ⟨0xF00C8, 4, 1, 4, 1, [⟨0, 32, .ro, 0⟩]⟩,
  ⟨0xF0100, 4, 64, 4, 1, [⟨0, 32, .hw, 0⟩]⟩,
  ⟨0xF0200, 4, 40, 4, 1, [⟨0, 32, .ro, 0⟩]⟩,
  ⟨0xF0400, 4, 256, 4, 1, [⟨0, 32, .ro, 0⟩]⟩,
  ⟨0xF0800, 4, 256, 4, 1, [⟨0, 32, .ro, 0⟩]⟩]
/-- Registers of the BT block, part 2. -/
def rowsBT1 : List RegRow := [
  ⟨0xF0C00, 4, 1, 4, 1, [⟨0, 6, .ro, 0⟩, ⟨16, 16, .ro, 0⟩]⟩]

/-- Registers of the PW block, part 1. -/
def rowsPW0 : List RegRow := [
  ⟨0x100000, 4, 1, 4, 1, [⟨0, 3, .ro, 4⟩, ⟨3, 1, .ro, 0⟩, ⟨8, 8, .ro, 0⟩, ⟨16, 1, .ro, 0⟩]⟩,
  ⟨0x100004, 4, 1, 4, 1, [⟨0, 1, .hw, 0⟩, ⟨1, 1, .hw, 0⟩, ⟨16, 16, .hw, 0⟩]⟩,
  ⟨0x100008, 4, 1, 4, 1, [⟨0, 1, .ro, 0⟩, ⟨1, 3, .ro, 0⟩, ⟨16, 16, .ro, 0⟩]⟩,
  ⟨0x10000C, 4, 1, 4, 1, [⟨0, 10, .lk, 100⟩]⟩,
  ⟨0x100010, 4, 1, 4, 1, [⟨0, 32, .ro, 0⟩]⟩,
  ⟨0x100014, 4, 1, 4, 1, [⟨0, 24, .ro, 0⟩]⟩,
  ⟨0x100018, 4, 1, 4, 1, [⟨0, 8, .lk, 255⟩]⟩,
  ⟨0x10001C, 4, 1, 4, 1, [⟨0, 32, .ro, 0⟩]⟩,
  ⟨0x100020, 4, 1, 4, 1, [⟨0, 32, .ro, 0⟩]⟩,
  ⟨0x100024, 4, 1, 4, 1, [⟨0, 6, .ro, 0⟩, ⟨16, 16, .ro, 0⟩]⟩,
  ⟨0x100040, 16, 4, 4, 1, [⟨0, 32, .rw, 0⟩]⟩,
  ⟨0x100044, 16, 4, 4, 1, [⟨0, 32, .rw, 0⟩]⟩,
  ⟨0x100048, 16, 4, 4, 1, [⟨0, 1, .ro, 0⟩, ⟨1, 1, .w1c, 0⟩, ⟨2, 1, .w1c, 0⟩]⟩,
  ⟨0x100080, 8, 4, 4, 1, [⟨0, 10, .lk, 0⟩, ⟨10, 5, .lk, 4⟩, ⟨15, 1, .lk, 0⟩, ⟨16, 8, .lk, 50⟩, ⟨24, 1, .lk, 0⟩]⟩,
  ⟨0x100084, 8, 4, 4, 1, [⟨0, 1, .ro, 0⟩, ⟨16, 16, .ro, 0⟩]⟩]

/-- Registers of the HP block, part 1. -/
def rowsHP0 : List RegRow := [
  ⟨0x110000, 4, 1, 4, 1, [⟨0, 8, .ro, 0⟩, ⟨8, 8, .ro, 0⟩]⟩,
  ⟨0x110004, 4, 1, 4, 1, [⟨0, 9, .ro, 0⟩]⟩,
  ⟨0x110008, 4, 1, 4, 1, [⟨0, 32, .ro, 0⟩]⟩,
  ⟨0x11000C, 4, 1, 4, 1, [⟨0, 32, .ro, 0⟩]⟩,
  ⟨0x110010, 4, 1, 4, 1, [⟨0, 32, .ro, 0⟩]⟩,
  ⟨0x110014, 4, 1, 4, 1, [⟨0, 32, .ro, 0⟩]⟩,
  ⟨0x110018, 4, 1, 4, 1, [⟨0, 6, .ro, 0⟩, ⟨16, 16, .ro, 0⟩]⟩,
  ⟨0x110020, 4, 1, 4, 1, [⟨0, 5, .lk, 16⟩]⟩,
  ⟨0x110100, 32, 4, 4, 1, [⟨0, 32, .hw, 0⟩]⟩,
  ⟨0x110104, 32, 4, 4, 1, [⟨0, 13, .lk, 0⟩, ⟨16, 7, .lk, 0⟩]⟩,
  ⟨0x110108, 32, 4, 4, 1, [⟨0, 16, .lk, 0⟩]⟩,
  ⟨0x11010C, 32, 4, 4, 1, [⟨0, 32, .ro, 0⟩]⟩,
  ⟨0x110110, 32, 4, 4, 1, [⟨0, 32, .ro, 0⟩]⟩,
  ⟨0x110114, 32, 4, 4, 1, [⟨0, 13, .ro, 0⟩]⟩,
  ⟨0x110118, 32, 4, 4, 1, [⟨0, 32, .ro, 0⟩]⟩,
  ⟨0x111000, 4, 256, 4, 1, [⟨0, 32, .ro, 0⟩]⟩]

/-- Registers of the LK block, part 1. -/
def rowsLK0 : List RegRow := [
  ⟨0x120000, 4, 1, 4, 1, [⟨0, 3, .lk, 0⟩, ⟨3, 3, .lk, 0⟩, ⟨6, 1, .lk, 0⟩, ⟨7, 1, .lk, 0⟩, ⟨8, 2, .lk, 0⟩]⟩,
  ⟨0x120004, 4, 1, 4, 1, [⟨0, 14, .lk, 0x7D0⟩]⟩,
  ⟨0x120008, 4, 1, 4, 1, [⟨0, 8, .lk, 64⟩, ⟨8, 8, .lk, 48⟩, ⟨16, 8, .lk, 4⟩]⟩,
  ⟨0x12000C, 4, 1, 4, 1, [⟨0, 3, .ro, 0⟩, ⟨3, 1, .ro, 0⟩]⟩,
  ⟨0x120010, 4, 1, 4, 1, [⟨0, 32, .ro, 0⟩]⟩,
  ⟨0x120100, 64, 4, 4, 1, [⟨0, 2, .ro, 0⟩, ⟨16, 16, .ro, 0⟩]⟩,
  ⟨0x120104, 64, 4, 4, 1, [⟨0, 32, .ro, 0⟩]⟩,
  ⟨0x120108, 64, 4, 4, 1, [⟨0, 32, .ro, 0⟩]⟩,
  ⟨0x12010C, 64, 4, 4, 1, [⟨0, 32, .ro, 0⟩]⟩,
  ⟨0x120110, 64, 4, 4, 1, [⟨0, 32, .ro, 0⟩]⟩,
  ⟨0x120114, 64, 4, 4, 1, [⟨0, 6, .ro, 0⟩, ⟨16, 16, .ro, 0⟩]⟩,
  ⟨0x121000, 1024, 4, 4, 256, [⟨0, 32, .ro, 0⟩]⟩]

/-- Registers of the EN block, part 1. -/
def rowsEN0 : List RegRow := [
  ⟨0x130000, 4, 1, 4, 1, [⟨0, 4, .ro, 0⟩]⟩,
  ⟨0x130100, 64, 4, 4, 1, [⟨0, 1, .lk, 0⟩, ⟨1, 1, .lk, 0⟩, ⟨2, 1, .lk, 0⟩, ⟨3, 1, .lk, 0⟩, ⟨4, 3, .lk, 0⟩, ⟨8, 12, .lk, 0⟩]⟩,
  ⟨0x130104, 64, 4, 4, 1, [⟨0, 32, .lk, 0⟩]⟩,
  ⟨0x130108, 64, 4, 4, 1, [⟨0, 16, .lk, 0⟩]⟩,
  ⟨0x13010C, 64, 4, 4, 1, [⟨0, 32, .lk, 0⟩]⟩,
  ⟨0x130110, 64, 4, 4, 1, [⟨0, 32, .lk, 0⟩]⟩,
  ⟨0x130114, 64, 4, 4, 1, [⟨0, 16, .lk, 0⟩]⟩,
  ⟨0x130118, 64, 4, 4, 1, [⟨0, 16, .lk, 0⟩, ⟨16, 16, .lk, 0⟩]⟩,
  ⟨0x13011C, 64, 4, 4, 1, [⟨0, 7, .lk, 0⟩]⟩,
  ⟨0x130120, 64, 4, 4, 1, [⟨0, 30, .lk, 0⟩]⟩,
  ⟨0x130124, 64, 4, 4, 1, [⟨0, 32, .lk, 0⟩]⟩,
  ⟨0x130128, 64, 4, 4, 1, [⟨0, 32, .lk, 0⟩]⟩,
  ⟨0x13012C, 64, 4, 4, 1, [⟨0, 14, .lk, 0⟩]⟩,
  ⟨0x130130, 64, 4, 4, 1, [⟨0, 32, .ro, 0⟩]⟩,
  ⟨0x130134, 64, 4, 4, 1, [⟨0, 32, .ro, 0⟩]⟩,
  ⟨0x130138, 64, 4, 4, 1, [⟨0, 32, .ro, 0⟩]⟩,
  ⟨0x13013C, 64, 4, 4, 1, [⟨0, 32, .ro, 0⟩]⟩,
  ⟨0x131000, 512, 4, 4, 128, [⟨0, 32, .lk, 0⟩]⟩]

/-- Registers of the IO block, part 1. -/
def rowsIO0 : List RegRow := [
  ⟨0x140000, 32, 16, 4, 1, [⟨0, 2, .lk, 0⟩, ⟨8, 8, .lk, 0⟩]⟩,
  ⟨0x140004, 32, 16, 4, 1, [⟨0, 7, .ro, 0⟩, ⟨7, 1, .w1c, 0⟩, ⟨16, 16, .ro, 0⟩]⟩,
  ⟨0x140008, 32, 16, 4, 1, [⟨0, 32, .ro, 0⟩]⟩,
  ⟨0x14000C, 32, 16, 4, 1, [⟨0, 32, .ro, 0⟩]⟩,
  ⟨0x140010, 32, 16, 4, 1, [⟨0, 2, .ro, 0⟩, ⟨2, 1, .ro, 0⟩, ⟨3, 1, .ro, 0⟩]⟩,
  ⟨0x140200, 32, 16, 4, 1, [⟨0, 1, .lk, 0⟩, ⟨1, 1, .lk, 0⟩, ⟨2, 1, .lk, 0⟩, ⟨3, 1, .lk, 0⟩, ⟨4, 5, .lk, 0⟩]⟩,
  ⟨0x140204, 32, 16, 4, 1, [⟨0, 24, .lk, 0x3E8⟩]⟩,
  ⟨0x140208, 32, 16, 4, 1, [⟨0, 32, .lk, 0⟩]⟩,
  ⟨0x14020C, 32, 16, 4, 1, [⟨0, 32, .lk, 0⟩]⟩,
  ⟨0x140210, 32, 16, 4, 1, [⟨0, 32, .rw, 0⟩]⟩,
  ⟨0x140214, 32, 16, 4, 1, [⟨0, 32, .rw, 0⟩]⟩,
  ⟨0x140218, 32, 16, 4, 1, [⟨0, 3, .ro, 0⟩, ⟨3, 1, .w1c, 0⟩, ⟨4, 12, .ro, 0⟩, ⟨16, 8, .ro, 0⟩, ⟨24, 8, .ro, 0⟩]⟩,
  ⟨0x140400, 16, 12, 4, 1, [⟨0, 1, .lk, 0⟩, ⟨1, 1, .lk, 0⟩, ⟨2, 1, .lk, 0⟩, ⟨3, 1, .lk, 0⟩, ⟨4, 5, .lk, 0⟩, ⟨16, 8, .lk, 0⟩]⟩,
  ⟨0x140404, 16, 12, 4, 1, [⟨0, 16, .lk, 0⟩]⟩,
  ⟨0x140408, 16, 12, 4, 1, [⟨0, 16, .ro, 0⟩]⟩,
  ⟨0x14040C, 16, 12, 4, 1, [⟨0, 1, .ro, 0⟩, ⟨16, 16, .ro, 0⟩]⟩,
  ⟨0x140600, 16, 12, 4, 1, [⟨0, 8, .lk, 0⟩, ⟨8, 1, .lk, 0⟩]⟩,
  ⟨0x140604, 16, 12, 4, 1, [⟨0, 32, .ro, 0⟩]⟩,
  ⟨0x140608, 16, 12, 4, 1, [⟨0, 32, .ro, 0⟩]⟩,
  ⟨0x140800, 32, 2, 4, 1, [⟨0, 1, .lk, 0⟩, ⟨1, 1, .lk, 0⟩, ⟨2, 1, .lk, 0⟩, ⟨3, 1, .lk, 0⟩, ⟨8, 8, .lk, 0⟩]⟩,
  ⟨0x140804, 32, 2, 4, 1, [⟨0, 9, .lk, 0⟩, ⟨9, 8, .lk, 0⟩, ⟨17, 7, .lk, 0⟩, ⟨24, 7, .lk, 1⟩]⟩,
  ⟨0x140808, 32, 2, 4, 1, [⟨0, 5, .lk, 1⟩, ⟨5, 5, .lk, 0⟩, ⟨10, 4, .lk, 0⟩, ⟨14, 4, .lk, 1⟩, ⟨18, 7, .lk, 0⟩]⟩,
  ⟨0x14080C, 32, 2, 4, 1, [⟨0, 8, .ro, 0⟩, ⟨8, 8, .ro, 0⟩, ⟨16, 2, .ro, 0⟩]⟩,
  ⟨0x140810, 32, 2, 4, 1, [⟨0, 32, .ro, 0⟩]⟩]

/-- The registers of a block of R401 (numbered in base order from GLB = 0); none beyond. -/
def blockRows (b : Nat) : List RegRow :=
  match b with
  | 0 => rowsGLB0  -- GLB
  | 1 => rowsTB0 ++ rowsTB1 ++ rowsTB2  -- TB
  | 2 => rowsIG0 ++ rowsIG1  -- IG
  | 3 => rowsFU0 ++ rowsFU1 ++ rowsFU2  -- FU
  | 4 => rowsPT0 ++ rowsPT1  -- PT
  | 5 => rowsTL0 ++ rowsTL1  -- TL
  | 6 => rowsDS0  -- DS
  | 7 => rowsAT0 ++ rowsAT1  -- AT
  | 8 => rowsCB0 ++ rowsCB1  -- CB
  | 9 => rowsSV0 ++ rowsSV1  -- SV
  | 10 => rowsCL0  -- CL
  | 11 => rowsMJ0  -- MJ
  | 12 => rowsEV0 ++ rowsEV1  -- EV
  | 13 => rowsSF0 ++ rowsSF1  -- SF
  | 14 => rowsRC0 ++ rowsRC1  -- RC
  | 15 => rowsBT0 ++ rowsBT1  -- BT
  | 16 => rowsPW0  -- PW
  | 17 => rowsHP0  -- HP
  | 18 => rowsLK0  -- LK
  | 19 => rowsEN0  -- EN
  | 20 => rowsIO0  -- IO
  | _ => []

/-- The address lies on an instance of the row. -/
def RegRow.holds (r : RegRow) (a : Nat) : Bool :=
  r.base ≤ a && (a - r.base) / r.stride1 < r.count1 &&
    ((a - r.base) % r.stride1) / r.stride2 < r.count2 && ((a - r.base) % r.stride1) % r.stride2 == 0

/-- The row of the register at a control address, if a table assigns one (R401). -/
def regRow? (a : Nat) : Option RegRow := (blockRows (a / 0x10000)).find? (·.holds a)

/-- The word a register holds at reset: its fields' reset values, reserved bits zero (R6). -/
def RegRow.resetWord (r : RegRow) : BitVec 32 :=
  BitVec.ofNat 32 (r.fields.foldl (fun w f => w + f.reset * 2 ^ f.lo) 0)

/-- The reset word at a control address; an unassigned offset reads zero (R6, R401). -/
def regReset (a : Nat) : BitVec 32 :=
  match regRow? a with
  | some r => r.resetWord
  | none => 0

end Sys2Proof.Machine
end

