-- ==== Sys2Proof/Machine/State.lean ====
section
/-! DEFINITION. The state of Ryulum: the control registers in one sparse memory, the DRAM, SRAM, NVM and fuses, and for each block the state that no register holds.
Every register of the tables has its home in `regs`; what is listed here beside it is state the rules name without giving it a register. -/

namespace Sys2Proof.Machine

/-! ### Thyme (R33 to R57) -/

/-- The active triple of R34: offset in ns with its fraction in 2^-16 ns, rate in 2^-40, anchor. -/
structure Triple where
  offInt : Int
  offFrac : Nat
  rate : Int
  anchor : Nat
  deriving DecidableEq, Repr

/-- The values a read of TB_NOW_LO latches together (R35). -/
structure TimeLatch where
  now : Nat
  frac : Nat
  cnt : Nat
  triple : Triple
  deriving DecidableEq, Repr

/-- The states of time quality (R41). -/
inductive TqState where
  | free
  | locking
  | locked
  | holdover
  | refused
  deriving DecidableEq, Repr

/-- A pending run of refused jumps: its count and its last measurement (R41). -/
structure JumpRun where
  count : Nat
  last : Int
  deriving DecidableEq, Repr

/-- A Sync that waits for its Follow_Up (R38, R48): MAC, sequence id, interval in ns, device time of its arrival (R4), and its receive timestamp in units of 250 ps (R396). -/
structure PtpSync where
  mac : Nat
  seqId : Nat
  interval : Nat
  at_ : Nat
  rx : Nat
  deriving DecidableEq, Repr

/-- What the servo takes from a complete Sync (R38, R56): the grandmaster's origin time, 48-bit seconds and ns, and the receive timestamp in units of 250 ps (R396). -/
structure PtpPair where
  seconds : Nat
  nanos : Nat
  rx : Nat
  deriving DecidableEq, Repr

/-- What a stream's clock model keeps beside its TB_SM registers (R52): the previous sensor time, and the pairing of captures in order. -/
structure SensorClock where
  /-- s_prev of R52; none before the first paired sample. -/
  sPrev : Option Int
  /-- pairing has begun (R52, R75). -/
  paired : Bool
  /-- captures taken and not yet paired, oldest first; none stands for a first sample that had no capture before its start marker. -/
  caps : List (Option Nat)
  /-- samples whose stamp was fixed before their capture came: that many captures are discarded. -/
  owed : Nat
  /-- the newest capture on the stream's line. -/
  newest : Option Nat
  /-- rate clamps counted (R52). -/
  clamps : Nat
  deriving DecidableEq, Repr

/-- Thyme (R33 to R57). -/
structure ThyState where
  counter : Nat
  triple : Triple
  tq : TqState
  /-- consecutive measurements within LOCK (R41). -/
  consec : Nat
  /-- device time of the last measurement. -/
  lastMeas : Option Nat
  /-- the absence of measurements has been judged a timeout (R41). -/
  timedOut : Bool
  /-- counter of the last measurement accepted as a step or within JUMP (R42). -/
  holdFrom : Option Nat
  run : Option JumpRun
  /-- device time up to which the arm of the pending run is valid (R46). -/
  arm : Option Nat
  /-- counter of the last step commit (R37 code 3). -/
  stepAt : Option Nat
  /-- counter of the last rate commit (R37 code 3: a step in the same cycle refuses it). -/
  rateAt : Option Nat
  /-- triples of recent commits, newest first: the counter of the commit's cycle, and the triple in force up to its end (R36, R49). -/
  past : List (Nat × Triple)
  /-- device time before and after the last step commit (R50: which programmed times it passed over). -/
  stepSpan : Option (Nat × Nat)
  /-- backward steps committed (R103). -/
  backs : Nat
  /-- the read latches of the host (0) and the control cores (1 to 8), R35. -/
  latches : List TimeLatch
  /-- device time of the last edge on each wheel input (R4, R43). -/
  wheelEdge : List Nat
  /-- counter at which result sets would have started but for START_WAIT (R45). -/
  holdStart : Option Nat
  /-- the START_WAIT hold is over (R45). -/
  holdOver : Bool
  sync : Option PtpSync
  /-- the last complete Sync (R38). -/
  pair : Option PtpPair
  /-- the mean link delay kept (R48), ns. -/
  linkDelay : Int
  /-- counter of the last Announce on the active port (R38). -/
  lastAnnounce : Option Nat
  /-- the servo uses ALT_MAC (R38). -/
  altActive : Bool
  /-- the 25 MHz reference is present (R367). -/
  refPresent : Bool
  clocks : List SensorClock
  deriving DecidableEq, Repr

/-! ### Events (R281 to R293) -/

/-- A source delivered to a core and not yet claimed (R286). -/
structure EvHeld where
  src : Nat
  /-- EV cycle of the delivery decision (R290). -/
  cycle : Nat
  late : Bool
  deriving DecidableEq, Repr

/-- A control core as the event controller sees it: the held source, and the active sources, innermost first. -/
structure EvCore where
  held : Option EvHeld
  active : List Nat
  deriving DecidableEq, Repr

/-- The event controller beside its registers. -/
structure EvState where
  cores : List EvCore
  /-- counter at the first undelivered occurrence of a counting source (R283). -/
  starts : List (Nat × Nat)
  /-- status sources whose signal is 1 (R281). -/
  high : List Nat
  /-- late counts of the requesters (R290). -/
  late : List Nat
  /-- Lovage wake latches (R291), a 64-bit mask. -/
  latches : Nat
  /-- armed fence watchers (R293), a 64-bit mask. -/
  armed : Nat
  deriving DecidableEq, Repr

/-! ### Ingress (R60 to R83) -/

/-- A closed packet in a stream's FIFO (R66). -/
structure Packet where
  stream : Nat
  kind : Nat
  seqNo : Nat
  trunc : Bool
  ovr : Bool
  /-- header flags [7:0] of offset 0x07. -/
  flags : Nat
  crc : Nat
  stamp : Nat
  arrival : Nat
  sensor : Nat
  count : Nat
  fnum : Nat
  lines : Nat
  w30 : Nat
  w34 : Nat
  disc : Nat
  data : Bytes
  /-- last-sample time (R89). -/
  last : Nat
  /-- withheld by Thyme when its stamp was fixed (R53). -/
  withheld : Bool
  /-- the verdicts of its lines, in order (line-scan cameras): withheld, stamped by capture fallback (R53, R93). -/
  marks : List (Bool × Bool)
  /-- taken up by the fusion engine (R91). -/
  taken : Bool
  /-- taken up and allowed to contribute: complete, in order, its CRC good, neither withheld nor excluded (R67, R89, R91). -/
  ok : Bool
  /-- result sets whose sealed instants passed some of its samples before the take-up: (set, latest such instant) (R101). -/
  late : List (Nat × Nat)
  /-- counted in FU_BARRED (R97). -/
  barred : Bool
  released : Bool
  deriving DecidableEq, Repr

/-- What a stamp is fixed from (R52): the sensor's timestamp in ticks, its lock indication, the device time of the start marker. -/
structure StampSource where
  ts : Option Nat
  /-- none: the sensor gave none, which reads as locked. -/
  lock : Option Bool
  arrival : Nat
  deriving DecidableEq, Repr

/-- A point of an open scanner block: bytes 0 to 13 of its record, S4, the EMIT step (R64). -/
structure ScanPoint where
  head : Bytes
  ofsUs : Int
  step : Nat
  deriving DecidableEq, Repr

/-- A datagram of an open scanner block (R64). -/
structure ScanGram where
  src : StampSource
  /-- its length in bytes. -/
  len : Nat
  points : List ScanPoint
  deriving DecidableEq, Repr

/-- An open packet (R69). -/
structure OpenPacket where
  /-- device time of the start marker. -/
  arrival : Nat
  flags : Nat
  data : Bytes
  /-- samples stored so far. -/
  count : Nat
  /-- lines stored in this band. -/
  lines : Nat
  /-- device time of the first and the last record (record streams). -/
  first : Nat
  lastT : Nat
  /-- what the samples' stamps are fixed from, oldest first (line-scan lines). -/
  stamps : List StampSource
  /-- the datagrams of a scanner block, oldest first. -/
  grams : List ScanGram
  deriving DecidableEq, Repr

/-- A stream's ingress state (R63 to R80). -/
structure StreamIn where
  fifo : List Packet
  open_ : Option OpenPacket
  /-- writes have been lost and the close waits for room (R70). -/
  ovrPend : Bool
  /-- bytes discarded in the running resynchronisation (R73). -/
  discard : Nat
  /-- the next packet opens with RESYNC = 1 and this count at 0x38. -/
  resyncMark : Option Nat
  /-- device time at which the stream's timer last restarted (R72). -/
  timer : Nat
  /-- camera: a frame is open; a line is open (R63). -/
  frameOpen : Bool
  lineOpen : Bool
  fnum : Nat
  /-- image lines of the frame so far. -/
  frameLines : Nat
  /-- the frame's stamp source until it is fixed. -/
  frameSrc : Option StampSource
  /-- the frame's stamp, sensor time, withheld and flags once fixed (R52, R63). -/
  frameStamp : Option (Nat × Nat × Bool × Nat)
  /-- running CRC-32C registers of the lattice and the whole frame (R76). -/
  latCrc : Nat
  wholeCrc : Nat
  /-- the frame's first embedded line (R78). -/
  embedded : Option Bytes
  /-- signatures of the last complete frame or block, and the runs of equal and of different ones (R77). -/
  prevSig : Option (Nat × Nat)
  eqRun : Nat
  diffRun : Nat
  /-- the frame counter of the frame before (R78). -/
  prevCtr : Option Nat
  deriving DecidableEq, Repr

/-- Ingress beside its registers. -/
structure IgState where
  streams : List StreamIn
  /-- phase levels A and B of the encoder inputs (R65). -/
  phases : List (Bool × Bool)
  /-- device time of the data-ready edge whose SPI read is in progress (R65). -/
  imu : List (Option Nat)
  /-- the command byte each SPI controller sent last (R65). -/
  spi : List (Option Nat)
  deriving DecidableEq, Repr

/-! ### Chervil (R295 to R313) -/

/-- The states of Chervil (R297). -/
inductive SfPhase where
  | off
  | supervising
  | fault
  deriving DecidableEq, Repr

/-- A golden run that is due (R309): deferrals so far, whether it is under way, whether it was forced. -/
structure GoldRun where
  deferrals : Nat
  running : Bool
  forced : Bool
  deriving DecidableEq, Repr

/-- What the shadow compute of a result goes by (R307): the result, and the logical tiles its class-0 matrix-engine commands ran on. -/
structure ShadowRun where
  rs : Nat
  k : Nat
  tiles : List Nat
  deriving DecidableEq, Repr

/-- A self-test slice under way (R310, R311): its zone, the logical tile it runs on unless that is a spare, device time of the start. -/
structure Slice where
  zone : Nat
  tile : Option Nat
  start : Nat
  deriving DecidableEq, Repr

/-- A budget stop whose outstanding requests drain (R300): the queue, its context, the list, device time of the stop (R4). -/
structure StopDrain where
  eng : Nat
  q : Nat
  ctx : Nat
  list : Nat
  start : Nat
  deriving DecidableEq, Repr

/-- Chervil beside its registers. -/
structure SfState where
  phase : SfPhase
  /-- verdicts that hold: (stream, code, tag) (R303). -/
  verdicts : List (Nat × Nat × Nat)
  /-- passes completed since HEARTBEAT last toggled (R298). -/
  passes : Nat
  /-- islands whose latest judged clock window was out of tolerance (R306). -/
  clkBad : List Nat
  golden : Option GoldRun
  /-- results whose stores are still to be compared, oldest first (R307). -/
  shadow : List ShadowRun
  /-- self-test slices under way. -/
  slices : List Slice
  /-- device time of each zone's last attempt (R311). -/
  tries : List (Nat × Nat)
  /-- correctable errors of the last second: (logical tile, (device time of the pass, its count then)) (R304). -/
  ce : List (Nat × (Nat × Nat))
  drains : List StopDrain
  deriving DecidableEq, Repr

/-! ### Command lists (R248 to R266) -/

/-- The states of a list instance (R255), with Admitted between Ready and Running while its queue is busy (R253). -/
inductive InstPhase where
  | ready
  | admitted
  | running
  | waiting
  deriving DecidableEq, Repr

/-- What a waiting instance waits for (R253, R257). -/
inductive WaitCause where
  /-- a fence to reach a value (R261). -/
  | fence (f v : Nat)
  /-- a semaphore to hold a count (R262). -/
  | sem (n k : Nat)
  /-- the point-engine build to be free (R139). -/
  | build
  /-- corridor predecessors under the LAG ordering (R203). -/
  | corridorOrder
  /-- recomputed pages: AT_FENCE.DONE to reach a value (R205). -/
  | corridorMiss (v : Nat)
  /-- a problem's watermark to reach a time (R239). -/
  | solveRead (p t : Nat)
  /-- the other ranks of a collective (R392). -/
  | collective
  deriving DecidableEq, Repr

/-- A descriptor (R180). -/
structure Desc where
  rank : Nat
  valid : Bool
  typeCode : Nat
  view : Nat
  mxblk : Bool
  qfrac : Nat
  allocId : Nat
  owner : Nat
  base : Nat
  sizes : List Nat
  strides : List Nat
  deriving DecidableEq, Repr

/-- A list instance (R253 to R255). -/
structure Inst where
  /-- the list whose occurrence it took. -/
  list : Nat
  /-- the list that runs: the same, or its variant (R263). -/
  run : Nat
  /-- bound results: (result set, instant index k), bound index 0 upward. -/
  bound : List (Nat × Nat)
  idx : Nat
  phase : InstPhase
  /-- index of the next command. -/
  cmd : Nat
  /-- island cycles counted (R299): per logical tile on the matrix engine, under key 0 elsewhere. -/
  cycles : List (Nat × Nat)
  /-- device time at which it became ready. -/
  readyAt : Nat
  deferred : Bool
  /-- the operating point it was admitted at, and whether forced (R271, R276). -/
  grant : Nat
  forced : Bool
  wait : Option WaitCause
  /-- device time of the last command completion (R317). -/
  progressAt : Nat
  /-- semaphore counts acquired and not released: (semaphore, count) (R325). -/
  sems : List (Nat × Nat)
  /-- the descriptors of the command at hand as read when it was taken up, by slot (R184); none before its take-up. -/
  descs : Option (List (Nat × Option Desc))
  /-- the command at hand has waited already (R139). -/
  waited : Bool
  deriving DecidableEq, Repr

/-- A pending occurrence that carries results (trigger kinds 1 and 5, R253, R254). -/
structure Occ where
  list : Nat
  bound : List (Nat × Nat)
  /-- device time of the seal (kind 1). -/
  sealTime : Nat
  deriving DecidableEq, Repr

/-- Command lists beside their registers and the list-state table. -/
structure ClState where
  /-- instances ready, admitted (in order of admission), running or waiting. -/
  insts : List Inst
  occs : List Occ
  /-- take-ups of each list since the start under R86 (R254). -/
  taken : List (Nat × Nat)
  /-- comparator lists: device time of the next fire (R252). -/
  fires : List (Nat × Nat)
  /-- latches of CL_FENCE_HI, host and cores. -/
  fenceLatch : List Nat
  /-- the last set of each fence: the counter's value, and whether it has counted in CL_FENCE_STALE (R261). -/
  sets : List (Nat × (Nat × Bool))
  deriving DecidableEq, Repr

/-! ### Marjoram (R267 to R280) -/

/-- Marjoram beside its registers. Levels are in units of 0.25·10^-3 nJ, so that every charge of R271 is exact. -/
structure MjState where
  /-- the cap in force, mW (R270). -/
  cap : Nat
  /-- classes 0 to 2 and the shadow reserve; none before the run state, where capacities read 0 too (R280). -/
  levels : List Int
  /-- µs of the counter already refilled (R267). -/
  lastTick : Nat
  /-- a cap change for the next tick (R270). -/
  pendingCap : Option Nat
  /-- device time at which the class-0 level became negative (R4), and whether the debt has been reported (R276). -/
  debtSince : Option Nat
  debtTold : Bool
  /-- device time of each sensor's last sample (R272). -/
  sampled : List Nat
  /-- the list whose instance holds class 1 and class 2 (R274). -/
  starve1 : Option Nat
  starve2 : Option Nat
  /-- the sensors' last valid samples in °C, of which MJ_SENSOR.TEMP shows 8 bits (R272). -/
  temps : List Int
  deriving DecidableEq, Repr

/-! ### Tiles (R147 to R171) -/

/-- An operating-point change in progress (R169): the logical tile, the target, device time of its start. -/
structure OpChange where
  tile : Nat
  target : Nat
  start : Nat
  deriving DecidableEq, Repr

/-- A flow (R167): source and destination port, context, class, request or reply channel (R166). -/
structure MeshFlow where
  kind : MeshKind
  src : Nat
  dst : Nat
  ctx : Nat
  cls : Nat
  deriving DecidableEq, Repr

/-- Where a spillable buffer is (R160): in SRAM, on its way out, in the spill area, on its way back. -/
inductive BufPhase where
  | present
  | leaving
  | spilled
  | returning
  deriving DecidableEq, Repr

/-- An SRAM buffer in use (R160, R325): its tile, SRAM offset and bytes, the list that writes it, where it is, its offset in the spill area. -/
structure SramBuf where
  tile : Nat
  ofs : Nat
  len : Nat
  list : Nat
  phase : BufPhase
  spill : Nat
  deriving DecidableEq, Repr

/-- Tiles beside their registers. -/
structure TlState where
  opChanges : List OpChange
  /-- mesh requests that wait for their reply (R168, R324). -/
  reqs : List MeshMsg
  /-- SRAM buffers in use. -/
  bufs : List SramBuf
  /-- tiles that stall at the high mark, with the counter at which they began (R160). -/
  stalls : List (Nat × Nat)
  /-- correctable errors of DRAM rows since boot, by (4·vault + layer)·2^32 + row (R162). -/
  rowCe : List (Nat × Nat)
  /-- spare rows used at run time, by 4·vault + layer (R162). -/
  rowsUsed : List (Nat × Nat)
  /-- rows whose remap was denied (R162). -/
  denied : List Nat
  /-- flows in the mesh: the next sequence number due, by the flow (R167). -/
  flows : List (MeshFlow × Nat)
  /-- messages held because they came early, and replies retired before their turn (R167, R168): whether it is retired. -/
  early : List (MeshMsg × Bool)
  /-- tiles whose occupancy has crossed HIGH and not come back to it (R160). -/
  above : List Nat
  /-- 64-bit words that hold an uncorrectable error: 2·(local address / 8) in DRAM, 2·((ℓ·3 MiB + offset) / 8) + 1 in tile SRAM (R163). -/
  faulty : List Nat
  /-- scales of MX elements in tile SRAM that keep another block's scale than that of the packed block they lie in, by 32·(ℓ·3 MiB + byte offset of the block) + index (R185). -/
  scales : List (Nat × Nat)
  /-- the operand buffers A and B of a tile: the two halves of 16 KiB each, A first (R159). -/
  operands : List (Nat × List Bytes)
  deriving DecidableEq, Repr

/-! ### Fusion and results (R85 to R127) -/

/-- A merged sample (R87, R99): stream, device time, index within its packet, content, and whether it was stamped by capture fallback (R53). -/
structure Sample where
  stream : Nat
  /-- the sequence number of its packet (R66). -/
  seqNo : Nat
  time : Nat
  index : Nat
  data : Bytes
  fallback : Bool
  deriving DecidableEq, Repr

/-- A sealed result (R94 to R98, R118), kept until it is emitted and nothing binds it any more. -/
structure Result where
  emitted : Bool
  rs : Nat
  k : Nat
  t : Nat
  sealCode : Nat
  tq : Nat
  absent : Nat
  contributing : Nat
  age : Nat
  stale : Bool
  ptOvf : Bool
  suspect : Bool
  epoch : Nat
  calibNew : Bool
  variantCode : Nat
  sealTime : Nat
  /-- the counter at which its class-0 lists were complete, or it became partial (R98, R125). -/
  done : Option Nat
  /-- corridor key, 2^-8 mm (R107). -/
  key : Int
  samples : List Sample
  /-- the pose records it uses, newest first, and the body ring's records of their times, as held at the seal (R105, R106, R240). -/
  poses : List Bytes
  bodies : List (List Bytes)
  deriving DecidableEq, Repr

/-- A result set beside its registers (R86, R94 to R98, R112, R214, R301, R303). -/
structure FuSet where
  /-- the index of the Open result. -/
  k : Nat
  /-- the index of the next result to be voted and emitted. -/
  next : Nat
  /-- streams barred up to an instant (R97). -/
  bars : List (Nat × Nat)
  /-- the calibration epoch of the result sealed before. -/
  lastEpoch : Option Nat
  /-- the absent mask of the latest sealed result. -/
  lastAbsent : Nat
  /-- the counter at the latest seal (R94: one seal in a cycle). -/
  sealAt : Option Nat
  /-- seal times, newest first: (index, device time) (R102). -/
  seals : List (Nat × Nat)
  /-- runs of records with state other than 0, by measurand, and whether the run has been logged (R303). -/
  msRuns : List (Nat × (Nat × Bool))
  /-- the index Chervil checks next (R301). -/
  check : Nat
  deriving DecidableEq, Repr

/-- The verdict that holds from a sample on (R93). -/
structure Verdict where
  time : Nat
  withheld : Bool
  excluded : Bool
  deriving DecidableEq, Repr

/-- A stream as the fusion engine follows it, beside its registers (R92, R93). -/
structure FuStream where
  /-- holes: start, and the end once it is known. -/
  holes : List (Nat × Option Nat)
  /-- verdicts of the packets taken up, newest first. -/
  verdicts : List Verdict
  /-- the samples taken up of a stream that a problem reads, newest first: time, index in the packet, content (R233, R234 read them after their packets are released). -/
  past : List (Nat × Nat × Bytes)
  /-- the backward steps after which the stream's times have passed its watermark again (R103). -/
  caught : Nat
  deriving DecidableEq, Repr

/-- A result datagram (R124, R395, R397). -/
structure EgFrame where
  mac : Nat
  dstMac : Nat
  srcMac : Nat
  /-- the 802.1Q tag: class and VLAN. -/
  tag : Option (Nat × Nat)
  srcIp : Nat
  dstIp : Nat
  srcPort : Nat
  dstPort : Nat
  /-- don't-fragment. -/
  df : Bool
  /-- the UDP checksum. -/
  checksum : Nat
  payload : Bytes
  deriving DecidableEq, Repr

/-- An emission in progress (R124): the packet still to be written into its ring slot, and the datagrams still to enter the egress queue. -/
structure Emission where
  rs : Nat
  k : Nat
  ring : Option Bytes
  frames : List EgFrame
  deriving DecidableEq, Repr

/-- Fusion beside its registers. -/
structure FuState where
  /-- sealed results not yet emitted, or bound by instances, in order of sealing. -/
  results : List Result
  sets : List FuSet
  streams : List FuStream
  /-- the pose trajectory, newest record first (R104). -/
  poses : List Bytes
  emit : Option Emission
  /-- no result set is enabled and what a start does for all is still to come (R45, R86). -/
  bare : Bool
  /-- the counter at the latest take-up, and the complete packets taken up in its cycle, each with the sets it has a late record for (R95 step 4). -/
  taken : Nat × List (Packet × List Nat)
  deriving DecidableEq, Repr

/-! ### Point engine (R128 to R145) -/

/-- A point a build keeps (R128 to R132): its stream, time, coordinates in the grid frame, and its key with voxel and fractions when it lies in the region. -/
structure PtPoint where
  stream : Nat
  time : Nat
  key : Option Nat
  voxel : List Nat
  frac : List Nat
  deriving DecidableEq, Repr

/-- A leaf entry (R134): key, winning point and its stream, points in the cell, the winner's voxel and fractions. -/
structure PtLeaf where
  key : Nat
  point : Nat
  stream : Nat
  count : Nat
  voxel : List Nat
  frac : List Nat
  deriving DecidableEq, Repr

/-- The build in the point engine (R139): the list that owns it, its result and instant, the merged points that wait for ingest, the points kept, the pairs (key, point index), leaves, interior nodes of 24 bytes. -/
structure PtBuild where
  owner : Nat
  rs : Nat
  k : Nat
  tk : Nat
  stride : Nat
  attr : Desc
  scr : Desc
  points : List PtPoint
  pairs : List (Nat × Nat)
  cells : Nat
  leaves : List PtLeaf
  nodes : List Bytes
  deriving DecidableEq, Repr

/-! ### Corridor memory (R198 to R208) -/

/-- The corridor read in progress (R204): its list, the next segment, the bin of that segment once its read set is protected. -/
structure AtRead where
  list : Nat
  seg : Nat
  bin : Option Int
  deriving DecidableEq, Repr

/-- Corridor memory beside its registers and the page table. -/
structure AtState where
  /-- one past the latest result whose corridor write, and whose corridor read, has completed (R203). -/
  written : Nat
  readTo : Nat
  /-- no mode-1 ATTEND since the start (R198). -/
  fresh : Bool
  reading : Option AtRead
  /-- device time at which lists began to wait under R203: (list, time). -/
  waits : List (Nat × Nat)
  deriving DecidableEq, Repr

/-! ### Self-calibration (R212 to R226) -/

/-- Corrections in force from an instant on (R214): the commit result's instant, the epoch, the corrections of slots 0 to 23. -/
structure CbCommit where
  tc : Nat
  epoch : Nat
  cor : List (List Int)
  deriving DecidableEq, Repr

/-- Self-calibration beside its registers. -/
structure CbState where
  /-- velocities of each slot, FP32 words (R221). -/
  vel : List (List Nat)
  /-- commits, newest first. -/
  commits : List CbCommit
  deriving DecidableEq, Repr

/-! ### Host port (R375 to R385) and Ethernet (R395 to R397) -/

/-- The host port beside its registers. -/
structure HpState where
  /-- slots in state Sealed: (set, slot, sequence number) (R382). -/
  slots : List (Nat × Nat × Nat)
  /-- the slot a host result read is in progress on (R383). -/
  reading : Option (Nat × Nat)
  deriving DecidableEq, Repr

/-- A flit that waits or is unacknowledged: its class, ranks and payload, and the credits it returns once it is sent (R386). -/
structure LinkFlit where
  cls : Nat
  src : Nat
  dst : Nat
  payload : Bytes
  back : List Nat
  deriving DecidableEq, Repr

/-- A peer link beside its registers (R386 to R389). Classes 0, 1 and 2 are data, collective and abort. -/
structure LinkState where
  /-- the next sequence number expected, and the next to send. -/
  expect : Nat
  next : Nat
  /-- flits sent and not acknowledged, oldest first, with their sequence numbers. -/
  unacked : List (Nat × LinkFlit)
  /-- flits that wait for a credit or for room. -/
  waiting : List LinkFlit
  /-- credits held towards the peer, credits the peer holds, and credits to be returned with the next flit, by class. -/
  credits : List Nat
  given : List Nat
  owed : List Nat
  /-- consecutive resends of the oldest unacknowledged flit (R387). -/
  resends : Nat
  /-- device time of the last acknowledgement, resend, or first send after all was acknowledged (R4, R387). -/
  quiet : Nat
  /-- a NAK has been sent for the flit expected (R387). -/
  naked : Bool
  /-- counter at which a flit began to wait for a credit (R388). -/
  stallAt : Option Nat
  /-- flits handed to the transmitter, newest first. -/
  sent : List Bytes
  deriving DecidableEq, Repr

/-- Part of a collective received (R392): the list, the low 32 bits of IDX, the rank it comes from, its offset in that rank's source or slice, its bytes. -/
structure CollPart where
  list : Nat
  idx : Nat
  rank : Nat
  ofs : Nat
  data : Bytes
  deriving DecidableEq, Repr

/-- Peer links beside their registers. -/
structure LkState where
  /-- the hold of the job result set's start has reached its limit (R390). -/
  startOver : Bool
  /-- device time at which that start would have happened (R4, R390). -/
  startFrom : Option Nat
  links : List LinkState
  /-- collective parts held until their COLLECT takes them (R392). -/
  parts : List CollPart
  /-- the latest collective of each list this part has sent its own share of: (list, IDX). -/
  shared : List (Nat × Nat)
  deriving DecidableEq, Repr

/-- Ethernet beside its registers. -/
structure EnState where
  /-- the egress queue. -/
  queue : List EgFrame
  /-- frames handed to the MACs' transmitters, newest first. -/
  sent : List EgFrame
  /-- ARP replies handed to the MACs' transmitters, newest first: the MAC and the frame. -/
  arp : List (Nat × Bytes)
  /-- the gate-list entry in force on each MAC (R397). -/
  gates : List Nat
  /-- the credit of each MAC's shaper in 10^-3 bits, and the device time from which it grows (R397). -/
  shaper : List (Int × Nat)
  /-- timestamps of each MAC's last received and last sent PTP event message, in units of 250 ps (R396). -/
  rxStamps : List Nat
  txStamps : List Nat
  /-- peer-delay answers handed to the MACs' transmitters, newest first: the MAC and the message with its Ethernet header (R38, R397). -/
  pdelay : List (Nat × Bytes)
  deriving DecidableEq, Repr

/-! ### Tarragon (R227 to R240) -/

/-- A solution of a problem: its warm state once the solve completes (R235). -/
structure SvSol where
  /-- joint variables by degree of freedom. -/
  joints : List Int
  /-- rotation variables: quaternions w, x, y, z in Q2.30. -/
  rotations : List (List Int)
  /-- what else it carries, as the open value that stands for it (log entry 40). -/
  other : Nat
  deriving DecidableEq, Repr

/-- A tick's working buffer (R231, R237): the solution so far, and what its kernels have computed. -/
structure SvWork where
  sol : SvSol
  /-- FK: body poses, each as the open value that stands for it. -/
  poses : List Nat
  /-- JAC: residual rows, and the residuals. -/
  jac : List (List Int)
  err : List Int
  /-- DLS: the lower triangle of JᵀJ + λ²I, and Jᵀe. -/
  normal : List (List Int)
  rhs : List Int
  /-- LDLT: the solved vector. -/
  step : List Int
  /-- RNEA and ABA: what the outward passes hold by body, and the sums of the inward pass. -/
  motion : List Nat
  inward : List (List Int)
  deriving DecidableEq, Repr

/-- A tick of a problem (R233). -/
structure SvTick where
  /-- tick index j, and tick time t_j. -/
  j : Nat
  t : Nat
  /-- its inputs are there, or it is short: it may solve. -/
  ready : Bool
  /-- its first kernel step has begun: the start was judged warm or cold. -/
  begun : Bool
  short : Bool
  struct : Nat
  cold : Bool
  taint : Bool
  /-- kernel steps completed. -/
  pos : Nat
  cycles : Nat
  /-- image, problem, structure and gathered inputs, which its solution is computed from (log entry 40). -/
  key : List Nat
  work : SvWork
  /-- input samples gathered. -/
  samples : Nat
  sats : Nat
  /-- the list whose SOLVE made it. -/
  list : Option Nat
  deriving DecidableEq, Repr

/-- A problem beside its registers. -/
structure SvProb where
  /-- t₀ and the next tick's index (periodic). -/
  t0 : Option Nat
  next : Nat
  /-- ticks that have arisen and not published, in ascending time. -/
  ticks : List SvTick
  /-- the next tick starts cold: the first since the start, or since a context reset (R236). -/
  seed : Bool
  /-- the warm state (R235). -/
  warm : SvSol
  /-- outputs of the last solution published since the start, and its tick time (R238). -/
  lastOut : Option (Bytes × Nat)
  /-- records published since the start. -/
  pubs : Nat
  /-- the watermark (R237). -/
  wm : Option Nat
  /-- consecutive stale and fresh records (R241). -/
  staleRun : Nat
  freshRun : Nat
  deriving DecidableEq, Repr

/-- Tarragon beside its registers. -/
structure SvState where
  probs : List SvProb
  /-- the problem solving. -/
  cur : Option Nat
  /-- the body ring, newest first: one list of pose records per tick (R240). -/
  bodies : List (List Bytes)
  /-- the SRAM image: body tables, programs, Q tables (R227). -/
  image : Bytes
  deriving DecidableEq, Repr

/-! ### Control outputs (R241 to R244) -/

/-- A time in a trigger output's queue: whether it was past when written (R50). -/
structure TrgTime where
  out : Nat
  time : Nat
  late : Bool
  deriving DecidableEq, Repr

/-- A capture: its value in units of 250 ps, and whether the edge rose (R49). -/
structure Capture where
  value : Nat
  rise : Bool
  deriving DecidableEq, Repr

/-- What a CAN controller last drove onto its bus: it sends nothing but these (R245). -/
inductive CanDrive where
  | none
  | acknowledge
  | errorFrame
  deriving DecidableEq, Repr

/-- The control outputs and captures beside their registers. -/
structure IoState where
  /-- what each CAN controller drove at the last frame on its bus (R245). -/
  can : List CanDrive
  /-- active trigger pulses: (output, device time of the end). -/
  pulses : List (Nat × Nat)
  /-- where each output's last fire places its edge within its Thyme cycle, in units of 250 ps (R50). -/
  edges : List (Nat × Nat)
  /-- capture FIFOs, oldest first (R244). -/
  caps : List (List Capture)
  /-- latches of IO_CAP_HI and IO_CAP_EXT by 16·requester + capture; none after a read of an empty FIFO (R244). -/
  capLatch : List (Nat × Option Capture)
  /-- queued trigger times, oldest first. -/
  queue : List TrgTime
  /-- periodic outputs: the next fire time. -/
  next : List (Nat × Nat)
  /-- the tick index each PWM output applies next (R241). -/
  due : List Nat
  /-- duties published and not yet applied: (output, (tick index, duty)). -/
  duties : List (Nat × (Nat × Nat))
  deriving DecidableEq, Repr

/-! ### Power (R359 to R373) -/

/-- Power beside its registers. -/
structure PwState where
  /-- parked in the Lovage-only state, which no register shows (R369). -/
  lovageOnly : Bool
  /-- a park in progress keeps DRAM (R368). -/
  retain : Bool
  /-- device time of the acceptance of the park in progress, from which the drain limit runs (R369). -/
  parkAt : Nat
  /-- counter at step 8 of the park (R369). -/
  parkedAt : Nat
  /-- alarms converted at park: (alarm, counter value) (R365). -/
  alarms : List (Nat × Nat)
  /-- armed alarms whose time was past when it was written (R50). -/
  late : List Nat
  /-- a park request that waits for a recovery: RETAIN (R368). -/
  waiting : Option Bool
  /-- the wake latch set in steps 1 to 7, and what the start it causes will meet (R371). -/
  wake : Option (Nat × BootInputs)
  /-- PWR_EN_MAIN and PWR_EN_MEM (R407). -/
  pwrMain : Bool
  pwrMem : Bool
  deriving DecidableEq, Repr

/-! ### Boot (R339 to R358) -/

/-- Boot, NVM and identity beside their registers. -/
structure BtState where
  /-- SM3 digest of the accepted signer's key in OTP (R339). -/
  keyDigest : Bytes
  /-- nonce bytes of the attestation request, which no read shows (R356, R358). -/
  nonce : Bytes
  /-- the manifest, and the retained sections by manifest entry, of the shadow area (R354). -/
  manifest : Bytes
  shadow : List (Nat × Bytes)
  /-- the boot step an attempt is in; 0 while none is (R343). -/
  step : Nat
  /-- counter at the release of reset of the attempt (R344). -/
  start : Nat
  /-- counter at the start of the 100 ms hold (R345). -/
  hold : Option Nat
  /-- the part is in reset and waits for its release. -/
  inReset : Bool
  /-- the attempt in progress is a resume (R373). -/
  resuming : Bool
  /-- the minimal-mode flash command in progress: OP, address, data (R352). -/
  nvmJob : Option (Nat × (Nat × Bytes))
  /-- addresses of type-6 records that name no LK register or set other bits (R341). -/
  badRecs : List Nat
  /-- firmware of control cores 0 to 7, and of Chervil as 8 (R340). -/
  code : List (Nat × Bytes)
  /-- the retained outcome of tile BIST (R364, R373). -/
  bist : BistOutcome
  /-- a lock has come since the power-on reset or the Lovage-only park: the next boot restores the calibration (R222). -/
  warm : Bool
  deriving DecidableEq, Repr

/-- The IEEE 1149.1 port (R357): its current instruction, and what the data register that it selects captures; none for the boundary register, whose cells the spec does not list. -/
structure JtState where
  instr : JtagInstr
  data : Option Word
  deriving DecidableEq, Repr

/-- The level-driven output pins as the last command left them (R288, R296, R298, R357): asserted, or high for HEARTBEAT; `extest`: EXTEST drives the pins. PWR_EN_MAIN and PWR_EN_MEM stand with power, trigger and PWM outputs in their own state. -/
structure Pins where
  faultN : Bool
  heartbeat : Bool
  hostIntA : Bool
  hostIntB : Bool
  extest : Bool
  deriving DecidableEq, Repr

/-! ### Recovery (R317 to R337) -/

/-- A crash record that is not complete (R321): its slot, and what its snapshot froze: the registers, those shown from elsewhere, the 1 µs tick, counts the context's instances hold on semaphores, the context's requests and whether each was answered with an error. -/
structure CrashJob where
  slot : Nat
  ctx : Option Nat
  regs : List (Nat × Word)
  views : List (Nat × Word)
  tick : Nat
  sems : List (Nat × Nat)
  reqs : List (MeshMsg × Bool)
  deriving DecidableEq, Repr

/-- A context reset in progress (R324): device time of the trigger, the slot of its record, whether that is settled (complete or late), the results it marked. -/
structure CtxReset where
  ctx : Nat
  start : Nat
  slot : Nat
  settled : Bool
  marked : List (Nat × Nat)
  deriving DecidableEq, Repr

/-- A partition reset in progress (R328): device time of the trigger, the slot of its record, whether that is settled, the contexts it covers, whether its tiles are reset with the new tag, and whether they are ready to restart. -/
structure PartReset where
  part : Nat
  start : Nat
  slot : Nat
  settled : Bool
  ctxs : List Nat
  cleared : Bool
  ready : Bool
  deriving DecidableEq, Repr

/-- Recovery beside its registers. -/
structure RcState where
  jobs : List CrashJob
  ctxs : List CtxReset
  parts : List PartReset
  /-- device time of each partition's last reset (R329). -/
  lastPart : List (Nat × Nat)
  /-- the fusion engine is held (R331). -/
  fusionHeld : Bool
  /-- a device warm reset waits for its record or its 1 ms (R4, R332): device time of its trigger. -/
  devReset : Option Nat
  /-- ranks that left the job since the start, in order (R336). -/
  absent : List Nat
  /-- device time of the last collective message of each rank (R337). -/
  heard : List (Nat × Nat)
  /-- RC_JOB_RESUME holds a resume sequence since the start (R336). -/
  resumeSet : Bool
  /-- job aborts and take-overs sent, newest first: level (3 for a take-over), resume sequence, byte 0 of the cause detail (R335, R337, R394). -/
  sent : List (Nat × (Nat × Nat))
  deriving DecidableEq, Repr

/-! ### Outputs -/

/-- What the host port last answered (R376): status, tag, data. -/
structure HostResp where
  status : Nat
  tag : Nat
  data : Bytes
  deriving DecidableEq, Repr

/-- The state of the block. -/
structure State where
  /-- control registers that differ from their reset values (R5, R6, R401). -/
  regs : List (Nat × Word)
  /-- DRAM bytes by local device address (R26, R27). -/
  dram : List Host.Cell
  /-- tile SRAM bytes by ℓ·3 MiB + offset (R159). -/
  sram : List Host.Cell
  /-- NVM bytes (R339). -/
  nvm : List Host.Cell
  thy : ThyState
  ev : EvState
  ig : IgState
  sf : SfState
  cl : ClState
  mj : MjState
  tl : TlState
  fu : FuState
  /-- the build in the point engine; none when idle (R139). -/
  pt : Option PtBuild
  at_ : AtState
  cb : CbState
  hp : HpState
  lk : LkState
  en : EnState
  sv : SvState
  io : IoState
  pw : PwState
  bt : BtState
  jt : JtState
  pins : Pins
  rc : RcState
  hostResp : HostResp
  /-- what each control core's last read returned. -/
  coreData : List Word
  /-- the MODEL's own counter of free values. -/
  freeCtr : Nat
  /-- commands that wait, first in, first out. -/
  pending : List Instr
  deriving DecidableEq, Repr

/-- Reasons a step stops with a fault: none is needed, since every access the commands make is to an address the spec gives a meaning. -/
inductive Fault where
  deriving DecidableEq, Repr

/-- Reasons a command is refused by the model. -/
inductive Refusal where
  /-- raised by the dispatch arm of a command that has no meaning yet; safe. -/
  | notModelled (mnemonic : String)
  deriving DecidableEq, Repr

/-- The triple after Lovage power-up: all zero (R57). -/
def Triple.zero : Triple := ⟨0, 0, 0, 0⟩

/-- A clock model's own state after reset (R57). -/
def SensorClock.zero : SensorClock := ⟨none, false, [], 0, none, 0⟩

/-- A stream after reset. -/
def StreamIn.zero : StreamIn :=
  { fifo := [], open_ := none, ovrPend := false, discard := 0, resyncMark := none, timer := 0,
    frameOpen := false, lineOpen := false, fnum := 0, frameLines := 0, frameSrc := none, frameStamp := none,
    latCrc := 0, wholeCrc := 0, embedded := none, prevSig := none, eqRun := 0, diffRun := 0, prevCtr := none }

/-- Thyme after Lovage power-up (R33, R57). -/
def ThyState.zero : ThyState :=
  { counter := 0, triple := .zero, tq := .free, consec := 0, lastMeas := none, timedOut := false, holdFrom := none, run := none, arm := none,
    stepAt := none, rateAt := none, past := [], stepSpan := none, backs := 0, latches := List.replicate 9 ⟨0, 0, 0, .zero⟩, wheelEdge := List.replicate 12 0,
    holdStart := none, holdOver := false, sync := none, pair := none, linkDelay := 0, lastAnnounce := none, altActive := false,
    refPresent := true, clocks := List.replicate 48 .zero }

/-- The event controller after reset. -/
def EvState.zero : EvState :=
  { cores := List.replicate 8 ⟨none, []⟩, starts := [], high := [], late := List.replicate 9 0, latches := 0, armed := 0 }

/-- Ingress after reset. -/
def IgState.zero : IgState :=
  { streams := List.replicate 48 .zero, phases := List.replicate 12 (false, false), imu := List.replicate 4 none, spi := List.replicate 4 none }

/-- A result set before its first start. -/
def FuSet.zero : FuSet := ⟨0, 0, [], none, 0, none, [], [], 0⟩

/-- Tiles after reset. -/
def TlState.zero : TlState :=
  { opChanges := [], reqs := [], bufs := [], stalls := [], rowCe := [], rowsUsed := [], denied := [], flows := [], early := [], above := [], faulty := [], scales := [], operands := [] }

/-- Fusion after reset. -/
def FuState.zero : FuState := ⟨[], List.replicate 4 .zero, List.replicate 48 ⟨[], [], [], 0⟩, [], none, false, (0, [])⟩

/-- A problem before its first start. -/
def SvProb.zero : SvProb := ⟨none, 0, [], true, ⟨[], [], 0⟩, none, 0, none, 0, 0⟩

/-- Tarragon after reset. -/
def SvState.zero : SvState := ⟨List.replicate 32 .zero, none, [], []⟩

/-- The control outputs after reset. -/
def IoState.zero : IoState := ⟨[.none, .none], [], [], List.replicate 16 [], [], [], [], List.replicate 12 0, []⟩

/-- Self-calibration after reset: epoch 0, zero corrections and velocities (R222). -/
def CbState.zero : CbState := ⟨List.replicate 24 (List.replicate 7 0), [⟨0, 0, List.replicate 24 (List.replicate 7 0)⟩]⟩

/-- Chervil after its reset: Off (R297). -/
def SfState.zero : SfState := ⟨.off, [], 0, [], none, [], [], [], [], []⟩

/-- A peer link before training. -/
def LinkState.zero : LinkState := ⟨0, 0, [], [], [0, 0, 0], [0, 0, 0], [0, 0, 0], 0, 0, false, none, []⟩

/-- The peer links before training. -/
def LkState.zero : LkState := ⟨false, none, List.replicate 4 .zero, [], []⟩

/-- Ethernet after reset. -/
def EnState.zero : EnState := ⟨[], [], [], List.replicate 4 0, List.replicate 4 (0, 0), List.replicate 4 0, List.replicate 4 0, []⟩

/-- Power at the first release of reset: both outputs high (R407). -/
def PwState.zero : PwState := ⟨false, false, 0, 0, [], [], none, none, true, true⟩

/-- Boot in reset (log entries 10 and 50). -/
def BtState.zero : BtState :=
  { keyDigest := List.replicate 32 0, nonce := List.replicate 16 0, manifest := [], shadow := [], step := 0, start := 0, hold := none,
    inReset := true, resuming := false, nvmJob := none, badRecs := [], code := [], bist := ⟨[], [], [], []⟩, warm := false }

/-- The machine right after reset. -/
def State.reset : State :=
  { regs := [], dram := [], sram := [], nvm := [], thy := .zero, ev := .zero, ig := .zero,
    sf := .zero, cl := ⟨[], [], [], [], List.replicate 9 0, []⟩, mj := ⟨300000, [], 0, none, none, false, List.replicate 64 0, none, none, List.replicate 64 0⟩,
    tl := .zero, fu := .zero, pt := none, at_ := ⟨0, 0, true, none, []⟩, cb := .zero, hp := ⟨[], none⟩, lk := .zero, en := .zero, sv := .zero, io := .zero, pw := .zero, bt := .zero, jt := ⟨.idcode, some 0x1098858B⟩, pins := ⟨true, false, false, false, false⟩, rc := ⟨[], [], [], [], false, none, [], [], false, []⟩,
    hostResp := ⟨0, 0, []⟩, coreData := List.replicate 8 0, freeCtr := 0, pending := [] }

end Sys2Proof.Machine
end

