-- ==== Sys2Proof/Machine/Ops.lean ====
section
/-! DEFINITION. The named operations every block uses: control registers and their fields, Thyme's counter and device time, DRAM, violation records, event occurrences, the safety log, and the answers of the host port. -/

namespace Sys2Proof.Machine

/-! ### Control registers (R5, R6) -/

/-- The word held at a control address. -/
def State.readReg (s : State) (a : Nat) : Word := Memory.read regReset s.regs a

/-- `w` at a control address. -/
def State.writeReg (s : State) (a : Nat) (w : Word) : State := { s with regs := Memory.write regReset s.regs a w }

/-- A field's value. -/
def State.get (s : State) (f : Field) : Nat := bitsOf (s.readReg f.addr).toNat f.lo f.width

/-- A field given a value; the register's other bits stay. -/
def State.set (s : State) (f : Field) (n : Nat) : State :=
  s.writeReg f.addr (BitVec.ofNat 32 (putBits (s.readReg f.addr).toNat f.lo f.width n))

/-- A one-bit field as a truth value. -/
def State.flag (s : State) (f : Field) : Bool := s.get f == 1

/-- A one-bit field set or cleared. -/
def State.setFlag (s : State) (f : Field) (b : Bool) : State := s.set f (b2n b)

/-- A field read as two's complement. -/
def State.getI (s : State) (f : Field) : Int := signedOf f.width (s.get f)

/-- A field given a two's complement value, wrapped. -/
def State.setI (s : State) (f : Field) (i : Int) : State := s.set f (patternOf f.width i)

/-- A 64-bit value in two registers. -/
def State.get64 (s : State) (lo hi : Field) : Nat := s.get lo + 2 ^ 32 * s.get hi

/-- Two registers given a 64-bit value. -/
def State.set64 (s : State) (lo hi : Field) (n : Nat) : State := (s.set lo (n % 2 ^ 32)).set hi (n / 2 ^ 32)

/-- A saturating counter field raised by `k`. -/
def State.addSat (s : State) (f : Field) (k : Nat) : State := s.set f (satNat f.width (s.get f + k))

/-- A saturating counter field raised by one. -/
def State.incSat (s : State) (f : Field) : State := s.addSat f 1

/-- A wrapping counter field raised by one. -/
def State.incWrap (s : State) (f : Field) : State := s.set f (s.get f + 1)

/-- Bit `i` of a mask kept in a LO and a HI register. -/
def State.maskBit (s : State) (lo hi : Field) (i : Nat) : Bool := bitOf (s.get64 lo hi) i

/-- Bit `i` of a LO and HI mask set or cleared. -/
def State.setMaskBit (s : State) (lo hi : Field) (i : Nat) (b : Bool) : State :=
  if i < 32 then s.set lo (putBit (s.get lo) i b) else s.set hi (putBit (s.get hi) (i - 32) b)

/-- Register words from address `a` on, one per four bytes. -/
def State.writeWords (s : State) (a : Nat) : List Nat → State
  | [] => s
  | w :: ws => (s.writeReg a (BitVec.ofNat 32 w)).writeWords (a + 4) ws

/-- Little-endian 32-bit words of a run of bytes (`k` words). -/
def wordsOf : Nat → Bytes → List Nat
  | 0, _ => []
  | k + 1, bs => leNat (bs.take 4) :: wordsOf k (bs.drop 4)

/-- The bytes of a run of register words. -/
def State.regBytes (s : State) (a : Nat) : Nat → Bytes
  | 0 => []
  | k + 1 => leBytes 4 (s.readReg a).toNat ++ s.regBytes (a + 4) k

/-! ### Serial comparison (R7) -/

/-- `a` is later than `b` by half-range arithmetic on `w` bits (R7). -/
def serialLater (w a b : Nat) : Bool :=
  let d := (a % 2 ^ w + 2 ^ w - b % 2 ^ w) % 2 ^ w
  decide (1 ≤ d) && decide (d < 2 ^ (w - 1))

/-! ### Thyme's counter and device time (R33, R34) -/

/-- The part is parked: retained, or in the Lovage-only state (R364). -/
def State.parked (s : State) : Bool := s.get F.PW_STATUS_STATE == 2 || s.pw.lovageOnly

/-- Nanoseconds the counter advances per cycle of the clock that counts it (R33, R367). -/
def State.cycleNs (s : State) : Nat := if s.thy.refPresent then (if s.parked then 40 else 2) else 0

/-- `dt` cycles pass (R33). -/
def State.elapse (s : State) (dt : Nat) : State :=
  { s with thy := { s.thy with counter := (s.thy.counter + dt * s.cycleNs) % 2 ^ 64 } }

/-- delta of R34: counter minus anchor as a signed 64-bit number. -/
def Triple.delta (t : Triple) (c : Nat) : Int := signedOf 64 (patternOf 64 ((c : Int) - (t.anchor : Int)))

/-- sum of R34. -/
def Triple.sum (t : Triple) (c : Nat) : Int := ((t.offFrac * 2 ^ 24 : Nat) : Int) + t.delta c * t.rate

/-- Device time of R34 at counter value `c`. -/
def Triple.time (t : Triple) (c : Nat) : Nat := patternOf 64 ((c : Int) + t.offInt + t.sum c / ((2 ^ 40 : Nat) : Int))

/-- The device time's fraction in 2^-16 ns (R34). -/
def Triple.frac (t : Triple) (c : Nat) : Nat := patternOf 16 (t.sum c / ((2 ^ 24 : Nat) : Int))

/-- Device time now. -/
def State.now (s : State) : Nat := s.thy.triple.time s.thy.counter

/-- The time quality code (R41). -/
def State.tq (s : State) : Nat := s.get F.TB_STATUS_TQ

/-- Cycles of the 600 MHz event island counted from the Thyme counter (R290). -/
def State.evCycle (s : State) : Nat := s.thy.counter * 3 / 5

/-- The number of logical tiles and vaults (R10, R150). -/
def State.tiles (s : State) : Nat := 12 * s.get F.GLB_STATUS_COLS

/-- The partition of a logical tile (R11): tile ℓ lies in column ℓ / 12. -/
def State.partOfTile (s : State) (l : Nat) : Nat :=
  let c := l / 12
  if c < 8 then bitsOf (s.get F.GLB_PART_LO) (4 * c) 4 else bitsOf (s.get F.GLB_PART_HI) (4 * (c - 8)) 4

/-- The logical tiles of a partition, ascending. -/
def State.tilesOfPart (s : State) (p : Nat) : List Nat :=
  (List.range s.tiles).filter (fun l => s.partOfTile l == p)

/-! ### DRAM (R26, R27, R150) -/

/-- The local address a device address maps to; none where the map of R26 and R150 has nothing. -/
def State.toLocal (s : State) (a : Nat) : Option Nat :=
  let v := s.tiles
  if a / 2 ^ 28 < v then some a
  else
    let d := a - 0x1000000000
    let stripe := d / 4096
    if 0x1000000000 ≤ a && decide (d / 2 ^ 28 < v) then some ((stripe % v) * 2 ^ 28 + (stripe / v * 4096 + d % 4096)) else none

/-- What an unlisted DRAM or SRAM byte reads as (log entry 8). -/
def ramDefault (_ : Nat) : Byte := 0

/-- A byte of DRAM by device address. -/
def State.dramByte (s : State) (a : Nat) : Byte := (s.toLocal a).elim 0 (fun l => Memory.read ramDefault s.dram l)

/-- `n` bytes of DRAM from a device address. -/
def State.dramRead (s : State) (a n : Nat) : Bytes := (List.range n).map (fun i => s.dramByte (a + i))

/-- A byte written to DRAM by device address; an unmapped address takes nothing (no command reaches one, R28). -/
def State.dramPut (s : State) (a : Nat) (b : Byte) : State :=
  (s.toLocal a).elim s (fun l => { s with dram := Memory.write ramDefault s.dram l b })

/-- Bytes written to DRAM from a device address on. -/
def State.dramWrite (s : State) (a : Nat) : Bytes → State
  | [] => s
  | b :: bs => (s.dramPut a b).dramWrite (a + 1) bs

/-- A little-endian number of `n` bytes in DRAM. -/
def State.dramNat (s : State) (a n : Nat) : Nat := leNat (s.dramRead a n)

/-! ### Tile SRAM (R159) -/

/-- Bytes of one tile's SRAM: 3 MiB. -/
def sramSize : Nat := 0x300000

/-- A byte of a logical tile's SRAM. -/
def State.sramByte (s : State) (l ofs : Nat) : Byte := if ofs < sramSize then Memory.read ramDefault s.sram (l * sramSize + ofs) else 0

/-- `n` bytes of a tile's SRAM. -/
def State.sramRead (s : State) (l ofs n : Nat) : Bytes := (List.range n).map (fun i => s.sramByte l (ofs + i))

/-- Bytes written to a tile's SRAM; nothing lies beyond its end. -/
def State.sramWrite (s : State) (l ofs : Nat) (bs : Bytes) : State :=
  { s with sram := Memory.writeRange ramDefault s.sram (l * sramSize + ofs) (bs.take (sramSize - ofs)) }

/-! ### Words with an uncorrectable error (R163) -/

/-- The key of the DRAM word that holds a local address. -/
def dramWord (a : Nat) : Nat := 2 * (a / 8)

/-- The key of the word that holds an offset of a tile's SRAM. -/
def sramWord (l ofs : Nat) : Nat := 2 * ((l * sramSize + ofs) / 8) + 1

/-- Words of 8 bytes that lie whole in `n` bytes from `a` on, by their first address. -/
def wholeWords (a n : Nat) : List Nat :=
  let first := (a + 7) / 8
  (List.range ((a + n) / 8 - first)).map (fun i => 8 * (first + i))

/-- Words given anew end their errors. -/
def State.endErrors (s : State) (ks : List Nat) : State :=
  { s with tl := { s.tl with faulty := s.tl.faulty.filter (fun k => !ks.contains k) } }

/-- A write of `n` bytes of DRAM from a device address on rewrites the check bits of every whole word of them (R163). -/
def State.healDram (s : State) (a n : Nat) : State :=
  if s.tl.faulty.isEmpty then s else s.endErrors ((wholeWords a n).filterMap (fun w => (s.toLocal w).map dramWord))

/-- Bytes stored in DRAM by an engine: the bytes, and the check bits of whole words (R163). -/
def State.dramStore (s : State) (a : Nat) (bs : Bytes) : State := (s.dramWrite a bs).healDram a bs.length

/-- Bytes stored in a tile's SRAM: the bytes, the check bits of whole words (R163), and no scale kept beside them (R185). -/
def State.sramStore (s : State) (l ofs : Nat) (bs : Bytes) : State :=
  let s := s.sramWrite l ofs bs
  let s := if s.tl.faulty.isEmpty then s else s.endErrors ((wholeWords ofs bs.length).map (sramWord l))
  let lo := 32 * (l * sramSize + ofs)
  { s with tl := { s.tl with scales := s.tl.scales.filter (fun x => decide (x.1 < lo) || decide (lo + 32 * bs.length ≤ x.1)) } }

/-- A read of DRAM meets a faulty word: its local address (R163). -/
def State.faultyDram (s : State) (a n : Nat) : Option Nat :=
  if s.tl.faulty.isEmpty then none
  else ((List.range n).filterMap (fun i => s.toLocal (a + i))).find? (fun x => s.tl.faulty.contains (dramWord x))

/-- A read of tile SRAM meets a faulty word: its offset (R163). -/
def State.faultySram (s : State) (l ofs n : Nat) : Option Nat :=
  if s.tl.faulty.isEmpty then none else ((List.range n).map (fun i => ofs + i)).find? (fun x => s.tl.faulty.contains (sramWord l x))

/-! ### Streams and small state parts -/

/-- The ingress state of stream n. -/
def State.stream (s : State) (n : Nat) : StreamIn := s.ig.streams.getD n .zero

/-- The ingress state of stream n changed. -/
def State.setStream (s : State) (n : Nat) (x : StreamIn) : State :=
  { s with ig := { s.ig with streams := setAt s.ig.streams n x } }

/-- The clock model's own state of stream n. -/
def State.clock (s : State) (n : Nat) : SensorClock := s.thy.clocks.getD n .zero

/-- The clock model's own state of stream n changed. -/
def State.setClock (s : State) (n : Nat) (x : SensorClock) : State :=
  { s with thy := { s.thy with clocks := setAt s.thy.clocks n x } }

/-- The free value counter advanced (log entry 3). -/
def State.nextFree (s : State) : State := { s with freeCtr := s.freeCtr + 1 }

/-! ### Events: occurrences (R281, R283, R284) -/

/-- The event controller's state of core c. -/
def State.evCore (s : State) (c : Nat) : EvCore := s.ev.cores.getD c ⟨none, []⟩

/-- The event controller's state of core c changed. -/
def State.setEvCore (s : State) (c : Nat) (x : EvCore) : State :=
  { s with ev := { s.ev with cores := setAt s.ev.cores c x } }

/-- A source's state code (EV_S_STAT.STATE) changed, with EV_PEND and EV_STATUS.DELIVERABLE kept (R294). -/
def State.evSetState (s : State) (src st : Nat) : State :=
  let old := s.get (F.EV_S_STAT_STATE src)
  let s := s.set (F.EV_S_STAT_STATE src) st
  let s := s.set (F.EV_PEND (src / 32)) (putBit (s.get (F.EV_PEND (src / 32))) (src % 32) (st == 2 || st == 3))
  s.set F.EV_STATUS (s.get F.EV_STATUS + b2n (st == 2) - b2n (old == 2))

/-- The start of a source's coalescing timer: the counter at its first undelivered occurrence (R283). -/
def State.evStart (s : State) (src : Nat) : State :=
  { s with ev := { s.ev with starts := assocPut src s.thy.counter s.ev.starts } }

/-- A source with occurrences is Counting or Deliverable by its COUNT (R283). -/
def State.evCountState (s : State) (src : Nat) : State :=
  s.evSetState src (if s.get (F.EV_S_COAL_COUNT src) ≤ s.get (F.EV_S_STAT_COUNT src) then 2 else 1)

/-- One occurrence of an enabled source (R283, source states of R290). -/
def State.raise (s : State) (src : Nat) : State :=
  if s.flag (F.EV_S_CFG_EN src) then
    let first := s.get (F.EV_S_STAT_COUNT src) == 0
    let s := s.incSat (F.EV_S_STAT_COUNT src)
    let s := if first then s.evStart src else s
    match s.get (F.EV_S_STAT_STATE src) with
    | 0 => s.evCountState src
    | 1 => s.evCountState src
    | 4 => s.evSetState src 5
    | _ => s
  else s

/-! ### Rings and violation records (R81 to R83, R378) -/

/-- A record written into a ring of `entries` records of `words` words: the record, NEXT and TOTAL. -/
def State.ringPut (s : State) (base words entries : Nat) (next total : Field) (record : Bytes) : State :=
  let n := s.get next
  let s := s.writeWords (base + 4 * words * n) (wordsOf words record)
  (s.set next ((n + 1) % entries)).incWrap total

/-- Codes whose detail begins with a stream number (R83). -/
def streamCode (code : Nat) : Bool :=
  [0x01, 0x02, 0x03, 0x04, 0x05, 0x06, 0x07, 0x11, 0x13, 0x14, 0x15, 0x22, 0x23, 0x24, 0x25, 0x26, 0x50, 0x51, 0x60].contains code

/-- What R82 orders the records of one cycle by: the stream number, records without one first (log entry 98), then the code. -/
def violationOrder (record : List Nat) : Nat :=
  let w := record.getD 2 0
  let code := bitsOf w 8 8
  (if bitsOf w 0 8 ≤ 0x12 && streamCode code then 1 + bitsOf w 16 8 else 0) * 256 + code

/-- Record n of a violation ring. -/
def State.ringRecord (s : State) (base n : Nat) : List Nat := (List.range 4).map (fun i => (s.readReg (base + 16 * n + 4 * i)).toNat)

/-- A record enters a ring of 64 at record n or, past records of its own cycle that come after it, at most `k` places before (R82); those move up. Records of one cycle bear one device time. -/
def State.ringPlace (s : State) (base : Nat) (record : List Nat) : Nat → Nat → State
  | 0, n => s.writeWords (base + 16 * n) record
  | k + 1, n =>
    let before := s.ringRecord base ((n + 63) % 64)
    if before.take 2 == record.take 2 && decide (violationOrder record < violationOrder before) then
      (s.writeWords (base + 16 * n) before).ringPlace base record k ((n + 63) % 64)
    else s.writeWords (base + 16 * n) record

/-- A record written into a violation ring in the order of R82: NEXT and TOTAL. -/
def State.violationPut (s : State) (base : Nat) (next total : Field) (record : Bytes) : State :=
  let n := s.get next
  let s := s.ringPlace base (wordsOf 4 record) (min 63 (s.get total)) n
  (s.set next ((n + 1) % 64)).incWrap total

/-- A violation record (R81): device time, interface, code, six detail bytes. -/
def violationRecord (now iface code : Nat) (detail : Bytes) : Bytes :=
  leBytes 8 now ++ [BitVec.ofNat 8 iface, BitVec.ofNat 8 code] ++ sliceB detail 0 6

/-- A violation record in the ring of an interface, with the interface's event 0x0D0 + id (R81, R82, R292). -/
def State.violation (s : State) (iface code : Nat) (detail : Bytes) : State :=
  let record := violationRecord s.now iface code detail
  let s :=
    if iface ≤ 0x12 then s.violationPut (F.IG_VR iface 0).addr (F.IG_VR_IDX_NEXT iface) (F.IG_VR_IDX_TOTAL iface) record
    else if iface == 0x13 then s.violationPut (F.HP_VR 0).addr F.HP_VR_IDX_NEXT F.HP_VR_IDX_TOTAL record
    else if iface ≤ 0x17 then
      s.violationPut (F.LK_VR (iface - 0x14) 0).addr (F.LK_VR_IDX_NEXT (iface - 0x14)) (F.LK_VR_IDX_TOTAL (iface - 0x14)) record
    else s.violationPut (F.BT_NVM_RING 0).addr F.BT_NVM_VR_IDX_NEXT F.BT_NVM_VR_IDX_TOTAL record
  s.raise (0x0D0 + iface)

/-- A violation on a stream: the record, IG_VIOL and the stream's event 0x0A0 + n (R83, R84, R292). -/
def State.streamViolation (s : State) (iface code : Nat) (detail : Bytes) (n : Nat) : State :=
  ((s.violation iface code detail).incSat (F.IG_VIOL n)).raise (0x0A0 + n)

/-! ### The safety log and the safe state (R296, R303, R313) -/

/-- A safety log record (R313). -/
structure SafetyRec where
  code : Nat
  severity : Nat
  step : Bool
  object : Nat
  ctx : Nat
  rs : Nat
  seqNo : Nat
  detail : Nat
  limit : Nat
  deriving DecidableEq, Repr

/-- A record of a code and severity about nothing in particular. -/
def SafetyRec.of (code severity : Nat) : SafetyRec := ⟨code, severity, false, 0xFFFF, 0xFF, 0xFF, 0, 0, 0⟩

/-- The 32 bytes of a safety log record (R313). -/
def SafetyRec.bytes (r : SafetyRec) (now : Nat) : Bytes :=
  leBytes 8 now ++ [BitVec.ofNat 8 r.code, BitVec.ofNat 8 (r.severity % 4 + 4 * b2n r.step)] ++ leBytes 2 r.object ++
    [BitVec.ofNat 8 r.ctx, BitVec.ofNat 8 r.rs, 0, 0] ++ leBytes 4 r.seqNo ++ leBytes 4 r.detail ++ leBytes 8 r.limit

/-- A record written into the safety log, with event 0x178 (R313, R314). -/
def State.safetyLog (s : State) (r : SafetyRec) : State :=
  (s.ringPut (F.SF_EVENT_LOG 0).addr 8 256 F.SF_LOG_IDX_NEXT F.SF_LOG_IDX_TOTAL (r.bytes s.now)).raise 0x178

/-- FAULT_N driven low or released: SF_STATUS.FAULT and GLB_STATUS.FAULT are its home (R32, R316). -/
def State.setFaultN (s : State) (asserted : Bool) : State :=
  (s.setFlag F.SF_STATUS_FAULT asserted).setFlag F.GLB_STATUS_FAULT asserted

/-- The output that gives output w its configuration: the even one of a pair in PAIR mode (R242). -/
def State.pwmLead (s : State) (w : Nat) : Nat := if s.flag (F.IO_PWM_CFG_PAIR (w / 2 * 2)) then w / 2 * 2 else w

/-- Every enabled PWM output at its SAFE level (R241). -/
def State.pwmSafe (s : State) : Nat → State
  | 0 => s
  | w + 1 => (s.pwmSafe w).setFlag (F.IO_PWM_STAT_SAFE w) (s.flag (F.IO_PWM_CFG_EN w) || s.flag (F.IO_PWM_CFG_EN (s.pwmLead w)) || s.flag (F.IO_PWM_STAT_SAFE w))

/-- The outputs held while FAULT_N is asserted: PWM at SAFE with event 0x139, triggers inactive (R241, R296). -/
def State.outputsSafe (s : State) : State :=
  let s := (s.pwmSafe 12).raise 0x139
  { s with io := { s.io with pulses := [] } }

/-- A fatal fault: its log record, and the safe state unless it holds already (R296, R297). -/
def State.fatal (s : State) (r : SafetyRec) : State :=
  let s := s.safetyLog { r with severity := 2 }
  match s.sf.phase with
  | .fault => s
  | _ =>
    let s := s.setFaultN true
    let s := (s.set F.SF_STATUS_SUPERVISING 0).set F.SF_STATUS_FATAL_CODE r.code
    let s := { s with sf := { s.sf with phase := .fault } }
    (s.outputsSafe).raise 0x170

/-- A verdict on a stream begins or ends (R303): its code, a tag that tells verdicts of one code apart. -/
def State.health (s : State) (code n tag : Nat) (on : Bool) : State :=
  let v := (n, code, tag)
  let held := s.sf.verdicts.contains v
  if on && !held then
    let s := { s with sf := { s.sf with verdicts := v :: s.sf.verdicts } }
    let s := s.setMaskBit F.SF_STREAM_DEG_LO F.SF_STREAM_DEG_HI n true
    (s.safetyLog { SafetyRec.of code 1 with object := n }).raise 0x173
  else if !on && held then
    let vs := s.sf.verdicts.filter (fun x => x != v)
    let s := { s with sf := { s.sf with verdicts := vs } }
    if vs.any (fun x => x.1 == n) then s
    else
      let s := s.setMaskBit F.SF_STREAM_DEG_LO F.SF_STREAM_DEG_HI n false
      s.safetyLog { SafetyRec.of 0x26 0 with object := n }
  else s

/-! ### Answers -/

/-- The host port answers (R376): a status, a tag, data. -/
def State.answer (s : State) (status tag : Nat) (data : Bytes) : State := { s with hostResp := ⟨status, tag, data⟩ }

/-- A control core's read returns a word. -/
def State.coreReturn (s : State) (c : Nat) (w : Word) : State := { s with coreData := setAt s.coreData c w }

/-- A refused write (R348): the record 0x70, BT_LOCK_VIOL, event 0x198; `who` is 0 for the host and 1 to 8 for the cores. -/
def State.refuseWrite (s : State) (a who : Nat) : State :=
  ((s.violation 0x13 0x70 (leBytes 4 a ++ [BitVec.ofNat 8 who])).incSat F.BT_LOCK_VIOL).raise 0x198

/-! ### The host port's answers (R376, R378) -/

/-- A transaction ends: the answer, HP_STATUS, and HP_TXN_COUNT when it passed the checks of CRC and opcode (R378). -/
def State.hostReply (s : State) (opcode status tag : Nat) (data : Bytes) : State :=
  let s := (s.answer status tag data).set F.HP_STATUS_LAST_STATUS status
  let s := s.set F.HP_STATUS_LAST_OPCODE opcode
  if status == 0xC0 || status == 0xC1 then s else s.incWrap F.HP_TXN_COUNT

/-- The opcodes of R376. -/
def opcodeWr4 : Nat := 0x02

/-- A write is refused as one to a locked register: 0xC4 and the record of R348. -/
def State.hostLocked (s : State) (a : Nat) : State := (s.refuseWrite a 0).hostReply opcodeWr4 0xC4 0 []

/-- A rejected write: 0xC6 and record 0x7B (R378). -/
def State.hostRejected (s : State) (opcode a : Nat) : State :=
  (s.violation 0x13 0x7B (BitVec.ofNat 8 opcode :: leBytes 4 a)).hostReply opcode 0xC6 0 []

/-- An address error: 0xC2, record 0x75, HP_ADDR_ERR (R377, R378); `n` data bytes read zero. -/
def State.hostAddrErr (s : State) (opcode a n : Nat) : State :=
  ((s.violation 0x13 0x75 (BitVec.ofNat 8 opcode :: (leBytes 4 a ++ [0]))).incSat F.HP_ADDR_ERR).hostReply opcode 0xC2 0 (zerosB n)

/-- The block is not powered: 0xC7 and record 0x72 (R351, R370); `n` data bytes read zero. -/
def State.hostUnpowered (s : State) (opcode a n : Nat) : State :=
  (s.violation 0x13 0x72 (0 :: leBytes 4 a)).hostReply opcode 0xC7 0 (zerosB n)

/-- The opcode of RD4 (R376). -/
def opcodeRd4 : Nat := 0x0B

/-- A requester's read of a register returns a word: a core's to the core, the host's as the data of an RD4. -/
def State.readReturn (s : State) (r : Requester) (w : Word) : State :=
  match r with
  | .host => s.hostReply opcodeRd4 0 0 (leBytes 4 w.toNat)
  | .core c => s.coreReturn c.val w

/-- The part is in minimal mode (R351). -/
def State.minimal (s : State) : Bool := s.flag F.GLB_STATUS_MINIMAL

/-- A park is in progress (R369). -/
def State.parking (s : State) : Bool := s.get F.PW_STATUS_STATE == 1

/-- The part is parked with DRAM retained (R370). -/
def State.parkedRetained (s : State) : Bool := s.get F.PW_STATUS_STATE == 2

/-- The configuration is locked (R347). -/
def State.locked (s : State) : Bool := s.flag F.GLB_STATUS_LOCKED

/-- The part is in run state: locked, running, not parked (R347, R364). -/
def State.running (s : State) : Bool := s.flag F.GLB_STATUS_RUN

/-- A host write of an HW register runs `f` after lock; before lock, parked or in minimal mode it is answered as R346, R351 and R370 say, and in the Lovage-only state not at all. -/
def State.hostWrite (s : State) (a : Nat) (f : State → State) : State :=
  if s.pw.lovageOnly then s
  else if s.parkedRetained || s.minimal then s.hostUnpowered opcodeWr4 a 0
  else if s.locked then f s
  else s.hostLocked a

/-- A requester's read of a register of a block that is off while parked and in minimal mode: the host is answered 0xC7 then (R351, R370), and not at all in the Lovage-only state; otherwise `f` runs. -/
def State.readGate (s : State) (r : Requester) (a : Nat) (f : State → State) : State :=
  match r with
  | .host =>
    if s.pw.lovageOnly then s
    else if s.parkedRetained || s.minimal then s.hostUnpowered opcodeRd4 a 4
    else f s
  | .core _ => if s.running then f s else s

/-- A write executed: 0x00. -/
def State.hostOk (s : State) : State := s.hostReply opcodeWr4 0 0 []

end Sys2Proof.Machine
end

