-- ==== Sys2Proof/Machine/EventOps.lean ====
section
/-! DEFINITION. Event sources: status signals, rank, eligibility, delivery, completion (R281 to R290). -/

namespace Sys2Proof.Machine

/-- The signal of a status source is 1. -/
def State.signal (s : State) (src : Nat) : Bool := s.ev.high.contains src

/-- A level-sensed source's level holds (R281). -/
def State.levelHolds (s : State) (src : Nat) : Bool :=
  match s.get (F.EV_S_CFG_MODE src) with
  | 0 => s.signal src
  | 1 => !s.signal src
  | _ => false

/-- The status sources, whose signals the controller samples; the others are event sources (R281, R292). -/
def isStatusSource (n : Nat) : Bool := decide (n < 0x20) || (decide (0x24 ≤ n) && decide (n < 0x2F))

/-- The source is level-sensed. -/
def State.levelSensed (s : State) (src : Nat) : Bool := decide (s.get (F.EV_S_CFG_MODE src) ≤ 1)

/-- The state of an enabled level-sensed source follows its level while it is not delivered or active (R281, R283). -/
def State.followLevel (s : State) (src : Nat) : State :=
  if s.flag (F.EV_S_CFG_EN src) && s.levelSensed src && decide (s.get (F.EV_S_STAT_STATE src) ≤ 2) then
    let on := s.levelHolds src
    (s.set (F.EV_S_STAT_COUNT src) (b2n on)).evSetState src (if on then 2 else 0)
  else s

/-- The signal of a status source recorded, and nothing sensed (parked, R291). -/
def State.setSignal (s : State) (src : Nat) (level : Bool) : State :=
  if s.signal src == level then s
  else { s with ev := { s.ev with high := if level then src :: s.ev.high else s.ev.high.filter (fun x => x != src) } }

/-- A status source's signal changes (R281). -/
def State.statusSource (s : State) (src : Nat) (level : Bool) : State :=
  if s.signal src == level then s
  else
    let s := s.setSignal src level
    match s.get (F.EV_S_CFG_MODE src) with
    | 0 => s.followLevel src
    | 1 => s.followLevel src
    | 2 => if level then s.raise src else s
    | 3 => if level then s else s.raise src
    | 4 => s.raise src
    | _ => s

/-- A source's group (R282). -/
def State.evGroup (s : State) (src : Nat) : Nat := s.get (F.EV_S_CFG_PRIO src) / 2 ^ s.get F.EV_CFG

/-- A source's sub-priority (R282). -/
def State.evSub (s : State) (src : Nat) : Nat := s.get (F.EV_S_CFG_PRIO src) % 2 ^ s.get F.EV_CFG

/-- `a` ranks above `b`: higher group, then higher sub-priority, then lower number (R282). -/
def State.ranksAbove (s : State) (a b : Nat) : Bool :=
  let ka := s.evGroup a * 256 + s.evSub a
  let kb := s.evGroup b * 256 + s.evSub b
  decide (kb < ka) || (ka == kb && decide (a < b))

/-- A source is masked (R289). -/
def State.evMasked (s : State) (src : Nat) : Bool := bitOf (s.get (F.EV_MASK (src / 32))) (src % 32)

/-- The source is deliverable. -/
def State.deliverable (s : State) (src : Nat) : Bool := s.get (F.EV_S_STAT_STATE src) == 2

/-- The deliverable, unmasked sources in rank order, at most 1,024 (R282, R285). -/
def State.ranked (s : State) (p : Nat → Bool) : List Nat :=
  sortByKey (fun src => (255 - s.evGroup src) * 2 ^ 20 + (255 - s.evSub src) * 2 ^ 10 + src)
    ((List.range 1024).filter (fun src => s.deliverable src && !s.evMasked src && p src))

/-- A core's running level plus one; 0 when idle (R285). -/
def State.runLevel (s : State) (c : Nat) : Nat :=
  match (s.evCore c).active with
  | a :: _ => s.evGroup a + 1
  | [] => 0

/-- A core is eligible for a source but for its nesting depth (R285). -/
def State.eligibleButDepth (s : State) (mie : Nat) (src c : Nat) : Bool :=
  bitOf (s.get (F.EV_S_CFG_TARGET src)) c && bitOf mie c && decide (s.runLevel c < s.evGroup src + 1) &&
    (match (s.evCore c).held with
     | some h => decide (s.evGroup h.src < s.evGroup src)
     | none => true)

/-- A core is eligible for a source (R285). -/
def State.eligible (s : State) (mie src c : Nat) : Bool :=
  s.eligibleButDepth mie src c && decide ((s.evCore c).active.length < 8)

/-- The eligible core of lowest running level, the lower number on a tie (R285). -/
def State.chooseCore (s : State) (cs : List Nat) : Option Nat :=
  cs.foldl (fun best c => match best with
    | none => some c
    | some b => if s.runLevel c < s.runLevel b then some c else some b) none

/-- A source delivered to core c; a held source of it returns to deliverable (R286). -/
def State.deliverTo (s : State) (src c : Nat) : State :=
  let k := s.evCore c
  let s := match k.held with
    | some h => (s.evSetState h.src 2).incSat (F.EV_C_DISPLACED c)
    | none => s
  let s := (s.evSetState src 3).incWrap (F.EV_C_DELIVERED c)
  s.setEvCore c { k with held := some ⟨src, s.evCycle, false⟩ }

/-- One EV cycle's deliveries in rank order; `taken` are the cores that have received a source (R285). -/
def State.deliverAll (s : State) (mie : Nat) : List Nat → List Nat → State
  | [], _ => s
  | src :: rest, taken =>
    let cs := (List.range 8).filter (fun c => !taken.contains c && s.eligible mie src c)
    match s.chooseCore cs with
    | some c => (s.deliverTo src c).deliverAll mie rest (c :: taken)
    | none =>
      let deep := (List.range 8).any (fun c => !taken.contains c && s.eligibleButDepth mie src c)
      (if deep then s.incSat F.EV_NEST_FULL else s).deliverAll mie rest taken

/-- EV_C_LEVEL of core c (R294). -/
def State.showLevel (s : State) (c : Nat) : State :=
  let k := s.evCore c
  let s := (s.set (F.EV_C_LEVEL_GROUP c) (s.runLevel c - 1)).setFlag (F.EV_C_LEVEL_IDLE c) k.active.isEmpty
  s.set (F.EV_C_LEVEL_DEPTH c) k.active.length

/-- An active source completes (R287, R290): Idle, or Counting or Deliverable when occurrences wait or its level holds. -/
def State.completeSource (s : State) (src : Nat) : State :=
  let s := s.incSat (F.EV_S_STAT_DELIV src)
  if s.levelSensed src then
    let on := s.levelHolds src
    (s.set (F.EV_S_STAT_COUNT src) (b2n on)).evSetState src (if on then 2 else 0)
  else if s.get (F.EV_S_STAT_COUNT src) == 0 then s.evSetState src 0
  else s.evCountState src

/-- The word of EV_C_CLAIM for a held source, as it reads (R294). -/
def State.claimWord (s : State) (h : EvHeld) : Word :=
  BitVec.ofNat 32 (h.src + 2 ^ 10 + 2 ^ 11 * b2n h.late + 2 ^ 16 * s.get (F.EV_S_STAT_COUNT h.src) + 2 ^ 24 * s.get (F.EV_S_CFG_PRIO h.src))

/-- The deliverable sources routed to host pin h, in rank order (R288). -/
def State.pinSources (s : State) (h : Nat) : List Nat :=
  if s.flag F.EV_GLOBAL then [] else s.ranked (fun src => s.get (F.EV_S_CFG_HOST src) == h + 1)

/-- The word of EV_H_CAUSE of pin h (R288, R294). -/
def State.causeWord (s : State) (h : Nat) : Word :=
  match s.pinSources h with
  | src :: _ => BitVec.ofNat 32 (src + 2 ^ 10 + 2 ^ 16 * s.get (F.EV_S_STAT_COUNT src) + 2 ^ 24 * s.get (F.EV_S_CFG_PRIO src))
  | [] => 0

end Sys2Proof.Machine
end

