-- ==== Sys2Proof/Machine/AccessOps.lean ====
section
/-! DEFINITION. Writes after lock: who may write which register (R402), the judgement of a write bit by bit (R6), and the refusal of R348. -/

namespace Sys2Proof.Machine

/-- Bits of a register that no table row assigns, or that are reserved (R6). -/
def RegRow.reservedMask (r : RegRow) : Nat :=
  r.fields.foldl (fun m f => putBits m f.lo f.width 0) (2 ^ 32 - 1)

/-- Bits of a register's LK fields (R5). -/
def RegRow.lockedMask (r : RegRow) : Nat :=
  r.fields.foldl (fun m f => if f.acc == .lk then putBits m f.lo f.width (2 ^ f.width - 1) else m) 0

/-- A control core may write a field of the register at `a` after lock (R402). -/
def coreMayWrite (a : Nat) : Bool :=
  let within := fun base stride n => decide (base ≤ a) && (a - base) % stride == 0 && decide ((a - base) / stride < n)
  a == F.TB_RATE_NEXT.addr || a == F.TB_COMMIT.addr || a == F.TB_MEAS_LO.addr || a == F.TB_MEAS_HI.addr ||
  a == F.TB_UTC_OFFSET.addr || a == F.TB_JUMP_REFUSED_STICKY.addr || a == F.MJ_CAP_MW.addr || a == F.EV_GLOBAL.addr ||
  a == F.EV_SWSET.addr || a == F.RC_CTX_REQ_CTX.addr || a == F.RC_PART_REQ_PART.addr || a == F.RC_CR_DONE.addr ||
  a == F.PW_PARK_REQ_GO.addr ||
  within (F.IG_FIFO_STATUS_OVR 0).addr 64 48 || within (F.CB_S_STAT_REFUSED 0).addr 32 24 ||
  within (F.EV_MASK 0).addr 4 32 || within (F.EV_C_COMPLETE 0).addr 32 8 ||
  within (F.EV_FW_VAL_LO 0).addr 16 64 || within (F.EV_FW_VAL_HI 0).addr 16 64 ||
  within (F.PW_ALARM_LO 0).addr 16 4 || within (F.PW_ALARM_HI 0).addr 16 4 || within (F.PW_ALARM_STAT_FIRED 0).addr 16 4 ||
  within (F.IO_TRG_TIME_LO 0).addr 32 16 || within (F.IO_TRG_TIME_HI 0).addr 32 16 ||
  within (F.IO_CAP_STAT_OVR 0).addr 32 16 || within (F.IO_TRG_STAT_SKIPPED 0).addr 32 16

/-- The host may write a field of the register at `a` after lock (R402). -/
def hostMayWrite (a : Nat) : Bool :=
  a == F.TB_RELOCK_ARM_KEY.addr || a == F.PW_PARK_REQ_GO.addr ||
  (decide ((F.BT_ATT_NONCE 0).addr ≤ a) && decide (a ≤ (F.BT_ATT_NONCE 3).addr)) ||
  (decide ((F.HP_RESULT_RELEASE 0).addr ≤ a) && (a - (F.HP_RESULT_RELEASE 0).addr) % 32 == 0 && decide (a ≤ (F.HP_RESULT_RELEASE 3).addr))

/-- The registers the host may write in minimal mode (R351, R402). -/
def minimalMayWrite (a : Nat) : Bool :=
  a == F.BT_MIN_CMD_OP.addr || a == F.BT_NVM_ADDR.addr || (decide ((F.BT_NVM_BUF 0).addr ≤ a) && decide (a ≤ (F.BT_NVM_BUF 63).addr) && a % 4 == 0)

/-- A write that R6 lets through in a register where the requester may write: no reserved bit and no LK bit set to 1. -/
def cleanWrite (a : Nat) (v : Word) : Bool :=
  match regRow? a with
  | some r => v.toNat &&& r.reservedMask == 0 && v.toNat &&& r.lockedMask == 0
  | none => false

/-- A control core's store to a register: refused with the record of R348, or executed as `f`. No core runs outside the run state. -/
def State.coreWrite (s : State) (c a : Nat) (v : Word) (f : State → State) : State :=
  if s.running then
    (if coreMayWrite a && cleanWrite a v then f s else s.refuseWrite a (c + 1))
  else s

end Sys2Proof.Machine
end

