-- ==== Sys2Proof/Machine/Float.lean ====
section
/-! DEFINITION. Floating-point values as exact numbers, and rounding to the encodings of R172 with round-to-nearest-even (R152, R153, R156, R157). -/

namespace Sys2Proof.Machine

/-- A floating-point value: a NaN, an infinity, or (-1)^neg · m · 2^e exactly. -/
inductive Fl where
  | nan
  | inf (neg : Bool)
  | fin (neg : Bool) (m : Nat) (e : Int)
  deriving DecidableEq, Repr

/-- How a format uses its largest exponent (R172). -/
inductive FlSpecial where
  /-- infinities and NaNs as IEEE 754 -/
  | ieee
  /-- NaN at S.1111.111 only -/
  | nanOnly
  /-- none -/
  | none_
  deriving DecidableEq, Repr

/-- A binary format: exponent bits, mantissa bits, bias, special values (R172). -/
structure FlFmt where
  eb : Nat
  mb : Nat
  bias : Nat
  special : FlSpecial
  deriving DecidableEq, Repr

/-- FP32. -/
def fmtFp32 : FlFmt := ⟨8, 23, 127, .ieee⟩
/-- BF16. -/
def fmtBf16 : FlFmt := ⟨8, 7, 127, .ieee⟩
/-- FP16. -/
def fmtFp16 : FlFmt := ⟨5, 10, 15, .ieee⟩
/-- FP8 E4M3. -/
def fmtE4m3 : FlFmt := ⟨4, 3, 7, .nanOnly⟩
/-- FP8 E5M2. -/
def fmtE5m2 : FlFmt := ⟨5, 2, 15, .ieee⟩
/-- FP6 E3M2. -/
def fmtE3m2 : FlFmt := ⟨3, 2, 3, .none_⟩
/-- FP6 E2M3. -/
def fmtE2m3 : FlFmt := ⟨2, 3, 1, .none_⟩
/-- FP4 E2M1. -/
def fmtE2m1 : FlFmt := ⟨2, 1, 1, .none_⟩

/-- The exponent of the least subnormal. -/
def FlFmt.qmin (f : FlFmt) : Int := 1 - (f.bias : Int) - (f.mb : Int)

/-- The magnitude code of the largest finite value. -/
def FlFmt.maxCode (f : FlFmt) : Nat :=
  match f.special with
  | .ieee => (2 ^ f.eb - 1) * 2 ^ f.mb - 1
  | .nanOnly => 2 ^ (f.eb + f.mb) - 2
  | .none_ => 2 ^ (f.eb + f.mb) - 1

/-- The sign bit's weight. -/
def FlFmt.signBit (f : FlFmt) : Nat := 2 ^ (f.eb + f.mb)

/-- The canonical NaN: 0x7FC00000 for FP32, quiet and positive (R153); 0x7F for E4M3; formats without a NaN have none and give 0. -/
def FlFmt.nanCode (f : FlFmt) : Nat :=
  match f.special with
  | .ieee => (2 ^ f.eb - 1) * 2 ^ f.mb + 2 ^ (f.mb - 1)
  | .nanOnly => 2 ^ (f.eb + f.mb) - 1
  | .none_ => 0

/-- The value of a code. -/
def FlFmt.decode (f : FlFmt) (n : Nat) : Fl :=
  let neg := bitOf n (f.eb + f.mb)
  let mag := n % 2 ^ (f.eb + f.mb)
  let ex := mag / 2 ^ f.mb
  let m := mag % 2 ^ f.mb
  if f.maxCode < mag then
    (if f.special == .ieee && m == 0 then .inf neg else .nan)
  else if ex == 0 then .fin neg m f.qmin
  else .fin neg (2 ^ f.mb + m) (f.qmin + (ex : Int) - 1)

/-- m / 2^k rounded to nearest, ties to even. -/
def rneShift (m k : Nat) : Nat :=
  let d := m / 2 ^ k
  let r := 2 * (m % 2 ^ k)
  if 2 ^ k < r || (r == 2 ^ k && k != 0 && d % 2 == 1) then d + 1 else d

/-- m · 2^e as a multiple of 2^q, rounded to nearest even. -/
def rneAt (m : Nat) (e q : Int) : Nat :=
  if q ≤ e then m * 2 ^ (e - q).toNat else rneShift m (q - e).toNat

/-- The magnitude code m · 2^e rounds to, were the exponent unbounded above. -/
def FlFmt.roundMag (f : FlFmt) (m : Nat) (e : Int) : Nat :=
  if m == 0 then 0
  else
    let q := max ((Nat.log2 m : Int) + e - (f.mb : Int)) f.qmin
    (q - f.qmin).toNat * 2 ^ f.mb + rneAt m e q

/-- The code of a value by the IEEE rule of overflow, and whether it overflowed. `sat` saturates to the largest magnitude (R156). -/
def FlFmt.encode (f : FlFmt) (sat : Bool) (x : Fl) : Nat × Bool :=
  match x with
  | .nan => (f.nanCode, false)
  | .inf neg =>
    let s := if neg then f.signBit else 0
    match f.special with
    | .ieee => if sat then (s + f.maxCode, true) else (s + f.maxCode + 1, false)
    | .nanOnly => if sat then (s + f.maxCode, true) else (s + f.nanCode, true)
    | .none_ => (s + f.maxCode, true)
  | .fin neg m e =>
    let s := if neg then f.signBit else 0
    let c := f.roundMag m e
    if c ≤ f.maxCode then (s + c, false)
    else if sat then (s + f.maxCode, true)
    else match f.special with
      | .ieee => (s + f.maxCode + 1, true)
      | .nanOnly => (s + f.nanCode, true)
      | .none_ => (s + f.maxCode, true)

/-- The value of an FP32 word. -/
def fp32 (n : Nat) : Fl := fmtFp32.decode n

/-- A value rounded once to FP32, overflow to infinity (R152). -/
def toFp32 (x : Fl) : Nat := (fmtFp32.encode false x).1

/-- The sign of a value; a NaN counts as positive. -/
def Fl.neg? : Fl → Bool
  | .nan => false
  | .inf s => s
  | .fin s _ _ => s

/-- The value is zero. -/
def Fl.isZero : Fl → Bool
  | .fin _ m _ => m == 0
  | _ => false

/-- The value is a NaN. -/
def Fl.isNan : Fl → Bool
  | .nan => true
  | _ => false

/-- The value is neither NaN nor infinite. -/
def Fl.isFin : Fl → Bool
  | .fin _ _ _ => true
  | _ => false

/-- The value negated. -/
def Fl.negate : Fl → Fl
  | .nan => .nan
  | .inf s => .inf !s
  | .fin s m e => .fin (!s) m e

/-- The exact product; infinity times zero is a NaN. -/
def Fl.mul (a b : Fl) : Fl :=
  match a, b with
  | .nan, _ => .nan
  | _, .nan => .nan
  | .inf s, y => if y.isZero then .nan else .inf (s != y.neg?)
  | x, .inf s => if x.isZero then .nan else .inf (s != x.neg?)
  | .fin s m e, .fin s' m' e' => .fin (s != s') (m * m') (e + e')

/-- A signed multiple of 2^q of a finite value with exponent at least q. -/
def alignTo (neg : Bool) (m : Nat) (e q : Int) : Int :=
  let v : Int := ((m * 2 ^ (e - q).toNat : Nat) : Int)
  if neg then -v else v

/-- The exact sum (R153): infinity minus infinity is a NaN, an exact zero is +0 but for (-0) + (-0). -/
def Fl.add (a b : Fl) : Fl :=
  match a, b with
  | .nan, _ => .nan
  | _, .nan => .nan
  | .inf s, .inf s' => if s == s' then .inf s else .nan
  | .inf s, _ => .inf s
  | _, .inf s => .inf s
  | .fin s m e, .fin s' m' e' =>
    let q := min e e'
    let v := alignTo s m e q + alignTo s' m' e' q
    if v == 0 then .fin (s && s') 0 q else .fin (decide (v < 0)) v.natAbs q

/-- The exact value scaled by 2^k. -/
def Fl.scale (a : Fl) (k : Int) : Fl :=
  match a with
  | .fin s m e => .fin s m (e + k)
  | x => x

/-- `a < b` among numbers; zeros are equal. -/
def Fl.lt (a b : Fl) : Bool :=
  match a, b with
  | .nan, _ => false
  | _, .nan => false
  | .inf true, .inf true => false
  | .inf true, _ => true
  | _, .inf true => false
  | .inf false, _ => false
  | _, .inf false => true
  | .fin s m e, .fin s' m' e' => let q := min e e'; decide (alignTo s m e q < alignTo s' m' e' q)

/-- `a = b` among numbers; zeros are equal. -/
def Fl.eqv (a b : Fl) : Bool := !a.isNan && !b.isNan && !a.lt b && !b.lt a

/-- The magnitude. -/
def Fl.abs : Fl → Fl
  | .nan => .nan
  | .inf _ => .inf false
  | .fin _ m e => .fin false m e

/-- The lesser of two values: NaN with a NaN, -0 below +0 (R157, R158). -/
def Fl.min (a b : Fl) : Fl :=
  if a.isNan || b.isNan then .nan else if a.lt b then a else if b.lt a then b else if a.neg? then a else b

/-- The greater of two values: NaN with a NaN, +0 above -0 (R157, R158). -/
def Fl.max (a b : Fl) : Fl :=
  if a.isNan || b.isNan then .nan else if a.lt b then b else if b.lt a then a else if a.neg? then b else a

/-- An integer as an exact value. -/
def Fl.ofInt (i : Int) : Fl := .fin (decide (i < 0)) i.natAbs 0

/-- A finite value rounded to an integer, ties to even; none for NaN and infinities. -/
def Fl.rneInt : Fl → Option Int
  | .fin s m e => let n : Int := (rneAt m e 0 : Nat); some (if s then -n else n)
  | _ => none

/-- The fused multiply-add of FP32 words with one rounding (R157, R221). -/
def fma32 (a b c : Nat) : Nat := toFp32 (((fp32 a).mul (fp32 b)).add (fp32 c))

/-- The sum of FP32 words with one rounding. -/
def add32 (a b : Nat) : Nat := toFp32 ((fp32 a).add (fp32 b))

/-- The product of FP32 words with one rounding. -/
def mul32 (a b : Nat) : Nat := toFp32 ((fp32 a).mul (fp32 b))

end Sys2Proof.Machine
end

