-- ==== Sys2Proof/Machine/Operands.lean ====
section
/-! DEFINITION. The operand forms of command lists: list headers and records (R250 to R256), allocations (R179), descriptors (R180 to R183) and the shapes of element types (R172, R173, R176). -/

namespace Sys2Proof.Machine

/-! ### Lists (R250, R252, R265) -/

/-- The header of a list (R250). -/
structure ListHdr where
  cls : Nat
  prio : Nat
  degr : Bool
  engine : Nat
  queue : Nat
  ctx : Nat
  part : Nat
  varlink : Nat
  count : Nat
  budget : Nat
  energy : Nat
  /-- bytes 16 to 31. -/
  trig : Bytes
  variantCode : Nat
  zones : Nat
  deriving DecidableEq, Repr

/-- A header read from its 64 bytes. -/
def ListHdr.ofBytes (b : Bytes) : ListHdr :=
  { cls := bitsOf (fieldB b 0 1) 0 2, prio := bitsOf (fieldB b 0 1) 2 4, degr := bitOf (fieldB b 0 1) 6,
    engine := bitsOf (fieldB b 1 1) 0 3, queue := bitsOf (fieldB b 1 1) 4 4,
    ctx := bitsOf (fieldB b 2 1) 0 6, part := bitsOf (fieldB b 3 1) 0 4,
    varlink := bitsOf (fieldB b 4 2) 0 12, count := bitsOf (fieldB b 6 2) 0 13,
    budget := fieldB b 8 4, energy := fieldB b 12 4, trig := sliceB b 16 16,
    variantCode := fieldB b 32 1, zones := bitsOf (fieldB b 34 2) 0 12 }

/-- The number of no list (R250). -/
def noList : Nat := 0xFFF

/-- The trigger kind (R252). -/
def ListHdr.kind (h : ListHdr) : Nat := bitsOf (fieldB h.trig 0 1) 0 3
/-- Kind 1: the result set. -/
def ListHdr.trigSet (h : ListHdr) : Nat := bitsOf (fieldB h.trig 1 1) 0 2
/-- Kind 1: BATCH. -/
def ListHdr.batch (h : ListHdr) : Nat := fieldB h.trig 2 1
/-- Kind 1: BATCH_WAIT in ns. -/
def ListHdr.batchWait (h : ListHdr) : Nat := fieldB h.trig 4 4
/-- Kind 2: the stream. -/
def ListHdr.trigStream (h : ListHdr) : Nat := bitsOf (fieldB h.trig 1 1) 0 6
/-- Kind 3: PERIOD in ns. -/
def ListHdr.period (h : ListHdr) : Nat := fieldB h.trig 4 4
/-- Kind 3: PHASE in ns. -/
def ListHdr.phase (h : ListHdr) : Nat := fieldB h.trig 8 4
/-- Kind 4: the fence; kind 5: the predecessor list. -/
def ListHdr.trigRef (h : ListHdr) : Nat := bitsOf (fieldB h.trig 2 2) 0 12
/-- Kind 4: STEP. -/
def ListHdr.fenceStep (h : ListHdr) : Nat := fieldB h.trig 4 4
/-- Kind 4: INIT. -/
def ListHdr.fenceInit (h : ListHdr) : Nat := fieldB h.trig 8 8

/-- The device address of list n, from its pointer entry (R250). -/
def State.listAddr (s : State) (n : Nat) : Nat := s.dramNat (s.get64 F.CL_LIST_BASE_LO F.CL_LIST_BASE_HI + 64 * n) 5

/-- The header of list n. -/
def State.listHdr (s : State) (n : Nat) : ListHdr := ListHdr.ofBytes (s.dramRead (s.listAddr n) 64)

/-- Command record i of list n (R256). -/
def State.listCmd (s : State) (n i : Nat) : Bytes := s.dramRead (s.listAddr n + 64 + 64 * i) 64

/-- The lists of the list table. -/
def State.lists (s : State) : List Nat := List.range (s.get F.CL_LIST_COUNT)

/-- The device address of list n's list-state record (R265). -/
def State.listStateAddr (s : State) (n : Nat) : Nat := s.get64 F.CL_STATE_BASE_LO F.CL_STATE_BASE_HI + 16 * n

/-- PENDING of list n. -/
def State.pendingOf (s : State) (n : Nat) : Nat := s.dramNat (s.listStateAddr n) 4

/-- A field of `k` bytes at `ofs` of list n's list-state record given a value. -/
def State.setListState (s : State) (n ofs k v : Nat) : State := s.dramWrite (s.listStateAddr n + ofs) (leBytes k v)

/-- The codes of R256. -/
inductive Opcode where
  | load | store | matmul | vector | attend | pointBuild | query | fuse | solve | copy | collect | createDesc
  | waitFence | signalFence | semAcquire | semRelease | branchVariant | end_
  deriving DecidableEq, Repr

/-- The opcode of a code byte; none where reserved (R256). -/
def Opcode.ofCode (n : Nat) : Option Opcode :=
  match n with
  | 0x01 => some .load
  | 0x02 => some .store
  | 0x03 => some .matmul
  | 0x04 => some .vector
  | 0x05 => some .attend
  | 0x06 => some .pointBuild
  | 0x07 => some .query
  | 0x08 => some .fuse
  | 0x09 => some .solve
  | 0x0A => some .copy
  | 0x0B => some .collect
  | 0x0C => some .createDesc
  | 0x10 => some .waitFence
  | 0x11 => some .signalFence
  | 0x12 => some .semAcquire
  | 0x13 => some .semRelease
  | 0x14 => some .branchVariant
  | 0x1F => some .end_
  | _ => none

/-- The opcode of a record. -/
def opcodeOf (rec_ : Bytes) : Option Opcode := Opcode.ofCode (fieldB rec_ 0 1)

/-- A signed 32-bit operand at an offset of a record. -/
def sfieldB (rec_ : Bytes) (ofs : Nat) : Int := signedOf 32 (fieldB rec_ ofs 4)

/-! ### Element types (R172, R173, R176) -/

/-- The element types of R172 by their codes. -/
inductive ElemType where
  | fp32 | bf16 | fp16 | e4m3 | e5m2 | int8 | int4 | q32
  | mxe4m3 | mxe5m2 | mxe3m2 | mxe2m3 | mxfp4 | mxint8
  deriving DecidableEq, Repr

/-- The type of a code; none where reserved. -/
def ElemType.ofCode (n : Nat) : Option ElemType :=
  match n with
  | 0x00 => some .fp32
  | 0x01 => some .bf16
  | 0x02 => some .fp16
  | 0x03 => some .e4m3
  | 0x04 => some .e5m2
  | 0x05 => some .int8
  | 0x06 => some .int4
  | 0x07 => some .q32
  | 0x08 => some .mxe4m3
  | 0x09 => some .mxe5m2
  | 0x0A => some .mxe3m2
  | 0x0B => some .mxe2m3
  | 0x0C => some .mxfp4
  | 0x0D => some .mxint8
  | _ => none

/-- Stored in blocks of 32 with a scale (R175). -/
def ElemType.isMx : ElemType → Bool
  | .mxe4m3 => true
  | .mxe5m2 => true
  | .mxe3m2 => true
  | .mxe2m3 => true
  | .mxfp4 => true
  | .mxint8 => true
  | _ => false

/-- Bits of one element (R172). -/
def ElemType.bits : ElemType → Nat
  | .fp32 => 32
  | .bf16 => 16
  | .fp16 => 16
  | .e4m3 => 8
  | .e5m2 => 8
  | .int8 => 8
  | .int4 => 4
  | .q32 => 32
  | .mxe4m3 => 8
  | .mxe5m2 => 8
  | .mxe3m2 => 6
  | .mxe2m3 => 6
  | .mxfp4 => 4
  | .mxint8 => 8

/-- Bytes of one MX block (R175). -/
def ElemType.blockBytes (t : ElemType) : Nat := 4 * t.bits

/-- Blocks a granule holds (R175). -/
def ElemType.blocksMax (t : ElemType) : Nat := if t.blockBytes == 16 then 15 else if t.blockBytes == 24 then 10 else 7

/-- Bytes of a packed row of `n` elements along dimension 0 (R173, R176, R181). -/
def ElemType.rowBytes (t : ElemType) (n : Nat) : Nat :=
  if t.isMx then 256 * cdiv (cdiv n 32) t.blocksMax
  else if t == .int4 then cdiv n 2
  else n * (t.bits / 8)

/-! ### Allocations (R179) -/

/-- An allocation record. -/
structure Alloc where
  base : Nat
  view : Nat
  ctx : Nat
  valid : Bool
  size : Nat
  deriving DecidableEq, Repr

/-- Allocation id a. -/
def State.alloc (s : State) (a : Nat) : Alloc :=
  let b := s.dramRead (s.get64 F.DS_ALLOC_BASE_LO F.DS_ALLOC_BASE_HI + 16 * a) 16
  { base := fieldB b 0 5, view := bitsOf (fieldB b 5 1) 0 1, ctx := bitsOf (fieldB b 5 1) 1 6,
    valid := bitOf (fieldB b 5 1) 7, size := fieldB b 8 5 }

/-! ### Descriptors (R180 to R182) -/

/-- A descriptor read from its 64 bytes. -/
def Desc.ofBytes (b : Bytes) : Desc :=
  { rank := bitsOf (fieldB b 0 1) 0 3, valid := bitOf (fieldB b 0 1) 7, typeCode := fieldB b 1 1,
    view := bitsOf (fieldB b 2 1) 0 1, mxblk := bitOf (fieldB b 2 1) 1, qfrac := bitsOf (fieldB b 3 1) 0 5,
    allocId := fieldB b 4 2, owner := bitsOf (fieldB b 6 2) 0 12, base := fieldB b 8 5,
    sizes := (List.range 6).map (fun k => fieldB b (16 + 4 * k) 4),
    strides := (List.range 5).map (fun k => fieldB b (40 + 4 * k) 4) }

/-- The element type, FP32 where the code is reserved (no valid descriptor has one). -/
def Desc.elem (d : Desc) : ElemType := (ElemType.ofCode d.typeCode).getD .fp32

/-- SIZEk. -/
def Desc.size (d : Desc) (k : Nat) : Nat := d.sizes.getD k 0

/-- STRIDEk in units of 64 bytes, k from 1. -/
def Desc.stride (d : Desc) (k : Nat) : Nat := if k == 0 then 0 else d.strides.getD (k - 1) 0

/-- Ek of R181. -/
def Desc.extentTo (d : Desc) : Nat → Nat
  | 0 => d.elem.rowBytes (d.size 0)
  | k + 1 => 64 * d.stride (k + 1) * (d.size (k + 1) - 1) + d.extentTo k

/-- The bytes a descriptor covers: E of its last dimension (R181). -/
def Desc.extent (d : Desc) : Nat := d.extentTo (d.rank - 1)

/-- The device address of a slot of the descriptor table. -/
def State.descAddr (s : State) (slot : Nat) : Nat := s.get64 F.DS_TBL_BASE_LO F.DS_TBL_BASE_HI + 64 * slot

/-- The descriptor in a slot. -/
def State.descAt (s : State) (slot : Nat) : Desc := Desc.ofBytes (s.dramRead (s.descAddr slot) 64)

/-- The descriptor a command may use: not slot 0, inside the table, VALID (R180). -/
def State.desc? (s : State) (slot : Nat) : Option Desc :=
  if slot == 0 || decide (s.get F.DS_TBL_SLOTS ≤ slot) then none
  else
    let d := s.descAt slot
    if d.valid then some d else none

/-- The first dimension k from `k0`, of `n`, for which `p` holds. -/
def firstDim (p : Nat → Bool) : Nat → Nat → Option Nat
  | _, 0 => none
  | k, n + 1 => if p k then some k else firstDim p (k + 1) n

/-- Checks 0x01 to 0x07 of R182 on 64 bytes: the code and the dimension. -/
def Desc.checkForm (b : Bytes) : Option (Nat × Nat) :=
  let d := Desc.ofBytes b
  if d.rank == 0 || decide (6 < d.rank) then some (0x01, 7)
  else match ElemType.ofCode d.typeCode with
    | none => some (0x02, 7)
    | some t =>
      let reserved := bitsOf (fieldB b 0 1) 3 4 != 0 || d.valid || bitsOf (fieldB b 2 1) 2 6 != 0 || d.mxblk != t.isMx ||
        bitsOf (fieldB b 3 1) 5 3 != 0 || (t != .q32 && d.qfrac != 0) || bitsOf (fieldB b 6 2) 12 4 != 0 ||
        fieldB b 13 3 != 0 || fieldB b 60 4 != 0
      if reserved then some (0x03, 7)
      else match firstDim (fun k => d.size k != 0 || (d.stride k != 0)) d.rank (6 - d.rank) with
        | some k => some (0x03, k)
        | none =>
          match firstDim (fun k => d.size k == 0) 0 d.rank with
          | some k => some (0x04, k)
          | none =>
            if d.base % (if t.isMx then 256 else 64) != 0 then some (0x05, 7)
            else match (if t.isMx then firstDim (fun k => d.stride k % 4 != 0) 1 (d.rank - 1) else none) with
              | some k => some (0x06, k)
              | none =>
                match firstDim (fun k => decide (1 < d.size k) && decide (64 * d.stride k < d.extentTo (k - 1))) 1 (d.rank - 1) with
                | some k => some (0x07, k)
                | none => none

/-- Checks 0x08 to 0x0A of R182: the allocation. -/
def State.checkAlloc (s : State) (d : Desc) : Option (Nat × Nat) :=
  let a := s.alloc d.allocId
  if decide (s.get F.DS_ALLOC_COUNT ≤ d.allocId) || !a.valid then some (0x08, 7)
  else if d.view != a.view then some (0x09, 7)
  else if decide (d.base < a.base) || decide (a.base + a.size < d.base + d.extent) || decide (2 ^ 40 < d.base + d.extent) then
    some (0x0A, 7)
  else none

/-- Checks 0x01 to 0x0A of R182 on 64 bytes. -/
def State.checkDesc (s : State) (b : Bytes) : Option (Nat × Nat) :=
  match Desc.checkForm b with
  | some e => some e
  | none => s.checkAlloc (Desc.ofBytes b)

/-- The context of a descriptor: its allocation's owner (R183). -/
def State.descCtx (s : State) (d : Desc) : Nat := (s.alloc d.allocId).ctx

end Sys2Proof.Machine
end

