-- ==== Sys2Proof/Machine/TileOps.lean ====
section
/-! DEFINITION. Operating points of tiles (R169, R277), the record of an uncorrectable error (R163), SRAM buffers and their spills (R160), and corrected errors (R159 to R162). -/

namespace Sys2Proof.Machine

/-- The MHz of an operating-point code (R171). -/
def opMHz (op : Nat) : Nat :=
  match op with
  | 0 => 300
  | 1 => 600
  | 2 => 750
  | 3 => 900
  | _ => 1050

/-- The limit in °C of an operating point above 300 MHz (R169, `TL_OP_TEMP`). -/
def State.opLimit (s : State) (op : Nat) : Int :=
  match op with
  | 1 => s.get F.TL_OP_TEMP_T600
  | 2 => s.get F.TL_OP_TEMP_T750
  | 3 => s.get F.TL_OP_TEMP_T900
  | _ => s.get F.TL_OP_TEMP_T1050

/-- A tile at temperature `temp` and at point `cur` may run at point `op`: below its limit, and at least 2 °C below when it rises to it (R169). -/
def State.opAllowed (s : State) (cur : Nat) (temp : Int) (op : Nat) : Bool :=
  if op == 0 then true
  else if op ≤ cur then decide (temp < s.opLimit op)
  else decide (temp ≤ s.opLimit op - 2)

/-- The highest allowed point from `op` down. -/
def State.opFrom (s : State) (cur : Nat) (temp : Int) : Nat → Nat
  | 0 => 0
  | op + 1 => if s.opAllowed cur temp (op + 1) then op + 1 else s.opFrom cur temp op

/-- The operating point a logical tile chooses: the lower of its partition's grant and what its temperature permits (R169). -/
def State.opChoice (s : State) (l : Nat) : Nat :=
  s.opFrom (s.get (F.TL_T_STAT_OP l)) (s.getI (F.TL_T_STAT_TEMP l)) (min 4 (s.get (F.MJ_P_GRANT_OP (s.partOfTile l))))

/-- A tile starts a change when its choice differs from its point, or retargets the change in progress (R169: one change). -/
def State.retarget (s : State) (l : Nat) : State :=
  let op := s.opChoice l
  match s.tl.opChanges.find? (fun c => c.tile == l) with
  | some c => { s with tl := { s.tl with opChanges := s.tl.opChanges.map (fun x => if x.tile == l then { c with target := min op c.target } else x) } }
  | none =>
    if op == s.get (F.TL_T_STAT_OP l) then s
    else { s with tl := { s.tl with opChanges := ⟨l, op, s.now⟩ :: s.tl.opChanges } }

/-- The tiles of a list choose anew. -/
def State.retargetAll (s : State) (ls : List Nat) : State := ls.foldl State.retarget s

/-- The word of an error of a vault's ECC or of tile SRAM stays faulty until it is written whole; a link error leaves none (R163). -/
def State.keepFaulty (s : State) (src tile addr : Nat) : State :=
  let k := if src == 2 then sramWord tile addr else dramWord addr
  if src == 1 || s.tl.faulty.contains k then s else { s with tl := { s.tl with faulty := k :: s.tl.faulty } }

/-- The registers and the event of an uncorrectable error (R163, R164): context none for scrub. -/
def State.recordUe (s : State) (ctx : Option Nat) (src tile addr : Nat) : State :=
  let s := s.keepFaulty src tile addr
  let s := (s.set F.TL_UE_CTX_CTX (ctx.getD 0)).setFlag F.TL_UE_CTX_VALID_CTX ctx.isSome
  let s := (s.set F.TL_UE_CTX_SRC src).set F.TL_UE_CTX_TILE tile
  let s := (s.set64 F.TL_UE_ADDR_LO F.TL_UE_ADDR_HI addr).incSat F.TL_UE_COUNT
  let s := s.safetyLog { SafetyRec.of 0x35 1 with object := tile, ctx := ctx.getD 0xFF }
  (s.raise 0x174).raise 0x118

/-! ### SRAM buffers and spills (R160) -/

/-- The tiles' own state changed. -/
def State.setTl (s : State) (f : TlState → TlState) : State := { s with tl := f s.tl }

/-- The buffers of a tile. -/
def State.bufsOf (s : State) (l : Nat) : List SramBuf := s.tl.bufs.filter (fun b => b.tile == l)

/-- Bytes of SRAM in use on a tile: buffers that are not in the spill area. -/
def State.sramUsed (s : State) (l : Nat) : Nat := ((s.bufsOf l).filter (fun b => b.phase != .spilled)).foldl (fun n b => n + b.len) 0

/-- Bytes of a mark in 64 KiB units. -/
def markBytes (n : Nat) : Nat := n * 65536

/-- A tile that stalls goes on once its occupancy is at or below HIGH; its island cycles are counted. -/
def State.unstall (s : State) (l : Nat) : State :=
  match assocGet l s.tl.stalls with
  | some c =>
    let s := s.addSat (F.TL_SPILL_STALL l) ((s.thy.counter - c) * opMHz (s.get (F.TL_T_STAT_OP l)) / 1000)
    s.setTl (fun t => { t with stalls := assocDrop l t.stalls })
  | none => s

/-- A tile whose occupancy is at or below HIGH: a stall ends, and the next rise above HIGH is a new crossing (R160). -/
def State.settleMark (s : State) (l : Nat) : State :=
  if s.sramUsed l ≤ markBytes (s.get F.TL_SPILL_CFG_HIGH) then (s.setTl (fun t => { t with above := t.above.filter (fun x => x != l) })).unstall l else s

/-- A buffer of a list on a tile comes into use, in place of what it overlaps (log entry 46). -/
def State.useBuf (s : State) (l ofs len list : Nat) : State :=
  let apart := fun (b : SramBuf) => b.tile != l || decide (b.ofs + b.len ≤ ofs) || decide (ofs + len ≤ b.ofs)
  if len == 0 then s
  else (s.setTl (fun t => { t with bufs := t.bufs.filter apart ++ [⟨l, ofs, len, list, .present, 0⟩] })).settleMark l

/-- The buffers of a list are freed. -/
def State.freeBufs (s : State) (list : Nat) : State :=
  let s := s.setTl (fun t => { t with bufs := t.bufs.filter (fun b => b.list != list) })
  s.tl.above.foldl State.settleMark s

/-- A buffer's record changed. -/
def State.putBuf (s : State) (x : SramBuf) : State :=
  s.setTl (fun t => { t with bufs := t.bufs.map (fun b => if b.tile == x.tile && b.ofs == x.ofs then x else b) })

/-- The buffer that begins at an offset of a tile. -/
def State.bufAt (s : State) (l ofs : Nat) : Option SramBuf := (s.bufsOf l).find? (fun b => b.ofs == ofs)

/-- The device address of a byte of a tile's spill area, in the local view. -/
def State.spillAddr (s : State) (l ofs : Nat) : Nat := l * 2 ^ 28 + markBytes (s.get (F.TL_T_SPILL_OFS l)) + ofs

/-- The first byte of a tile's spill area past the buffers in it. -/
def State.spillEnd (s : State) (l : Nat) : Nat :=
  (s.bufsOf l).foldl (fun n b => if b.phase == .present then n else max n (b.spill + b.len)) 0

/-- Buffers still in SRAM and not on their way out, with their bytes, as if those leaving had gone. -/
def State.sramAfter (s : State) (l : Nat) : Nat :=
  ((s.bufsOf l).filter (fun b => b.phase == .present || b.phase == .returning)).foldl (fun n b => n + b.len) 0

/-- Spillable buffers start on their way out, in descending SRAM address, until occupancy will be at or below LOW; true when the spill area gave out (R160). -/
def State.spillFrom (s : State) (l : Nat) : List SramBuf → State × Bool
  | [] => (s, decide (markBytes (s.get F.TL_SPILL_CFG_HIGH) < s.sramAfter l))
  | b :: bs =>
    if s.sramAfter l ≤ markBytes (s.get F.TL_SPILL_CFG_LOW) then (s, false)
    else if markBytes (s.get (F.TL_T_SPILL_SIZE l)) < s.spillEnd l + b.len then s.spillFrom l bs
    else (s.putBuf { b with phase := .leaving, spill := s.spillEnd l }).spillFrom l bs

/-- The image marks the buffer spillable (R160; log entry 46). -/
def SramBuf.spillable (b : SramBuf) : Bool := Config.spillable b.list b.ofs

/-! ### Corrected errors (R159, R161, R162) -/

/-- The key of a row's error count. -/
def rowKey (vault layer row : Nat) : Nat := (4 * vault + layer) * 2 ^ 32 + row

/-- A correctable error in a row of a vault. -/
def State.vaultCe (s : State) (vault layer row : Nat) : State :=
  let k := rowKey vault layer row
  (s.incSat (F.TL_VAULT_CE vault)).setTl (fun t => { t with rowCe := assocPut k ((assocGet k t.rowCe).getD 0 + 1) t.rowCe })

/-- A try of a vault-link transfer fails: its CRC-16 is not that of its bytes (R161). -/
def tryFails (x : Bytes × BitVec 16) : Bool := crcN 16 0x1021 0xFFFF x.1 != x.2.toNat

/-- Consecutive failures a transfer begins with, the fourth the last (R161). -/
def linkFailures (tries : List (Bytes × BitVec 16)) : Nat := min 4 (tries.takeWhile tryFails).length

/-- What an access met, counted; each failure but a fourth is retried (R161; DEDUCED, log entry 93). -/
def State.noteAccess (s : State) (x : AccessNote) : State :=
  match x with
  | .vault t l r => s.vaultCe t.val l.val r
  | .sram t => s.incSat (F.TL_SRAM_CE t.val)
  | .link t _ tries => s.addSat (F.TL_VAULT_LINK t.val) (min 3 (linkFailures tries))
  | .stall t n => s.addSat (F.TL_MESH_STALL t.val) n
  | .fifo _ _ => s

/-- The uncorrectable error of a transfer that failed four times in a row: source 1 (R161). -/
def AccessNote.linkUe (x : AccessNote) : Option UeReport :=
  match x with
  | .link t a tries => if linkFailures tries == 4 then some ⟨1, t, a⟩ else none
  | _ => none

end Sys2Proof.Machine
end

