-- ==== Sys2Proof/Machine/ListOps.lean ====
section
/-! DEFINITION. Command lists: instances, occurrences, results bound to them, fences, semaphores, and how an instance leaves its queue (R252 to R263). -/

namespace Sys2Proof.Machine

/-! ### Results by number -/

/-- The result k of set rs while the model keeps it. -/
def State.result? (s : State) (rs k : Nat) : Option Result := s.fu.results.find? (fun r => r.rs == rs && r.k == k)

/-- A result's record changed. -/
def State.mapResult (s : State) (rs k : Nat) (f : Result → Result) : State :=
  { s with fu := { s.fu with results := s.fu.results.map (fun r => if r.rs == rs && r.k == k then f r else r) } }

/-- The result's class-0 lists are complete: no class-0 occurrence or instance binds it (R98). -/
def State.listsDone (s : State) (rs k : Nat) : Bool :=
  !(s.cl.occs.any (fun o => o.bound.contains (rs, k) && (s.listHdr o.list).cls == 0)) &&
  !(s.cl.insts.any (fun i => i.bound.contains (rs, k) && (s.listHdr i.list).cls == 0))

/-- Results that are complete, or partial, from this cycle on (R98, R125). -/
def State.noteDone (s : State) : State :=
  { s with fu := { s.fu with results := s.fu.results.map (fun r =>
    if r.done.isNone && !r.emitted && (r.sealCode == 2 || s.listsDone r.rs r.k) then { r with done := some s.thy.counter } else r) } }

/-- Results that lost work leave partial: SEAL = 2 overrides 0 and 1 until the emission (R98). -/
def State.markPartial (s : State) (bound : List (Nat × Nat)) : State :=
  (bound.foldl (fun s b => s.mapResult b.1 b.2 (fun r => if r.emitted then r else { r with sealCode := 2 })) s).noteDone

/-- A result records the largest variant code of its lists (R263). -/
def State.recordVariant (s : State) (bound : List (Nat × Nat)) (code : Nat) : State :=
  bound.foldl (fun s b => s.mapResult b.1 b.2 (fun r => { r with variantCode := max code r.variantCode })) s

/-- Emitted results that nothing binds any more are forgotten. -/
def State.dropResults (s : State) : State :=
  let bound := s.cl.insts.flatMap (fun i => i.bound) ++ s.cl.occs.flatMap (fun o => o.bound)
  { s with fu := { s.fu with results := s.fu.results.filter (fun r => !r.emitted || bound.contains (r.rs, r.k)) } }

/-! ### Instances -/

/-- The instance of list n. -/
def State.inst? (s : State) (n : Nat) : Option Inst := s.cl.insts.find? (fun i => i.list == n)

/-- The instance of a list changed; a list has at most one instance (R253). -/
def State.setInst (s : State) (i : Inst) : State :=
  { s with cl := { s.cl with insts := s.cl.insts.map (fun x => if x.list == i.list then i else x) } }

/-- The header of the list an instance runs. -/
def State.runHdr (s : State) (i : Inst) : ListHdr := s.listHdr i.run

/-- The instance holds its queue: Running or Waiting. -/
def Inst.onQueue (i : Inst) : Bool :=
  match i.phase with
  | .ready => false
  | .admitted => false
  | .running => true
  | .waiting => true

/-- The queue number of R266's table: 16·engine + queue. -/
def queueNo (eng q : Nat) : Nat := 16 * eng + q

/-- The instance on a queue. -/
def State.instOn (s : State) (eng q : Nat) : Option Inst :=
  s.cl.insts.find? (fun i => i.onQueue && (s.runHdr i).engine == eng && (s.runHdr i).queue == q)

/-- CL_STATUS.RUNNING: instances running or waiting. -/
def State.refreshRunning (s : State) : State := s.set F.CL_STATUS_RUNNING (s.cl.insts.filter Inst.onQueue).length

/-- The queue registers of an instance (R266). -/
def State.showQueue (s : State) (i : Inst) : State :=
  let h := s.runHdr i
  let q := queueNo h.engine h.queue
  let st := match i.phase with
    | .running => 1
    | .waiting => 2
    | _ => 0
  let s := ((s.set (F.CL_Q_STAT_STATE q) st).set (F.CL_Q_STAT_LIST q) i.run).set (F.CL_Q_STAT_CMD q) i.cmd
  match i.wait with
  | some (.fence f _) => (s.set (F.CL_Q_WAIT_FENCE q) f).set (F.CL_Q_WAIT_SEM q) 0
  | some (.sem n _) => (s.set (F.CL_Q_WAIT_FENCE q) n).set (F.CL_Q_WAIT_SEM q) 1
  | some (.corridorMiss _) => (s.set (F.CL_Q_WAIT_FENCE q) (s.get F.AT_FENCE_DONE)).set (F.CL_Q_WAIT_SEM q) 0
  | _ => s

/-- A queue shown idle. -/
def State.showIdle (s : State) (q : Nat) : State :=
  ((s.set (F.CL_Q_STAT_STATE q) 0).set (F.CL_Q_STAT_LIST q) noList).set (F.CL_Q_STAT_CMD q) 0

/-- An instance changed, its queue registers with it. -/
def State.putInst (s : State) (i : Inst) : State := (s.setInst i).showQueue i

/-- The grant in force of partition p (R277): the lowest of the instances running on it, or the normal grant. -/
def State.grantOf (s : State) (p : Nat) : Nat :=
  let normal := if s.flag F.MJ_CFG_BOOST then 4 else 3
  (s.cl.insts.filter (fun i => i.onQueue && (s.runHdr i).engine == 0 && (s.runHdr i).part == p)).foldl (fun g i => min g i.grant) normal

/-- A forced instance runs on partition p. -/
def State.forcedOn (s : State) (p : Nat) : Bool :=
  s.cl.insts.any (fun i => i.onQueue && i.forced && (s.runHdr i).engine == 0 && (s.runHdr i).part == p)

/-- MJ_P_GRANT of partition p, and its tiles' points (R277, R169). -/
def State.refreshGrant (s : State) (p : Nat) : State :=
  let s := (s.set (F.MJ_P_GRANT_OP p) (s.grantOf p)).setFlag (F.MJ_P_GRANT_FORCED p) (s.forcedOn p)
  s.retargetAll (s.tilesOfPart p)

/-- The list that holds class c (R274). -/
def State.starver (s : State) (c : Nat) : Option Nat :=
  match c with
  | 1 => s.mj.starve1
  | 2 => s.mj.starve2
  | _ => none

/-- A class's hold set or released, its STARVE bit with it (R274). -/
def State.setStarver (s : State) (c : Nat) (n : Option Nat) : State :=
  match c with
  | 1 => ({ s with mj := { s.mj with starve1 := n } }).setFlag F.MJ_STATUS_STARVE1 n.isSome
  | 2 => ({ s with mj := { s.mj with starve2 := n } }).setFlag F.MJ_STATUS_STARVE2 n.isSome
  | _ => s

/-- Who holds class c next as list n's hold ends: of the instances that have stayed deferred for MJ_STARVE, the one ready longest, then the lower list (DESIGN CHOICE, log entry 118). -/
def State.nextStarved (s : State) (c n : Nat) : Option Nat :=
  ((sortByKey (fun i => i.readyAt * 4096 + i.list) (s.cl.insts.filter (fun i => i.list != n && i.phase == .ready && i.deferred &&
    (s.listHdr i.list).cls == c && decide (i.readyAt + s.get F.MJ_STARVE * 1000 ≤ s.now)))).head?).map (fun i => i.list)

/-- List n's hold on class c ends with its instance admitted or gone (R274). -/
def State.releaseHold (s : State) (c n : Nat) : State := if s.starver c == some n then s.setStarver c (s.nextStarved c n) else s

/-- An instance gone: its queue free, its list idle, its SRAM buffers free, its hold on its class ended, the partition's grant anew. -/
def State.dropInst (s : State) (i : Inst) : State :=
  let h := s.runHdr i
  let s := { s with cl := { s.cl with insts := s.cl.insts.filter (fun x => x.list != i.list) } }
  let s := (s.setListState i.list 14 1 0).freeBufs i.list
  let s := s.releaseHold (s.listHdr i.list).cls i.list
  let s := if i.onQueue then s.showIdle (queueNo h.engine h.queue) else s
  let s := if i.onQueue && h.engine == 0 then s.refreshGrant h.part else s
  ((s.refreshRunning).noteDone).dropResults

/-! ### Occurrences (R252, R253) -/

/-- `k` occurrences of list n without results: the pending count, 32 bits, saturating. -/
def State.occur (s : State) (n k : Nat) : State := s.setListState n 0 4 (satNat 32 (s.pendingOf n + k))

/-- An occurrence that carries results (kinds 1 and 5). -/
def State.occurWith (s : State) (n : Nat) (bound : List (Nat × Nat)) (sealTime : Nat) : State :=
  let s := s.occur n 1
  { s with cl := { s.cl with occs := s.cl.occs ++ [⟨n, bound, sealTime⟩] } }

/-- An occurrence of every list with trigger `p`, in ascending list number. -/
def State.occurAll (s : State) (p : ListHdr → Bool) (f : State → Nat → State) : State :=
  (s.lists.filter (fun n => p (s.listHdr n))).foldl f s

/-- A result's seal is an occurrence of its kind-1 lists (R252). -/
def State.occurSeal (s : State) (rs k : Nat) : State :=
  s.occurAll (fun h => h.kind == 1 && h.trigSet == rs) (fun s n => s.occurWith n [(rs, k)] s.now)

/-- A closed packet is an occurrence of its stream's kind-2 lists (R252). -/
def State.occurNotice (s : State) (stream : Nat) : State :=
  s.occurAll (fun h => h.kind == 2 && h.trigStream == stream) (fun s n => s.occur n 1)

/-- The end of an instance is an occurrence of its kind-5 successors, which inherit its results (R252, R254). -/
def State.occurEnd (s : State) (i : Inst) : State :=
  s.occurAll (fun h => h.kind == 5 && h.trigRef == i.list) (fun s n => s.occurWith n i.bound s.now)

/-- Targets INIT + j·STEP that a fence passes as it goes from `old` on by `d`: those later than it before and not after, by the serial comparison of R7 (R252 kind 4, R260). -/
def ListHdr.targetsPassed (h : ListHdr) (old d : Nat) : Nat :=
  if serialLater 64 h.fenceInit old then
    let ahead := (h.fenceInit + 2 ^ 64 - old) % 2 ^ 64
    if d < ahead then 0 else (d - ahead) / h.fenceStep + 1
  else
    let gone := (old + 2 ^ 64 - h.fenceInit) % 2 ^ 64
    (gone + d) / h.fenceStep - gone / h.fenceStep

/-! ### Fences and semaphores (R260 to R262, R293) -/

/-- The value of fence f. -/
def State.fence (s : State) (f : Nat) : Nat := s.get64 (F.CL_FENCE_LO f) (F.CL_FENCE_HI f)

/-- A fence has reached v when v is not later than the fence (R260). -/
def State.fenceReached (s : State) (f v : Nat) : Bool := !serialLater 64 v (s.fence f)

/-- A watcher on fence f whose value is reached fires and disarms (R293). -/
def State.fireWatchers (s : State) (f : Nat) : Nat → State
  | 0 => s
  | w + 1 =>
    let s := s.fireWatchers f w
    if bitOf s.ev.armed w && s.flag (F.EV_FW_FENCE_EN w) && s.get (F.EV_FW_FENCE_FENCE w) == f &&
        s.fenceReached f (s.get64 (F.EV_FW_VAL_LO w) (F.EV_FW_VAL_HI w)) then
      ({ s with ev := { s.ev with armed := putBit s.ev.armed w false } }).raise (0x200 + w)
    else s

/-- A fence given a new value: its kind-4 lists take one occurrence per target passed (R255), its watchers fire. -/
def State.moveFence (s : State) (f v : Nat) : State :=
  let old := s.fence f
  let d := (v + 2 ^ 64 - old) % 2 ^ 64
  let s := s.set64 (F.CL_FENCE_LO f) (F.CL_FENCE_HI f) (v % 2 ^ 64)
  let s := s.occurAll (fun h => h.kind == 4 && h.trigRef == f && h.targetsPassed old d != 0)
    (fun s n => s.occur n ((s.listHdr n).targetsPassed old d))
  s.fireWatchers f 64

/-- A fence signalled in add mode (R261). -/
def State.fenceAdd (s : State) (f k : Nat) : State := if k == 0 then s else s.moveFence f (s.fence f + k)

/-- The set of fence f in the counter's present cycle, counted stale or not (R261). -/
def State.noteSet (s : State) (f : Nat) (stale : Bool) : State := { s with cl := { s.cl with sets := assocPut f (s.thy.counter, stale) s.cl.sets } }

/-- Whether fence f has been set in this cycle already, and counted stale by it (R261). -/
def State.setNow (s : State) (f : Nat) : Option Bool :=
  match assocGet f s.cl.sets with
  | some x => if x.1 == s.thy.counter then some x.2 else none
  | none => none

/-- A fence signalled in set mode; a value not later than the fence changes nothing and counts. Sets of one cycle are one update, that of the largest (R261). -/
def State.fenceSet (s : State) (f v : Nat) : State :=
  let later := serialLater 64 v (s.fence f)
  match s.setNow f with
  | some stale =>
    if later then ((if stale then s.set F.CL_FENCE_STALE (s.get F.CL_FENCE_STALE - 1) else s).noteSet f false).moveFence f v else s
  | none =>
    if later then (s.noteSet f false).moveFence f v
    else (s.noteSet f (decide (s.get F.CL_FENCE_STALE < 2 ^ 32 - 1))).incSat F.CL_FENCE_STALE

/-- A semaphore's count. -/
def State.sem (s : State) (n : Nat) : Nat := s.get (F.CL_SEM n)

/-- A semaphore released by k, saturating (R262). -/
def State.semRelease (s : State) (n k : Nat) : State :=
  let s := if 65535 < s.sem n + k then s.incSat F.CL_SEM_SAT else s
  s.set (F.CL_SEM n) (satNat 16 (s.sem n + k))

/-- The value BASE + STEP × IDX of a fence record for an instance. -/
def fenceValue (record : Bytes) (i : Inst) : Nat := (fieldB record 16 8 + fieldB record 24 8 * i.idx) % 2 ^ 64

/-- The fence of a fence record. -/
def fenceOf (record : Bytes) : Nat := bitsOf (fieldB record 8 2) 0 12

/-- Waiting acquirers of semaphore n, in ascending engine then queue number (R262). -/
def State.acquirers (s : State) (n : Nat) : List Inst :=
  sortByKey (fun i => queueNo (s.runHdr i).engine (s.runHdr i).queue)
    (s.cl.insts.filter (fun i => match i.wait with
      | some (.sem m _) => m == n
      | _ => false))

/-- The command an instance would run next. -/
def State.nextCmd (s : State) (i : Inst) : Bytes := s.listCmd i.run i.cmd

/-- A record is a corridor write: an ATTEND in mode 1 (R192). -/
def isWrite (record : Bytes) : Bool := opcodeOf record == some .attend && bitsOf (fieldB record 8 1) 0 2 == 1

/-- The instance is in a corridor write (R200, R201). -/
def State.inWrite (s : State) (i : Inst) : Bool := i.phase == .running && isWrite (s.nextCmd i)

/-! ### Take-up of a command (R184, R256) -/

/-- The descriptor in a slot that a command of an instance may use: its allocation belongs to the list's context (R180, R249). -/
def State.usable (s : State) (i : Inst) (slot : Nat) : Option Desc := (s.desc? slot).filter (fun d => s.descCtx d == (s.runHdr i).ctx)

/-- The descriptor a command uses: as it was read when the command was taken up (R184), or, of a slot its record does not name, as it stands. -/
def State.descFor (s : State) (i : Inst) (slot : Nat) : Option Desc :=
  match (i.descs.getD []).find? (fun x => x.1 == slot) with
  | some x => x.2
  | none => s.usable i slot

/-- Where a record names descriptors it reads or writes through (R256). -/
def Opcode.slots (op : Opcode) (record : Bytes) : List Nat :=
  let at_ := fun (l : List Nat) => l.map (fun o => fieldB record o 2)
  match op with
  | .load => at_ [8]
  | .store => at_ [8]
  | .attend => at_ [12, 14, 16, 18, 20, 22, 28, 30, 32]
  | .query => at_ [16, 18, 20, 22]
  | .fuse => at_ [18]
  | .solve => if bitOf (fieldB record 8 1) 0 then at_ [12] else []
  | .copy => at_ [8, 10]
  | .collect => at_ [12, 14]
  | .createDesc => at_ [8]
  | _ => []

/-- An instance whose command is taken up: every descriptor the record names is read once (R184). -/
def State.takenUp (s : State) (i : Inst) (op : Opcode) (record : Bytes) : Inst :=
  if i.descs.isSome then i else { i with descs := some ((op.slots record).map (fun slot => (slot, s.usable i slot))) }

/-! ### How a command comes out (R255 to R259) -/

/-- What a command of an instance comes to. -/
inductive CmdEnd where
  /-- it completes. -/
  | done
  /-- a run-time command error (R259). -/
  | error (code : Nat)
  /-- the instance waits and the command runs again when the wait is over. -/
  | wait (w : WaitCause)
  /-- it completes once the wait is over. -/
  | waitDone (w : WaitCause)
  /-- it is under way: a later command of the environment completes it. -/
  | busy
  /-- it completes and the list continues at a command. -/
  | jump (idx : Nat)
  /-- END. -/
  | ended
  deriving DecidableEq, Repr

/-- A descriptor that a command uses; an invalid slot is counted and is command error 0x01 (R180); so is one of another context (R249; its code is the model's choice, log entry 96). -/
def State.withDesc (s : State) (i : Inst) (slot : Nat) (f : State → Desc → State × CmdEnd) : State × CmdEnd :=
  match s.descFor i slot with
  | some d => f s d
  | none => (s.incSat F.DS_INVALID_USE, .error 0x01)

/-! ### Set-mode signals of removed instances (R300 step 2, R325) -/

/-- Results of instances whose fence wait is satisfied now and was not in `before` leave partial (R300 step 3, R326). -/
def State.markReleased (s before : State) : State :=
  s.cl.insts.foldl (fun s i => match i.wait with
    | some (.fence f v) => if s.fenceReached f v && !before.fenceReached f v then s.markPartial i.bound else s
    | _ => s) s

/-- The set-mode signals an instance has not reached are applied: the records from its next command on (R300 step 2). -/
def State.applySets (s : State) (i : Inst) : State :=
  let h := s.runHdr i
  (List.range (h.count - i.cmd)).foldl (fun s j =>
    let record := s.listCmd i.run (i.cmd + j)
    if opcodeOf record == some .signalFence && bitOf (fieldB record 10 1) 0 then s.fenceSet (fenceOf record) (fenceValue record i) else s) s

end Sys2Proof.Machine
end

