-- ==== Sys2Proof/Machine/CalibOps.lean ====
section
/-! DEFINITION. Self-calibration: windows, the activation ring's slot headers, commits, slips, halts, the state record and the log (R212 to R224). -/

namespace Sys2Proof.Machine

/-! ### Windows and commit points (R216) -/

/-- N. -/
def State.cbN (s : State) : Nat := 2 ^ s.get F.CB_CFG_LOG2N
/-- B. -/
def State.cbB (s : State) : Nat := s.get F.CB_CFG_BATCH + 1
/-- J. -/
def State.cbJ (s : State) : Nat := s.get F.CB_CFG_SLIP + 1
/-- E_u, a sequence number. -/
def State.cbE (s : State) : Nat := (s.get F.CB_WIN_START + (s.cbB - 1) * s.cbN) % 2 ^ 32

/-- The chain runs: a learning mode in force and no halt since the start (R215, R218). -/
def State.cbOn (s : State) : Bool :=
  (s.get F.CB_STATUS_MODE == 1 || s.get F.CB_STATUS_MODE == 2) && !s.flag F.CB_STATUS_HALTED

/-- i when the sequence number is that of window result i (R216). -/
def State.cbWindow (s : State) (seqNo : Nat) : Option Nat :=
  let d := (seqNo + 2 ^ 32 - s.get F.CB_WIN_START) % 2 ^ 32
  if d % s.cbN == 0 && decide (d / s.cbN < s.cbB) then some (d / s.cbN) else none

/-- j when the sequence number is that of commit point j (R216). -/
def State.cbPoint (s : State) (seqNo : Nat) : Option Nat :=
  let d := (seqNo + 2 ^ 32 - s.cbE) % 2 ^ 32
  let k := s.get F.CB_CFG_K
  if d % k == 0 && decide (1 ≤ d / k) && decide (d / k ≤ s.cbJ) then some (d / k) else none

/-- The next update's window, after E_u and the last commit point (R216). -/
def State.cbAdvance (s : State) : State :=
  let w := s.cbN * cdiv (s.cbE + s.cbJ * s.get F.CB_CFG_K) s.cbN % 2 ^ 32
  ((s.incWrap F.CB_UPDATE).set F.CB_WIN_START w).set F.CB_STATUS_FILL 0

/-! ### Log, halts, refusals (R218, R221, R224) -/

/-- A calibration log record (R224). -/
def State.cbLog (s : State) (seqNo kind b21 b22 b23 m0 m1 : Nat) : State :=
  s.ringPut (F.CB_LOG 0).addr 8 64 F.CB_LOG_IDX_NEXT F.CB_LOG_IDX_TOTAL
    (leBytes 8 s.now ++ leBytes 4 seqNo ++ leBytes 4 s.cbE ++ leBytes 4 (s.get F.CB_EPOCH) ++
      [BitVec.ofNat 8 kind, BitVec.ofNat 8 b21, BitVec.ofNat 8 b22, BitVec.ofNat 8 b23] ++ leBytes 4 m0 ++ leBytes 4 m1)

/-- The chain halts with a cause at a sequence number (R218). -/
def State.cbHalt (s : State) (cause seqNo : Nat) : State :=
  if s.cbOn then
    let s := (s.setFlag F.CB_STATUS_HALTED true).set F.CB_STATUS_CAUSE cause
    (s.cbLog seqNo 3 cause 0 0 0 0).raise 0x132
  else s

/-- The sequence number a halt outside a seal names: the Open result of the calibration set. -/
def State.cbOpenSeq (s : State) : Nat := s.get (F.FU_RS_SEQ (s.get F.CB_CFG_RS))

/-- The context of the learning chain: the owner of the update record's allocation (R218 cause 4). -/
def State.cbCtx (s : State) : Option Nat := (s.desc? (s.get F.CB_UPD_DESC)).map s.descCtx

/-- Recovery touches a context (R218 cause 4). -/
def State.cbRecovery (s : State) (ctx : Nat) : State :=
  if s.cbCtx == some ctx then s.cbHalt 4 s.cbOpenSeq else s

/-- The device address in a descriptor's view of a local address (R26, R27). -/
def State.inView (s : State) (view loc : Nat) : Nat :=
  if view == 0 then loc
  else
    let o := loc % 2 ^ 28
    0x1000000000 + (o / 4096 * s.tiles + loc / 2 ^ 28) * 4096 + o % 4096

/-- A local address lies in the extent of a valid slot's descriptor. -/
def State.inDesc (s : State) (slot loc : Nat) : Bool :=
  match s.desc? slot with
  | some d => let a := s.inView d.view loc; decide (d.base ≤ a) && decide (a < d.base + d.extent)
  | none => false

/-- The device address of the state region (R222). -/
def State.cbStateBase (s : State) : Nat := s.get64 F.CB_STATE_BASE_LO F.CB_STATE_BASE_HI

/-- An uncorrectable DRAM error at a local address halts the chain in the ring, the update record or the state record (R218 cause 5). -/
def State.cbUe (s : State) (loc : Nat) : State :=
  let inState := (List.range 4096).any (fun i => s.toLocal (s.cbStateBase + i) == some loc)
  if s.cbOn && (s.inDesc (s.get F.CB_ACT_DESC) loc || s.inDesc (s.get F.CB_UPD_DESC) loc || inState) then s.cbHalt 5 s.cbOpenSeq else s

/-! ### Stored activations (R217, R218 cause 2) -/

/-- The flags of a result as they stand before its vote (R119). -/
def Result.flags (r : Result) : Nat :=
  r.sealCode + 4 * r.tq + 64 * b2n r.ptOvf + 128 * b2n r.stale + 1024 * b2n r.suspect + 2048 * b2n r.calibNew

/-- A window result that halts the chain (R218 cause 2). -/
def Result.breaksChain (r : Result) : Bool := r.sealCode != 0 || r.stale || r.variantCode != 0

/-- A window result judged under R218 cause 2. -/
def State.cbJudge (s : State) (r : Result) : State :=
  if r.rs == s.get F.CB_CFG_RS && (s.cbWindow (r.k % 2 ^ 32)).isSome && r.breaksChain then s.cbHalt 2 (r.k % 2 ^ 32) else s

/-- The header of slot i of the activation ring (R217). -/
def State.cbSlotHeader (s : State) (i : Nat) (r : Result) : State :=
  match s.desc? (s.get F.CB_ACT_DESC) with
  | some d =>
    s.dramWrite (d.base + i * 64 * d.stride (d.rank - 1))
      (leBytes 4 r.k ++ [BitVec.ofNat 8 r.rs, 0, 0, 0] ++ leBytes 4 r.epoch ++ leBytes 4 r.flags ++ leBytes 8 r.absent ++ zerosB 40)
  | none => s

/-- The lists of a result have completed: a window result is stored, and the B-th raises the ready fence (R217). -/
def State.cbStored (s : State) (rs k : Nat) : State :=
  match s.result? rs k with
  | none => s
  | some r =>
    let s := s.cbJudge r
    if s.cbOn && rs == s.get F.CB_CFG_RS then
      match s.cbWindow (k % 2 ^ 32) with
      | some i =>
        let s := (s.cbSlotHeader i r).incSat F.CB_STATUS_FILL
        if s.get F.CB_STATUS_FILL == s.cbB then s.fenceAdd (s.get F.CB_FENCE_READY) 1 else s
      | none => s
    else s

/-- The results of an ended class-0 instance whose lists are complete. -/
def State.cbStoredAll (s : State) (cls : Nat) (bound : List (Nat × Nat)) : State :=
  if cls == 0 then bound.foldl (fun s b => if s.listsDone b.1 b.2 then s.cbStored b.1 b.2 else s) s else s

/-! ### Corrections (R212, R221) -/

/-- LIM of component p (R212). -/
def cbLimit (p : Nat) : Nat := if p < 3 then 512 else if p < 6 then 536871 else 50000

/-- BOUND of component p of slot c (R226). -/
def State.cbBound (s : State) (c p : Nat) : Nat :=
  if p < 3 then s.get (F.CB_C_TBOUND c) else if p < 6 then s.get (F.CB_C_RBOUND c) else s.get (F.CB_C_TAUBOUND c)

/-- The correction of slot c. -/
def State.cbCor (s : State) (c : Nat) : List Int := (List.range 7).map (fun p => s.getI (F.CB_S_COR c p))

/-- The correction of slot c written to its registers. -/
def State.cbSetCor (s : State) (c : Nat) (cor : List Int) : State :=
  (List.range 7).foldl (fun s p => s.setI (F.CB_S_COR c p) (cor.getD p 0)) s

/-- The velocities of slot c. -/
def State.cbVel (s : State) (c : Nat) : List Nat := s.cb.vel.getD c (List.replicate 7 0)

/-- The velocities of slot c replaced. -/
def State.cbSetVel (s : State) (c : Nat) (v : List Nat) : State := { s with cb := { s.cb with vel := setAt s.cb.vel c v } }

/-- One component of a slot's update: its new velocity, its new value, whether it was clamped, whether it refuses the slot. -/
structure CbComp where
  vel : Nat
  cor : Int
  clamped : Bool
  out : Bool
  deriving DecidableEq, Repr

/-- d[p] of R221 and whether it was clamped; a NaN moves nothing (its slot is refused). -/
def cbStep (eta v : Nat) (lim : Nat) : Int × Bool :=
  match ((fp32 eta).mul (fp32 v)).negate with
  | .nan => (0, false)
  | .inf true => (-(lim : Int), true)
  | .inf false => ((lim : Int), true)
  | .fin sgn m e =>
    let n : Int := (rneAt m e 0 : Nat)
    let d := if sgn then -n else n
    if d < -(lim : Int) then (-(lim : Int), true) else if (lim : Int) < d then ((lim : Int), true) else (d, false)

/-- Component p of R221's loop. -/
def cbComponent (mu eta cor0 : Int) (v g lim bound : Nat) : CbComp :=
  let v' := fma32 mu.toNat v g
  let (d, clamped) := cbStep eta.toNat v' lim
  let n := cor0 + d
  ⟨v', n, clamped, !(fp32 v').isFin || decide (bound < n.natAbs)⟩

/-- The step size of the present epoch (R221). -/
def State.cbEta (s : State) : Nat :=
  let i := ((List.range 8).find? (fun i => decide (s.get F.CB_EPOCH < s.get (F.CB_STEP_UNTIL i)))).getD 7
  s.get (F.CB_STEP_ETA i)

/-- The seven components of slot c against an update record. -/
def State.cbSlot (s : State) (record : Bytes) (eta c : Nat) : List CbComp :=
  (List.range 7).map (fun p =>
    cbComponent (s.get F.CB_MOMENTUM) eta ((s.cbCor c).getD p 0) ((s.cbVel c).getD p 0) (fieldB record (16 + 32 * c + 4 * p) 4) (cbLimit p) (s.cbBound c p))

/-- A bit per component. -/
def compBits (f : CbComp → Bool) (cs : List CbComp) : Nat := cs.foldr (fun c n => 2 * n + b2n (f c)) 0

/-- Slot c of a commit applied or refused: registers and velocities (R221). -/
def State.cbApply (s : State) (c : Nat) (cs : List CbComp) : State :=
  let s := s.set (F.CB_S_STAT_CLAMPED c) (compBits CbComp.clamped cs)
  let s := s.addSat F.CB_CLAMPED (cs.filter CbComp.clamped).length
  if cs.any CbComp.out then
    let s := (s.incSat F.CB_REFUSED).incSat (F.CB_S_STAT_REFUSALS c)
    let s := (s.setFlag (F.CB_S_STAT_REFUSED c) true).set (F.CB_S_STAT_OUT c) (compBits CbComp.out cs)
    s.cbSetVel c (List.replicate 7 0)
  else (s.cbSetCor c (cs.map CbComp.cor)).cbSetVel c (cs.map CbComp.vel)

/-! ### The state record (R222) -/

/-- The 2,048 bytes of a state record copy. -/
def State.cbRecord (s : State) (gen : Nat) : Bytes :=
  leBytes 4 gen ++ leBytes 4 (s.get F.CB_EPOCH) ++ zerosB 8 ++
    ((List.range 24).flatMap (fun c =>
      (s.cbCor c).flatMap (fun x => leBytes 4 (patternOf 32 x)) ++ zerosB 4 ++ (s.cbVel c).flatMap (fun v => leBytes 4 v) ++ zerosB 4)) ++
    zerosB 496

/-- The copy with the later generation (R7), copy 0 on a tie, and that generation. -/
def State.cbLatest (s : State) : Nat × Nat :=
  let g0 := s.dramNat s.cbStateBase 4
  let g1 := s.dramNat (s.cbStateBase + 2048) 4
  if serialLater 32 g1 g0 then (1, g1) else (0, g0)

/-- The state record written into the copy that does not hold the latest generation, the generation last (R222). -/
def State.cbSave (s : State) : State :=
  let (c, g) := s.cbLatest
  let a := s.cbStateBase + 2048 * (1 - c)
  let record := s.cbRecord ((g + 1) % 2 ^ 32)
  (s.dramWrite (a + 4) (record.drop 4)).dramWrite a (record.take 4)

/-- Corrections, velocities and epoch restored from the later copy (R222); the commits before it keep their instants, and the latest keeps its own, so other sets go on as R214 says. -/
def State.cbRestore (s : State) : State :=
  let b := s.dramRead (s.cbStateBase + 2048 * s.cbLatest.1) 2048
  let s := s.set F.CB_EPOCH (fieldB b 4 4)
  let s := (List.range 24).foldl (fun s c =>
    let s := s.cbSetCor c ((List.range 7).map (fun p => signedOf 32 (fieldB b (16 + 64 * c + 4 * p) 4)))
    s.cbSetVel c ((List.range 7).map (fun p => fieldB b (16 + 64 * c + 32 + 4 * p) 4))) s
  let now : CbCommit := ⟨0, s.get F.CB_EPOCH, (List.range 24).map s.cbCor⟩
  { s with cb := { s.cb with commits := match s.cb.commits with
    | c :: cs => { now with tc := c.tc } :: cs
    | [] => [now] } }

/-! ### The test at a commit point (R220, R221) -/

/-- The refusal of slot c recorded: event, log record of kind 1, Chervil's input 0x25 (R221, R303). -/
def State.cbRefused (s : State) (seqNo c : Nat) (cs : List CbComp) : State :=
  let s := (s.cbLog seqNo 1 c (compBits CbComp.clamped cs) (compBits CbComp.out cs) 0 0).raise 0x131
  (s.safetyLog { SafetyRec.of 0x25 1 with object := s.get (F.CB_C_CFG_STREAM c) }).raise 0x173

/-- The commit of the update at the result with instant t (R221, R222, R215). -/
def State.cbCommit (s : State) (seqNo t : Nat) (record : Bytes) : State :=
  let eta := s.cbEta
  let slots := (List.range 24).filter (fun c => bitOf (fieldB record 8 4) c)
  let outs := slots.map (fun c => (c, s.cbSlot record eta c))
  let s := outs.foldl (fun s o => s.cbApply o.1 o.2) s
  let refd := outs.filter (fun o => o.2.any CbComp.out)
  let maskOf := fun (l : List (Nat × List CbComp)) => l.foldl (fun m o => m + 2 ^ o.1) 0
  let acc := outs.filter (fun o => !o.2.any CbComp.out)
  let s := if acc.isEmpty then s
    else
      let s := s.incWrap F.CB_EPOCH
      let s := { s with cb := { s.cb with commits := ⟨t, s.get F.CB_EPOCH, (List.range 24).map s.cbCor⟩ :: s.cb.commits } }
      s.cbSave
  let s := refd.foldl (fun s o => s.cbRefused seqNo o.1 o.2) s
  let s := if s.get F.CB_STATUS_MODE == 2 then (s.cbLog seqNo 0 0xFF 0 0 (maskOf acc) (maskOf refd)).raise 0x130 else s
  s.cbAdvance

/-- The update record: 784 bytes through CB_UPD_DESC; an invalid slot reads zero. -/
def State.cbUpdate (s : State) : Bytes :=
  match s.desc? (s.get F.CB_UPD_DESC) with
  | some d => s.dramRead d.base 784
  | none => zerosB 784

/-- An uncorrectable error that fusion's own read of the update record or of the state record meets at a seal: one reported with the seal, or a word known to be faulty (R163, R218 cause 5). -/
def State.cbReadUe (s : State) (ue : Option UeReport) : Option UeReport :=
  let inState := fun (a : Nat) => (List.range 4096).any (fun i => s.toLocal (s.cbStateBase + i) == some a)
  let known := (match s.desc? (s.get F.CB_UPD_DESC) with
    | some d => s.faultyDram d.base 784
    | none => none) <|> s.faultyDram s.cbStateBase 4096
  (ue.filter (fun u => u.src.val != 2 && (s.inDesc (s.get F.CB_UPD_DESC) u.addr || inState u.addr))) <|>
    known.map (fun a => ⟨0, Fin.ofNat 144 (a / 2 ^ 28), a⟩)

/-- The test of update u at the seal of result k, instant t, of set rs (R220); an error its reads meet halts the chain with cause 5, recorded as no context's (DEDUCED, log entry 112). -/
def State.cbTest (s : State) (rs k t : Nat) (ue : Option UeReport) : State :=
  let seqNo := k % 2 ^ 32
  if s.cbOn && rs == s.get F.CB_CFG_RS then
    match s.cbPoint seqNo with
    | none => s
    | some j =>
      if s.fenceReached (s.get F.CB_FENCE_DONE) (s.get F.CB_UPDATE + 1) then
        match s.cbReadUe ue with
        | some u => (s.recordUe none u.src.val u.tile.val u.addr).cbHalt 5 seqNo
        | none =>
          let record := s.cbUpdate
          if fieldB record 0 4 == s.get F.CB_UPDATE && fieldB record 4 4 == s.cbE then s.cbCommit seqNo t record
          else s.cbHalt 3 seqNo
      else if j < s.cbJ then
        let s := s.incSat F.CB_SLIPS
        if s.get F.CB_STATUS_MODE == 2 then s.cbLog seqNo 2 0xFF 0 0 0 0 else s
      else (s.incSat F.CB_DISCARDS).cbHalt 1 seqNo
  else s

/-- The chain begins anew at a start of the calibration set (R216, R218). -/
def State.cbStart (s : State) (rs : Nat) : State :=
  if rs == s.get F.CB_CFG_RS then
    let s := (s.setFlag F.CB_STATUS_HALTED false).set F.CB_STATUS_CAUSE 0
    ((s.set F.CB_UPDATE 0).set F.CB_WIN_START (s.get F.CB_FIRST)).set F.CB_STATUS_FILL 0
  else s

/-- The corrections a result of set rs with instant t uses (R214). -/
def State.cbInForce (s : State) (rs t : Nat) : CbCommit :=
  let cur : CbCommit := ⟨0, s.get F.CB_EPOCH, (List.range 24).map s.cbCor⟩
  let c := s.get F.CB_CFG_RS
  if rs == c then cur
  else (s.cb.commits.find? (fun x => x.tc == 0 || decide (x.tc + s.get (F.FU_RS_H c) ≤ t))).getD cur

end Sys2Proof.Machine
end

