-- ==== Sys2Proof/Machine/MarjoramOps.lean ====
section
/-! DEFINITION. Marjoram: buckets, charges, zones, the admission pass with its class-0 fallback (R267 to R277), and the take-up of admitted instances (R253, R331).
Energy is counted in units of 0.25·10^-3 nJ, so that every refill of R267 and every charge of R271 is a whole number. -/

namespace Sys2Proof.Machine

/-- Marjoram's own state changed. -/
def State.setMj (s : State) (f : MjState → MjState) : State := { s with mj := f s.mj }

/-- The level of bucket c. -/
def State.level (s : State) (c : Nat) : Int := s.mj.levels.getD c 0

/-- Units in one µJ. -/
def unitsPerUj : Nat := 4000000

/-- R of R267 in nJ. -/
def State.refillNj (s : State) : Nat := s.mj.cap - s.get F.MJ_BASE_MW

/-- Bucket c's share of R in ‰ (R267). -/
def State.share (s : State) (c : Nat) : Nat :=
  match c with
  | 0 => s.get F.MJ_SHARE_S0 - 20
  | 1 => s.get F.MJ_SHARE_S1
  | 2 => s.get F.MJ_SHARE_S2
  | _ => 20

/-- Bucket c's refill per tick (R267). -/
def State.refill (s : State) (c : Nat) : Nat := s.refillNj * s.share c * 4

/-- Bucket c's capacity (R268). -/
def State.capacity (s : State) (c : Nat) : Nat := s.refill c * 1000 * s.get F.MJ_WINDOW

/-- MJ_STATUS.DEBT and the start of the debt (R276). -/
def State.refreshDebt (s : State) : State :=
  if s.level 0 < 0 then
    (s.setFlag F.MJ_STATUS_DEBT true).setMj (fun m => { m with debtSince := some (m.debtSince.getD s.now) })
  else (s.setFlag F.MJ_STATUS_DEBT false).setMj (fun m => { m with debtSince := none, debtTold := false })

/-- One tick's refill of the four levels (R267, R268): r and cap are the refills and capacities of buckets 0 to 3. -/
def refillOnce (r cap : Nat → Nat) (l : List Int) : List Int :=
  let l0 := l.getD 0 0
  let debt := decide (l0 < 0)
  let r1 := if debt then 0 else r 1
  let r2 := if debt then 0 else r 2
  let r0 := r 0 + (r 1 - r1) + (r 2 - r2)
  let raw1 := l.getD 1 0 + (r1 : Int)
  let raw2 := l.getD 2 0 + (r2 : Int)
  let raw3 := l.getD 3 0 + (r 3 : Int)
  let n1 := min raw1 (cap 1 : Int)
  let n2 := min raw2 (cap 2 : Int)
  let n3 := min raw3 (cap 3 : Int)
  let raw0 := l0 + (r0 : Int) + (raw1 - n1) + (raw2 - n2) + (raw3 - n3)
  let n0 := min raw0 (cap 0 : Int)
  [n0, min (n1 + (raw0 - n0)) (cap 1 : Int), n2, n3]

/-- `n` ticks of refill; full buckets end it early. -/
def refillMany (r cap : Nat → Nat) : Nat → List Int → List Int
  | 0, l => l
  | n + 1, l =>
    let l' := refillOnce r cap l
    if l' = l then l else refillMany r cap n l'

/-- The refill due and a pending cap change (R267, R270, R273 step 1): at the next tick the cap changes and levels are cut. -/
def State.refillDue (s : State) : State :=
  let t := s.thy.counter / 1000
  let n := t - s.mj.lastTick
  if n == 0 then s
  else
    let s := match s.mj.pendingCap with
      | some c =>
        let s := s.setMj (fun m => { m with cap := c, pendingCap := none })
        s.setMj (fun m => { m with levels := (List.range 4).map (fun i => min (m.levels.getD i 0) (s.capacity i : Int)) })
      | none => s
    let ls := refillMany s.refill s.capacity n s.mj.levels
    (s.setMj (fun m => { m with levels := ls, lastTick := t })).refreshDebt

/-- Units drawn from bucket c. -/
def State.spend (s : State) (c : Nat) (u : Int) : State :=
  (s.setMj (fun m => { m with levels := setAt m.levels c (m.levels.getD c 0 - u) })).refreshDebt

/-- A charge: drawn from bucket c, and counted among its energy and its admissions, the shadow reserve's too (R271, R278, R280). -/
def State.chargeClass (s : State) (c u : Nat) : State :=
  let s := s.spend c u
  (s.set (F.MJ_C_ADMIT_UJ c) (s.get (F.MJ_C_ADMIT_UJ c) + u / unitsPerUj)).incWrap (F.MJ_C_ADMITS c)

/-- The charge factor of a grant (R271). -/
def chargeFactor (op : Nat) : Nat :=
  match op with
  | 0 => 141
  | 1 => 184
  | 2 => 215
  | 3 => 256
  | _ => 320

/-- The charge of a list at a grant, C = ENERGY × F / 256 µJ, in units (R271). -/
def ListHdr.charge (h : ListHdr) (grant : Nat) : Nat :=
  h.energy * (if h.engine == 0 then chargeFactor grant else 256) * 15625

/-- The zone of a sensor (R272). -/
def zoneOfSensor (i : Nat) : Nat := if i < 54 then i / 6 else if i < 58 then 9 else if i < 61 then 10 else 11

/-- What a sensor counts as: its zone's LIMIT while it is bad, otherwise its last sample (R272). -/
def State.sensorCounts (s : State) (i : Nat) : Int :=
  if s.flag (F.MJ_SENSOR_BAD_FLD i) then (s.get (F.MJ_ZONE_LIMIT (zoneOfSensor i)) : Int) else s.mj.temps.getD i 0

/-- A zone's temperature, the maximum of its sensors (R272). -/
def State.zoneTemp (s : State) (z : Nat) : Int :=
  let ts := ((List.range 64).filter (fun i => zoneOfSensor i == z)).map s.sensorCounts
  ts.foldl max (ts.headD 0)

/-- A zone's headroom in °C (R272). -/
def State.headroom (s : State) (z : Nat) : Int := (s.get (F.MJ_ZONE_LIMIT z) : Int) - s.zoneTemp z

/-- The headroom class c needs (R273). -/
def State.headroomNeed (s : State) (c : Nat) : Int :=
  match c with
  | 0 => s.get F.MJ_HEADROOM_C0
  | 1 => s.get F.MJ_HEADROOM_C1
  | _ => s.get F.MJ_HEADROOM_C2

/-- Every zone of the list has the headroom its class needs (R273). -/
def State.zonesFit (s : State) (h : ListHdr) : Bool :=
  (List.range 12).all (fun z => !bitOf h.zones z || decide (s.headroomNeed h.cls ≤ s.headroom z))

/-- The class of an instance's list may be admitted at all: no class-0 debt for classes 1 and 2, no other list's hold (R273, R274). -/
def State.classOpen (s : State) (i : Inst) (h : ListHdr) : Bool :=
  (h.cls == 0 || decide (0 ≤ s.level 0)) &&
  (match s.starver h.cls with
   | some n => n == i.list
   | none => true)

/-- The grant a normal admission is charged at: the grant in force once the instance runs (R271, R277). -/
def State.admitGrant (s : State) (h : ListHdr) : Nat := if h.engine == 0 then s.grantOf h.part else if s.flag F.MJ_CFG_BOOST then 4 else 3

/-- The energy and the zones of a list pass R273. -/
def State.fits (s : State) (h : ListHdr) : Bool :=
  decide ((h.charge (s.admitGrant h) : Int) ≤ s.level h.cls) && s.zonesFit h

/-- An instance admitted as list `run` at a grant (R271, R273 step 4, R280). -/
def State.admitInst (s : State) (i : Inst) (run grant : Nat) (forced : Bool) : State :=
  let h := s.listHdr run
  let c := h.charge grant
  let s := s.chargeClass h.cls c
  let wait := satNat 32 ((s.now - i.readyAt) / 1000)
  let s := if s.get (F.MJ_C_WAIT_MAX h.cls) < wait then s.set (F.MJ_C_WAIT_MAX h.cls) wait else s
  let s := s.releaseHold h.cls i.list
  let i' := { i with run := run, grant := if forced || h.engine != 0 then grant else (if s.flag F.MJ_CFG_BOOST then 4 else 3), forced := forced, phase := .admitted }
  { s with cl := { s.cl with insts := s.cl.insts.filter (fun x => x.list != i.list) ++ [i'] } }

/-- The variant runs in place of the list (R255, R263): VARIANT_RUNS and the results' variant. -/
def State.chooseVariant (s : State) (i : Inst) (v : Nat) : State :=
  let a := s.listStateAddr i.list + 12
  (s.setListState i.list 12 2 (satNat 16 (s.dramNat a 2 + 1))).recordVariant i.bound (s.listHdr v).variantCode

/-- A forced grant of list `run` (R276 step 2). -/
def State.force (s : State) (i : Inst) (run : Nat) : State :=
  let h := s.listHdr run
  let g := if h.engine == 0 then s.get F.MJ_CFG_FORCE_OP else s.admitGrant h
  (s.admitInst i run g true).incSat (F.MJ_C_FORCED 0)

/-- The fallback of a class-0 instance past its slack (R276). -/
def State.fallback (s : State) (i : Inst) : State :=
  let h := s.listHdr i.list
  if h.degr then
    let v := h.varlink
    let s := s.chooseVariant i v
    if s.fits (s.listHdr v) then
      (s.admitInst i v (s.admitGrant (s.listHdr v)) false).incSat (F.MJ_C_VARIANT 0)
    else s.force i v
  else s.force i i.list

/-- ns of slack left to a ready class-0 instance (R275). -/
def State.slackLeft (s : State) (i : Inst) : Nat := i.readyAt + s.get F.MJ_C0_SLACK * 1000 - s.now

/-- What class 0 receives per tick: in debt all of R but the reserve (R268, R275). -/
def State.refill0 (s : State) : Nat :=
  if s.level 0 < 0 then s.refill 0 + s.refill 1 + s.refill 2 else s.refill 0

/-- The fallback falls due in this pass (R275). -/
def State.fallbackDue (s : State) (i : Inst) (h : ListHdr) : Bool :=
  let short := (h.charge (s.admitGrant h) : Int) - s.level 0
  let ticks := if s.refill0 == 0 then 2 ^ 32 else cdiv short.toNat s.refill0
  s.slackLeft i == 0 || (decide (0 < short) && s.zonesFit h && decide (s.slackLeft i < ticks * 1000))

/-- An instance deferred counts once (R273). -/
def State.defer (s : State) (i : Inst) (c : Nat) : State :=
  if i.deferred then s else (s.setInst { i with deferred := true }).incSat (F.MJ_C_DEFER c)

/-- One ready instance in a pass (R273, R275, R276). -/
def State.tryAdmit (s : State) (i : Inst) : State :=
  let h := s.listHdr i.list
  if s.classOpen i h && s.fits h then s.admitInst i i.list (s.admitGrant h) false
  else if h.cls == 0 && s.fallbackDue i h then s.fallback i
  else s.defer i h.cls

/-- The order of a pass (R273 step 2): class, descending PRIO, list. -/
def State.passKey (s : State) (i : Inst) : Nat :=
  let h := s.listHdr i.list
  (h.cls * 16 + (15 - h.prio)) * 4096 + i.list

/-- MJ_STATUS.NOROOM: the zones below class-0 headroom (R280). -/
def State.refreshNoroom (s : State) : State :=
  s.set F.MJ_STATUS_NOROOM ((List.range 12).foldl (fun m z => putBit m z (decide (s.headroom z < s.headroomNeed 0))) 0)

/-- An admission pass (R273). -/
def State.pass (s : State) : State :=
  let s := s.refillDue
  (sortByKey s.passKey (s.cl.insts.filter (fun i => i.phase == .ready))).foldl State.tryAdmit s

/-! ### From occurrence to take-up (R253, R254, R255) -/

/-- The context is in reset: its take-ups are held (R324). -/
def State.ctxHeld (s : State) (c : Nat) : Bool := s.get (F.RC_CTX_STAT_STATE c) != 0

/-- The occurrences of list n that carry results, oldest first. -/
def State.occsOf (s : State) (n : Nat) : List Occ := s.cl.occs.filter (fun o => o.list == n)

/-- While the part parks, list n may take only occurrences that bind results (R369 step 1). -/
def State.parkBars (s : State) (n : Nat) : Bool :=
  s.parking && (match s.occsOf n with
    | o :: _ => o.bound.isEmpty
    | [] => true)

/-- How many occurrences an instance of list n takes now; 0 when it cannot become ready (R253). -/
def State.takes (s : State) (n : Nat) (h : ListHdr) : Nat :=
  let p := s.pendingOf n
  if p == 0 || s.parkBars n then 0
  else if h.kind == 1 then
    let due := match s.occsOf n with
      | o :: _ => decide (o.sealTime + h.batchWait ≤ s.now)
      | [] => false
    if h.batch ≤ p || due then min p h.batch else 0
  else 1

/-- Take-ups of list n since the start under R86. -/
def State.takenOf (s : State) (n : Nat) : Nat := (assocGet n s.cl.taken).getD 0

/-- The first `k` occurrences of list n removed. -/
def dropOccs (n : Nat) : Nat → List Occ → List Occ
  | _, [] => []
  | k, o :: os => if o.list == n && decide (0 < k) then dropOccs n (k - 1) os else o :: dropOccs n k os

/-- List n becomes ready when it can (R253, R254). -/
def State.makeReady (s : State) (n : Nat) : State :=
  let h := s.listHdr n
  let k := s.takes n h
  if k == 0 || (s.inst? n).isSome || s.ctxHeld h.ctx then s
  else
    let bound := ((s.occsOf n).take k).flatMap (fun o => o.bound)
    let idx := match bound.getLast? with
      | some b => b.2
      | none => s.takenOf n
    let s := (s.setListState n 0 4 (s.pendingOf n - k)).setListState n 14 1 1
    let i : Inst := { list := n, run := n, bound := bound, idx := idx, phase := .ready, cmd := 0, cycles := [], readyAt := s.now, deferred := false, grant := 3, forced := false, wait := none, progressAt := s.now, sems := [], descs := none, waited := false }
    { s with cl := { s.cl with occs := dropOccs n k s.cl.occs, insts := s.cl.insts ++ [i] } }

/-- The instance is removed at take-up: a held partition or the held fusion engine (R331). -/
def State.takeupBarred (s : State) (h : ListHdr) : Bool :=
  (h.engine == 0 && s.flag (F.RC_PART_GEN_HELD h.part)) || (h.engine == 2 && s.rc.fusionHeld)

/-- An admitted instance taken up by its queue (R253, R255). -/
def State.takeUp (s : State) (i : Inst) : State :=
  let h := s.runHdr i
  if s.takeupBarred h then (s.markPartial i.bound).dropInst i
  else
    let s := (s.setListState i.list 4 4 (s.dramNat (s.listStateAddr i.list + 4) 4 + 1)).setListState i.list 14 1 2
    let s := s.incWrap F.CL_TAKEUPS
    let s := { s with cl := { s.cl with taken := assocPut i.list (s.takenOf i.list + 1) s.cl.taken } }
    let s := s.putInst { i with phase := .running, progressAt := s.now }
    let s := if h.engine == 0 then s.refreshGrant h.part else s
    s.refreshRunning

/-- Admitted instances in order of admission, each taken up when its queue is free and its context not in reset (R253, R324). -/
def State.takeUps (s : State) : State :=
  (s.cl.insts.filter (fun i => i.phase == .admitted)).foldl
    (fun s i => let h := s.runHdr i
      if (s.instOn h.engine h.queue).isSome || s.ctxHeld h.ctx then s else s.takeUp i) s

/-- Ready lists, a pass when one became ready, take-ups; again, up to `n` times, while instances came to an end at take-up. -/
def State.settleN (s : State) : Nat → Bool → State
  | 0, _ => s
  | n + 1, again =>
    let before := s.cl.insts.length
    let s := s.lists.foldl State.makeReady s
    let grown := s.cl.insts.length
    let s := if again || decide (before < grown) then s.pass else s
    let s := s.takeUps
    if s.cl.insts.length < grown then s.settleN n true else s

/-- What follows a change of occurrences or the end of an instance (`ended`) in the same cycle (R253, R255, R273). -/
def State.settle (s : State) (ended : Bool) : State := s.settleN 64 ended

/-- An instance that completed its END (R255, R266). -/
def State.endInst (s : State) (i : Inst) : State :=
  let h := s.runHdr i
  let s := s.setListState i.list 8 4 (s.dramNat (s.listStateAddr i.list + 8) 4 + 1)
  let s := s.incWrap (F.CL_Q_RUNS (queueNo h.engine h.queue))
  (((s.occurEnd i).dropInst i).cbStoredAll (s.listHdr i.list).cls i.bound).settle true

end Sys2Proof.Machine
end

