-- ==== Sys2Proof/Machine/ThymeOps.lean ====
section
/-! DEFINITION. Thyme's shared operations: commits (R36, R44), time quality (R41, R42), the jump unit (R41 to R45), and captures (R49). -/

namespace Sys2Proof.Machine

/-- Thyme's state changed. -/
def State.setThy (s : State) (f : ThyState → ThyState) : State := { s with thy := f s.thy }

/-- The triple re-anchored at counter `c` with device time continuous, a new rate, and a step (R36). -/
def Triple.reanchor (t : Triple) (c : Nat) (rate step : Int) : Triple :=
  { offInt := signedOf 64 (patternOf 64 ((t.time c : Int) - (c : Int) + step)), offFrac := t.frac c, rate := rate, anchor := c }

/-! ### The triple in force (R36) -/

/-- The triple in force at counter value `c`: a commit is in force after the cycle in which it is made (R36). -/
def ThyState.tripleAt (t : ThyState) (c : Nat) : Triple :=
  ((t.past.filter (fun p => decide (c ≤ p.1))).getLast?.map (fun p => p.2)).getD t.triple

/-- The triple a read, a capture or a comparator test of this Thyme cycle uses (R36). -/
def State.cycleTriple (s : State) : Triple := s.thy.tripleAt s.thy.counter

/-- Device time as this Thyme cycle reads it (R36). -/
def State.cycleNow (s : State) : Nat := s.cycleTriple.time s.thy.counter

/-- The triple in force kept at a commit, for what still goes by it (R36, R49); commits of more than 1 ms ago are forgotten, which no filter delay reaches. -/
def ThyState.keepTriple (t : ThyState) : ThyState :=
  { t with past := (t.counter, t.triple) :: t.past.filter (fun p => decide (t.counter ≤ p.1 + 10 ^ 6)) }

/-- The holdover timer: counter time since the last measurement within JUMP or accepted (R42). -/
def State.holdNs (s : State) : Nat :=
  match s.thy.holdFrom with
  | some c => (s.thy.counter + 2 ^ 64 - c) % 2 ^ 64
  | none => 0

/-- TQ 1 while the estimate timer × PPB is within TB_HOLD_LIMIT, 2 beyond (R42). -/
def State.holdCode (s : State) : Nat :=
  if s.holdNs * s.get F.TB_HOLD ≤ s.get F.TB_HOLD_LIMIT * 10 ^ 9 then 1 else 2

/-- The TQ code of the time quality state (R41, R42). -/
def State.tqCode (s : State) : Nat :=
  match s.thy.tq with
  | .free => 4
  | .locking => if s.flag F.TB_STATUS_LOCKED_ONCE then s.holdCode else 4
  | .locked => 0
  | .holdover => s.holdCode
  | .refused => 3

/-- TB_STATUS.TQ brought to the state's code, with event 0x0F2 when it changes (R292). -/
def State.refreshTq (s : State) : State :=
  let q := s.tqCode
  if q == s.tq then s else (s.set F.TB_STATUS_TQ q).raise 0x0F2

/-- TB_HOLD_ELAPSED: the holdover timer in ms while it is shown (R42). -/
def State.holdElapsed (s : State) : Nat :=
  let shown := match s.thy.tq with
    | .locking => true
    | .holdover => true
    | .refused => true
    | _ => false
  if s.flag F.TB_STATUS_LOCKED_ONCE && shown then satNat 32 (s.holdNs / 10 ^ 6) else 0

/-- A step log entry (R58): counter, device time, step, JUMP_ID, kind, run count. -/
def State.stepLog (s : State) (time : Nat) (step : Int) (jumpId kind count : Nat) : State :=
  s.ringPut (F.TB_STEP_LOG 0).addr 8 8 F.TB_STEP_IDX_NEXT F.TB_STEP_IDX_TOTAL
    (leBytes 8 s.thy.counter ++ leBytes 8 time ++ leBytes 8 (patternOf 64 step) ++ leBytes 2 jumpId ++
      [BitVec.ofNat 8 kind, BitVec.ofNat 8 (satNat 8 count)] ++ zerosB 4)

/-- The step added to the offsets of the clock models of streams below n (R44). -/
def State.shiftModels (s : State) (step : Int) : Nat → State
  | 0 => s
  | n + 1 =>
    let s := s.shiftModels step n
    s.set64 (F.TB_SM_OFS_LO n) (F.TB_SM_OFS_HI n)
      (patternOf 64 ((s.get64 (F.TB_SM_OFS_LO n) (F.TB_SM_OFS_HI n) : Int) + step))

/-- No run is pending any more (R44, R41). -/
def State.endRun (s : State) : State :=
  ((s.set F.TB_JUMP_REFUSED_PENDING 0).set F.TB_STATUS_CONSIST 0).setThy (fun t => { t with run := none, arm := none })

/-- The pending run's count. -/
def State.runCount (s : State) : Nat :=
  match s.thy.run with
  | some r => r.count
  | none => 0

/-- A stream's device-time watermark fixed, as a packet opens or Thyme steps: a watermark never decreases (R89, R90). -/
def State.fixDevWm (s : State) (n : Nat) : State :=
  if s.flag (F.FU_WM_CFG_DEV_WM n) && (s.stream n).open_.isNone && (s.stream n).fifo.all (fun p => p.taken) then
    let w := s.now - s.get (F.FU_WM_CFG_LAG_US n) * 1000
    if s.get64 (F.FU_WM_LO n) (F.FU_WM_HI n) < w then s.set64 (F.FU_WM_LO n) (F.FU_WM_HI n) w else s
  else s

/-- A rate commit of the cycle in which a step is committed is refused with code 3: the triple and the count as before it (R37). -/
def State.refuseRate (s : State) : State :=
  if s.thy.rateAt == some s.thy.counter then
    let s := (s.set F.TB_COMMIT_STATUS_CODE 3).set F.TB_COMMIT_STATUS_COUNT (s.get F.TB_COMMIT_STATUS_COUNT + 2 ^ 16 - 1)
    s.setThy (fun t => { t with triple := t.tripleAt t.counter, rateAt := none })
  else s

/-- A step commit (R36, R37, R44): watermarks kept (R89), the triple, the models, the log, event 0x0F1. -/
def State.stepCommit (s : State) (m : Int) (kind : Nat) : State :=
  let s := ((List.range 48).foldl State.fixDevWm s).refuseRate
  let c := s.thy.counter
  let before := s.now
  let jump := if kind == 0 then 0 else s.get F.TB_JUMP_REFUSED_JUMP_ID
  let s := s.stepLog before m jump kind (if kind == 0 then 0 else s.runCount)
  let s := s.setThy (fun t => { t.keepTriple with triple := t.triple.reanchor c t.triple.rate m, stepAt := some c, holdFrom := some c })
  let s := s.setThy (fun t => { t with stepSpan := some (before, t.triple.time c), backs := t.backs + b2n (decide (t.triple.time c < before)) })
  ((s.shiftModels m 48).endRun).raise 0x0F1

/-- A forward step carried device time past `t` (R50, R98, R302). -/
def State.passedByStep (s : State) (t : Nat) : Bool :=
  match s.thy.stepSpan with
  | some (b, a) => decide (b < t) && decide (t ≤ a)
  | none => false

/-- The time quality state entered with the count of R41 at `n`. -/
def State.enterTq (s : State) (q : TqState) (n : Nat) : State := s.setThy (fun t => { t with tq := q, consec := n })

/-- Locked is entered; the first entry sets LOCKED_ONCE (R41, R45). -/
def State.enterLocked (s : State) : State := (s.set F.TB_STATUS_LOCKED_ONCE 1).enterTq .locked 0

/-- A measurement within JUMP counted in Locking or Holdover from count `n` (R41). -/
def State.countMeas (s : State) (q : TqState) (n : Nat) (m : Int) : State :=
  if m.natAbs ≤ s.get F.TB_LOCK_NS then
    if 4 ≤ n + 1 then s.enterLocked else s.enterTq q (n + 1)
  else s.enterTq q 0

/-- The pending run is discarded with log entry kind 15 (R41). -/
def State.discardRun (s : State) : State :=
  match s.thy.run with
  | some r => (s.stepLog s.now r.last 0 15 r.count).endRun
  | none => s

/-- A run begins with m (R41): a new JUMP_ID, PENDING, STICKY, event 0x0F0; Refused is entered. -/
def State.beginRun (s : State) (m : Int) : State :=
  let s := s.incWrap F.TB_JUMP_REFUSED_JUMP_ID
  let s := (s.set F.TB_JUMP_REFUSED_PENDING 1).set F.TB_JUMP_REFUSED_STICKY 1
  let s := (s.set64 F.TB_JUMP_SIZE_LO F.TB_JUMP_SIZE_HI (patternOf 64 m)).set F.TB_STATUS_CONSIST 1
  (s.setThy (fun t => { t with run := some ⟨1, m⟩, arm := none, tq := .refused, consec := 0 })).raise 0x0F0

/-- A measurement consistent with the run (R41). -/
def State.extendRun (s : State) (m : Int) : State :=
  let n := s.runCount + 1
  let s := (s.set64 F.TB_JUMP_SIZE_LO F.TB_JUMP_SIZE_HI (patternOf 64 m)).set F.TB_STATUS_CONSIST (satNat 4 n)
  s.setThy (fun t => { t with run := some ⟨n, m⟩ })

/-- The re-lock policy accepts the pending step now (R43): its step log kind. -/
def State.policyAccepts (s : State) : Option Nat :=
  match s.get F.TB_CFG_POLICY with
  | 0 => if s.flag F.TB_STATUS_STARTED then none else some 1
  | 1 => if s.flag F.TB_STATUS_STILL && decide (8 ≤ s.runCount) then some 2 else none
  | 2 =>
    match s.thy.arm with
    | some until_ => if decide (s.now ≤ until_) && decide (8 ≤ s.runCount) then some 3 else none
    | none => none
  | _ => none

/-- A pending step is accepted when the policy says so: a step commit, then Locked (R43, R44). -/
def State.tryAccept (s : State) (m : Int) : State :=
  match s.policyAccepts with
  | some kind => (s.stepCommit m kind).enterLocked
  | none => s

/-- A jump beyond JUMP: it extends the run it is consistent with, or begins one; then the policy is tested (R41, R43). -/
def State.jump (s : State) (m : Int) : State :=
  let consistent := match s.thy.run with
    | some r => decide ((m - r.last).natAbs ≤ s.get F.TB_CONSIST_NS)
    | none => false
  (if consistent then s.extendRun m else s.beginRun m).tryAccept m

/-- The state machine of R41 on a measurement. -/
def State.judgeMeas (s : State) (m : Int) : State :=
  let within := decide (m.natAbs ≤ s.get F.TB_JUMP_NS)
  match s.thy.tq with
  | .free =>
    if !s.flag F.TB_STATUS_STARTED then (s.stepCommit m 0).enterTq .locking 0
    else if within then s.countMeas .locking 0 m
    else s.jump m
  | .locking => if within then s.countMeas .locking s.thy.consec m else s.jump m
  | .locked => if within then s else s.jump m
  | .holdover => if within then s.countMeas .holdover s.thy.consec m else s.jump m
  | .refused =>
    if within then
      let s := s.discardRun
      if s.flag F.TB_STATUS_LOCKED_ONCE then s.enterTq .holdover 0 else s.countMeas .locking 0 m
    else s.jump m

/-- A measurement submitted (R39, R41): the holdover timer restarts on one within JUMP, the state machine judges it, TQ follows. -/
def State.measure (s : State) (m : Int) : State :=
  let s := if m.natAbs ≤ s.get F.TB_JUMP_NS then s.setThy (fun t => { t with holdFrom := some t.counter }) else s
  let s := s.judgeMeas m
  (s.setThy (fun t => { t with lastMeas := some s.now, timedOut := false })).refreshTq

/-- No measurement has arrived within TB_MEAS_TIMEOUT of device time (R37, R41; log entry 14). -/
def State.measStale (s : State) : Bool :=
  match s.thy.lastMeas with
  | some t => decide (t + s.get F.TB_MEAS_TIMEOUT * 10 ^ 6 ≤ s.now)
  | none => true

/-- The largest rate a commit may load (R37). -/
def State.rateLimit (s : State) : Nat := s.get F.TB_RATE_MAX * 2 ^ 40 / 10 ^ 9

/-- The refusal code of a rate commit, 0 when it is applied (R37). -/
def State.rateCode (s : State) : Nat :=
  if s.rateLimit < (s.getI F.TB_RATE_NEXT).natAbs then 1
  else if s.tq == 3 || s.measStale then 2
  else if s.thy.stepAt == some s.thy.counter then 3
  else 0

/-- The PTP MAC in use (R38). -/
def State.ptpMac (s : State) : Nat := if s.thy.altActive then s.get F.TB_CFG_ALT_MAC else s.get F.TB_CFG_PTP_MAC

/-- Device time of an edge in units of 250 ps, by the triple in force at the edge: `delay` ns before the counter value, and `q` quarter-ns after that (R49). -/
def State.edgeValue (s : State) (q delay : Nat) : Nat :=
  let c := (s.thy.counter + 2 ^ 64 - delay) % 2 ^ 64
  let t := s.thy.tripleAt c
  4 * t.time c + (t.frac c + q * 2 ^ 14) / 2 ^ 14

/-- A glitch filter of FILT · 10 ns passes an edge after which its input held its level for `held` ns: it rejects shorter pulses (R244). -/
def filterPasses (filt held : Nat) : Bool := decide (10 * filt ≤ held)

/-- The latches a read of TB_NOW_LO fills (R35). -/
def State.latchNow (s : State) (r : Nat) : State :=
  let l : TimeLatch := ⟨s.cycleNow, s.cycleTriple.frac s.thy.counter, s.thy.counter, s.cycleTriple⟩
  s.setThy (fun t => { t with latches := setAt t.latches r l })

/-- A requester's latch of R35. -/
def State.latch (s : State) (r : Nat) : TimeLatch := s.thy.latches.getD r ⟨0, 0, 0, .zero⟩

/-- The result sets' hold of R45 stands: START_WAIT with no lock yet and the hold not over. -/
def State.startHeld (s : State) : Bool :=
  s.flag F.TB_CFG_START_WAIT && !s.flag F.TB_STATUS_LOCKED_ONCE && !s.thy.holdOver

end Sys2Proof.Machine
end

