-- ==== Sys2Proof/Machine/SensorClock.lean ====
section
/-! DEFINITION. The clock models of streams: pairing of captures, stamping, residual tests, unwrapping (R51 to R55, R75). -/

namespace Sys2Proof.Machine

/-- A stream's model coefficients: offset, rate, anchor (R52). -/
structure Coef where
  off : Int
  rate : Int
  anchor : Int
  deriving DecidableEq, Repr

/-- predict(s) of R52. -/
def Coef.predict (c : Coef) (x : Int) : Int := x + c.off + ((x - c.anchor) * c.rate) / ((2 ^ 40 : Nat) : Int)

/-- The coefficients in the TB_SM registers of stream n. -/
def State.coef (s : State) (n : Nat) : Coef :=
  ⟨signedOf 64 (s.get64 (F.TB_SM_OFS_LO n) (F.TB_SM_OFS_HI n)), s.getI (F.TB_SM_RATE n),
   (s.get64 (F.TB_SM_ANCHOR_LO n) (F.TB_SM_ANCHOR_HI n) : Int)⟩

/-- The coefficients of stream n written to its registers. -/
def State.setCoef (s : State) (n : Nat) (c : Coef) : State :=
  let s := s.set64 (F.TB_SM_OFS_LO n) (F.TB_SM_OFS_HI n) (patternOf 64 c.off)
  (s.setI (F.TB_SM_RATE n) c.rate).set64 (F.TB_SM_ANCHOR_LO n) (F.TB_SM_ANCHOR_HI n) (patternOf 64 c.anchor)

/-- What a sample's stamping gives (R51 to R53): its stamp, the sensor time of header field 0x20, the verdicts, and the coefficients in force for it. -/
structure Stamped where
  stamp : Int
  sensor : Int
  withheld : Bool
  fallback : Bool
  coef : Option Coef
  deriving DecidableEq, Repr

/-- The residual bound of stream n (R53). -/
def State.scBound (s : State) (n : Nat) : Nat :=
  if s.get (F.TB_SC_BOUND n) == 0 then s.get (F.TB_SC_FRAME n) else s.get (F.TB_SC_BOUND n)

/-- W of R55 in ns. -/
def State.scWrap (s : State) (n : Nat) : Nat := s.get (F.TB_SC_MOD n) * s.get (F.TB_SC_TICK n) / 1000

/-- The candidate u + j·w nearest e, the earlier on a tie (R55). -/
def nearestWrap (u e w : Int) : Int :=
  if w ≤ 0 then u
  else
    let lo := u + (e - u) / w * w
    if e - lo ≤ lo + w - e then lo else lo + w

/-- The unwrapped sensor time of `v` ticks for an item of stream n that arrived at `arrival` (R55). -/
def State.unwrap (s : State) (n v arrival : Nat) : Int :=
  if s.get (F.TB_SC_MOD n) == 0 then (v : Int)
  else
    let u : Int := ((v * s.get (F.TB_SC_TICK n) / 1000 : Nat) : Int)
    let lat : Int := s.get (F.TB_SC_LAT n)
    match s.get (F.TB_SC_CFG_SOURCE n) with
    | 1 =>
      if s.flag (F.TB_SM_STAT_SEEDED n) then nearestWrap u ((arrival : Int) - lat - (s.coef n).off) (s.scWrap n) else u
    | _ => nearestWrap u ((arrival : Int) - lat - s.getI (F.TB_SC_FIX n)) (s.scWrap n)

/-- Whether stream n's suspect state withholds its samples: source 1 without fallback, and source 2 (R53). -/
def State.suspectWithholds (s : State) (n : Nat) : Bool :=
  s.get (F.TB_SC_CFG_SOURCE n) == 2 || !s.flag (F.TB_SC_CFG_FALLBACK n)

/-- TB_SM_STAT.WITHHELD and FALLBACK of stream n and the masks follow its suspect state (R53, R58, R59). -/
def State.refreshSuspect (s : State) (n : Nat) : State :=
  let sus := s.flag (F.TB_SM_STAT_SUSPECT n)
  let wh := sus && s.suspectWithholds n
  let s := (s.setFlag (F.TB_SM_STAT_WITHHELD n) wh).setFlag (F.TB_SM_STAT_FALLBACK n) (sus && !wh)
  (s.setMaskBit F.TB_SUSPECT_LO F.TB_SUSPECT_HI n sus).setMaskBit F.TB_WITHHELD_LO F.TB_WITHHELD_HI n wh

/-- Stream n enters time-suspect (R53): its bits, the entry count, event 0x070 + n, Chervil's verdict 0x22; source 1 seeds again. -/
def State.enterSuspect (s : State) (n : Nat) : State :=
  let s := ((s.setFlag (F.TB_SM_STAT_SUSPECT n) true).set (F.TB_SM_STAT_GOOD n) 0).incSat (F.TB_SM_STAT_ENTRIES n)
  let s := if s.get (F.TB_SC_CFG_SOURCE n) == 1 then s.setFlag (F.TB_SM_STAT_SEEDED n) false else s
  ((s.refreshSuspect n).raise (0x070 + n)).health 0x22 n 0 true

/-- Stream n leaves time-suspect (R53). -/
def State.leaveSuspect (s : State) (n : Nat) : State :=
  let s := s.setFlag (F.TB_SM_STAT_SUSPECT n) false
  (s.refreshSuspect n).health 0x22 n 0 false

/-- A residual tested under R53; `bad` makes it a failing one. -/
def State.testResidual (s : State) (n : Nat) (r : Int) (bad : Bool) : State :=
  let s := s.setI (F.TB_SM_RESID n) (satSigned 32 r)
  let sus := s.flag (F.TB_SM_STAT_SUSPECT n)
  if !bad && decide (2 * r.natAbs ≤ s.scBound n) then
    let good := min 16 (s.get (F.TB_SM_STAT_GOOD n) + 1)
    let s := s.set (F.TB_SM_STAT_GOOD n) good
    if sus && good == 16 then s.leaveSuspect n else s
  else if !sus && (bad || decide (s.scBound n < r.natAbs)) then s.enterSuspect n
  else s.set (F.TB_SM_STAT_GOOD n) 0

/-- The model update of R52 after a residual r on a stream that is not time-suspect. -/
def State.updateModel (s : State) (n : Nat) (x r : Int) : State :=
  let c := s.coef n
  let stamp := c.predict x
  let prev := (s.clock n).sPrev.getD x
  let raw := c.rate + (r * ((2 ^ 40 : Nat) : Int)).tdiv (x - prev) / ((2 ^ s.get (F.TB_SC_GAIN_B n) : Nat) : Int)
  let rate := if x = prev then c.rate else satSigned 32 raw
  let s := if x ≠ prev && rate ≠ raw then s.setClock n { s.clock n with clamps := (s.clock n).clamps + 1 } else s
  s.setCoef n ⟨stamp - x + r / ((2 ^ s.get (F.TB_SC_GAIN_A n) : Nat) : Int), rate, x⟩

/-- The pair that seeds the model (R52). -/
def State.seedModel (s : State) (n : Nat) (x c : Int) : State :=
  (s.setCoef n ⟨c - x, 0, x⟩).setFlag (F.TB_SM_STAT_SEEDED n) true

/-- The next capture of stream n's pairing; none when it has not been taken: then it is owed (R52). -/
def State.takeCapture (s : State) (n : Nat) : State × Option Nat :=
  let k := s.clock n
  match k.caps with
  | c :: cs => (s.setClock n { k with caps := cs }, c)
  | [] => (s.setClock n { k with owed := k.owed + 1 }, none)

/-- The stamp of an unpaired sample (R52). -/
def State.unpairedStamp (s : State) (n : Nat) (x : Option Int) (arrival : Nat) : Int :=
  match x with
  | some v => if s.flag (F.TB_SM_STAT_SEEDED n) then (s.coef n).predict v else (arrival : Int) - (s.get (F.TB_SC_LAT n) : Int)
  | none => (arrival : Int) - (s.get (F.TB_SC_LAT n) : Int)

/-- A verdict-marked stamp of stream n as its suspect state stands. -/
def State.stampedAs (s : State) (n : Nat) (stamp sensor : Int) (fallback : Bool) (c : Option Coef) : Stamped :=
  let sus := s.flag (F.TB_SM_STAT_SUSPECT n)
  ⟨stamp, sensor, sus && s.suspectWithholds n, fallback, c⟩

/-- A paired sample of a capture-model stream: sensor time x, capture c (R52, R53). -/
def State.stampPaired (s : State) (n : Nat) (x c : Int) : State × Stamped :=
  let fix := s.getI (F.TB_SC_FIX n)
  let prev := fun (s : State) => s.setClock n { s.clock n with sPrev := some x }
  if s.flag (F.TB_SM_STAT_SEEDED n) then
    let co := s.coef n
    let stamp := co.predict x
    let r := c - stamp
    let s := s.testResidual n r false
    if s.flag (F.TB_SM_STAT_SUSPECT n) then
      let fb := !s.suspectWithholds n
      (prev s, s.stampedAs n (if fb then c + fix else stamp) x fb (some co))
    else (prev (s.updateModel n x r), s.stampedAs n stamp x false (some co))
  else
    let s := s.seedModel n x c
    let fb := s.flag (F.TB_SM_STAT_SUSPECT n) && !s.suspectWithholds n
    (prev s, s.stampedAs n (if fb then c + fix else c) x fb (some (s.coef n)))

/-- A sample of stream n stamped when the packet that holds its start closes (R51, R52). -/
def State.stampSample (s : State) (n : Nat) (src : StampSource) : State × Stamped :=
  let arrival : Int := src.arrival
  match s.get (F.TB_SC_CFG_SOURCE n) with
  | 1 =>
    let (s, cap) := s.takeCapture n
    let x := src.ts.map (fun v => s.unwrap n v src.arrival)
    match x, cap with
    | some x, some c => s.stampPaired n x c
    | x, _ =>
      let stamp := s.unpairedStamp n x src.arrival
      let co := if s.flag (F.TB_SM_STAT_SEEDED n) then some (s.coef n) else none
      (s, s.stampedAs n stamp (x.getD stamp) false co)
  | 2 =>
    match src.ts with
    | some v =>
      let x := s.unwrap n v src.arrival
      let stamp := x + s.getI (F.TB_SC_FIX n)
      let r := arrival - (s.get (F.TB_SC_LAT n) : Int) - stamp
      let s := s.testResidual n r (src.lock == some false)
      (s, s.stampedAs n stamp x false none)
    | none =>
      let stamp := s.unpairedStamp n none src.arrival
      (s, s.stampedAs n stamp stamp false none)
  | _ => (s, ⟨arrival, arrival, false, false, none⟩)

/-- The time of a later datagram of a block: mapped with the block's source and coefficients, no residual, no update (R64). -/
def State.mapLater (s : State) (n : Nat) (co : Option Coef) (src : StampSource) (before : Int) : Int :=
  match s.get (F.TB_SC_CFG_SOURCE n) with
  | 1 =>
    match src.ts, co with
    | some v, some c => c.predict (s.unwrap n v src.arrival)
    | some _, none => (src.arrival : Int) - (s.get (F.TB_SC_LAT n) : Int)
    | none, _ => before
  | 2 =>
    match src.ts with
    | some v => s.unwrap n v src.arrival + s.getI (F.TB_SC_FIX n)
    | none => before
  | _ => src.arrival

/-- The pairing of stream n begins at a start marker: with the newest capture taken by then (R52, R75). -/
def State.beginPairing (s : State) (n : Nat) : State :=
  let k := s.clock n
  s.setClock n { k with paired := true, caps := [k.newest], owed := 0 }

/-- The start marker that ends a resynchronisation restarts the residual test (R75). -/
def State.restartModel (s : State) (n : Nat) : State :=
  ((s.setFlag (F.TB_SM_STAT_SEEDED n) false).set (F.TB_SM_STAT_GOOD n) 0).beginPairing n

/-- A capture on line L reaches the models of the capture-model streams it serves (R52). -/
def State.feedCapture (s : State) (line v : Nat) : Nat → State
  | 0 => s
  | n + 1 =>
    let s := s.feedCapture line v n
    if s.get (F.TB_SC_CFG_SOURCE n) == 1 && s.get (F.TB_SC_CFG_CAP_LINE n) == line && s.flag (F.IG_SCFG_EN n) then
      let k := { s.clock n with newest := some v }
      s.setClock n (if !k.paired then k
        else if 0 < k.owed then { k with owed := k.owed - 1 }
        else { k with caps := k.caps ++ [some v] })
    else s

end Sys2Proof.Machine
end

