-- ==== Sys2Proof/Machine/IngressOps.lean ====
section
/-! DEFINITION. Packets and FIFOs of ingress streams: opening, writing, closing, truncation, resynchronisation, frozen and repeated input (R63 to R80). -/

namespace Sys2Proof.Machine

/-- IG_KIND0 to IG_KIND2 of stream n (R84). -/
def igKind (n i : Nat) : Field := ⟨0x21020 + 64 * n + 4 * i, 0, 32⟩

/-- The kind of stream n (R60). -/
def State.kindOf (s : State) (n : Nat) : Nat := s.get (F.IG_SCFG_KIND n)

/-- The interface id of stream n's violations (R81). -/
def State.ifaceOf (s : State) (n : Nat) : Nat :=
  let port := s.get (F.IG_SCFG_PORT n)
  match s.kindOf n with
  | 0 => port
  | 1 => port
  | 2 => 0x08 + port % 4
  | 3 => 0x12
  | 4 => 0x0C + port % 4
  | _ => 0x10 + port % 2

/-- A violation of stream n whose detail begins with the stream number (R83). -/
def State.streamViol (s : State) (n code : Nat) (rest : Bytes) : State :=
  s.streamViolation (s.ifaceOf n) code (BitVec.ofNat 8 n :: rest) n

/-- The stream ended by the standard's CRC-32C (R67). -/
def crc32c (bs : Bytes) : Nat := Nat.xor (crcR 0x82F63B78 0xFFFFFFFF bs) 0xFFFFFFFF

/-! ### Space (R66, R69, R70) -/

/-- 64-byte units of a packet with `len` data bytes. -/
def packetUnits (len : Nat) : Nat := 1 + cdiv len 64

/-- Units the closed packets of a FIFO occupy. -/
def fifoUnits (fifo : List Packet) : Nat := fifo.foldl (fun n p => n + packetUnits p.data.length) 0

/-- UNITS of stream n; where no check keeps it from 0 (cameras and record streams), 0 counts as 1 (DESIGN CHOICE, log entry 99: the manual gives UNITS = 0 no meaning). -/
def State.unitsOf (s : State) (n : Nat) : Nat := max 1 (s.get (F.IG_PKT_SHAPE_UNITS n))

/-- Units a FIFO holds: its size in KiB. -/
def State.fifoCap (s : State) (n : Nat) : Nat := s.get (F.IG_FIFO_SIZE n) * 16

/-- Occupied units with the open packet. -/
def StreamIn.fill (x : StreamIn) : Nat :=
  fifoUnits x.fifo + (match x.open_ with
    | some p => packetUnits p.data.length
    | none => 0)

/-- Free units. -/
def State.freeUnits (s : State) (n : Nat) : Nat := s.fifoCap n - (s.stream n).fill

/-- IG_FIFO_STATUS of stream n, and the OVR masks (R70, R84). -/
def State.refreshFifo (s : State) (n : Nat) : State :=
  let x := s.stream n
  let s := (s.setFlag (F.IG_FIFO_STATUS_FULL n) (s.freeUnits n == 0)).setFlag (F.IG_FIFO_STATUS_OPEN n) x.open_.isSome
  let s := s.set (F.IG_FIFO_STATUS_FILL n) x.fill
  let s := s.setMaskBit F.IG_OVR_LO F.IG_OVR_HI n (s.flag (F.IG_FIFO_STATUS_OVR n))
  s.setFlag F.IG_STATUS_ANY_OVR (s.get64 F.IG_OVR_LO F.IG_OVR_HI != 0)

/-- The stream's timer restarts (R72). -/
def State.touch (s : State) (n : Nat) : State := s.setStream n { s.stream n with timer := s.now }

/-- Released packets leave the FIFO's front in FIFO order (R69). -/
def dropReleased : List Packet → List Packet
  | [] => []
  | p :: ps => if p.released then dropReleased ps else p :: ps

/-- Free space of released packets taken back. -/
def State.reclaim (s : State) (n : Nat) : State :=
  let x := s.stream n
  (s.setStream n { x with fifo := dropReleased x.fifo }).refreshFifo n

/-! ### Resynchronisation (R73, R75) -/

/-- The stream resynchronises: nothing discarded yet (R73). -/
def State.enterResync (s : State) (n : Nat) : State :=
  (s.setStream n { s.stream n with discard := 0, frameOpen := false, lineOpen := false }).setFlag (F.IG_FIFO_STATUS_RESYNC n) true

/-- Stream n is discarding to its next start marker. -/
def State.inResync (s : State) (n : Nat) : Bool := s.flag (F.IG_FIFO_STATUS_RESYNC n)

/-- `k` bytes discarded (R73). -/
def State.discard (s : State) (n k : Nat) : State :=
  (s.setStream n { s.stream n with discard := (s.stream n).discard + k }).addSat (F.IG_DISCARD n) k

/-- A start marker ends a resynchronisation: code 0x02 with the count, and the clock model restarts (R73, R75). -/
def State.endResync (s : State) (n : Nat) : State :=
  if s.inResync n then
    let k := satNat 32 (s.stream n).discard
    let s := s.streamViol n 0x02 (leBytes 4 k)
    let s := (s.setStream n { s.stream n with resyncMark := some k }).setFlag (F.IG_FIFO_STATUS_RESYNC n) false
    if s.get (F.TB_SC_CFG_SOURCE n) == 0 then s else s.restartModel n
  else s

/-! ### Closing (R66, R69) -/

/-- What a close adds to the open packet: the header fields that only the close knows. -/
structure CloseInfo where
  trunc : Bool
  ovr : Bool
  flags : Nat
  stamp : Int
  sensor : Int
  count : Nat
  fnum : Nat
  w30 : Nat
  w34 : Nat
  withheld : Bool
  marks : List (Bool × Bool)
  last : Int
  data : Bytes
  deriving DecidableEq, Repr

/-- The open packet of stream n closes (R69): sequence number, notice, the occurrence of kind-2 lists. The number of the stream's first packet is 0, the packets closed before it (DESIGN CHOICE, log entry 100: R66 names no first number). -/
def State.sealPacket (s : State) (n : Nat) (c : CloseInfo) : State :=
  match (s.stream n).open_ with
  | none => s
  | some p =>
    let x := s.stream n
    let flags := Nat.lor p.flags c.flags
    let pkt : Packet :=
      { stream := n, kind := s.kindOf n, seqNo := s.get (F.IG_PKTS n), trunc := c.trunc, ovr := c.ovr, flags := flags,
        crc := if bitOf flags 2 then 0 else crc32c c.data, stamp := patternOf 64 c.stamp, arrival := p.arrival,
        sensor := patternOf 64 c.sensor, count := c.count, fnum := c.fnum, lines := p.lines, w30 := c.w30, w34 := c.w34,
        disc := x.resyncMark.getD 0, data := c.data, last := patternOf 64 c.last, withheld := c.withheld, marks := c.marks, taken := false, ok := false, late := [], barred := false, released := false }
    let s := s.setStream n { x with fifo := x.fifo ++ [pkt], open_ := none, resyncMark := none, ovrPend := false }
    let s := (s.incWrap (F.IG_PKTS n)).refreshFifo n
    let s := if c.trunc then s.incSat (F.IG_TRUNC n) else s
    ((s.raise (0x040 + n)).occurNotice n).settle false

/-- The flags LOCK, FALLBACK of a stamped sample (R66). -/
def State.stampFlags (s : State) (n : Nat) (src : StampSource) (m : Stamped) : Nat :=
  8 * b2n (if s.get (F.TB_SC_CFG_SOURCE n) == 2 then src.lock.getD true else src.lock == some true) + 16 * b2n m.fallback

/-! ### Scanner records (R64) -/

/-- A point's 16 bytes with its offset, clipped to 0 to 65,535, and whether it was clipped. -/
def scanRecord (head : Bytes) (ofs : Int) : Bytes × Bool :=
  if ofs < 0 then (head ++ [0, 0], true)
  else if 65535 < ofs then (head ++ [0xFF, 0xFF], true)
  else (head ++ leBytes 2 ofs.toNat, false)

/-- The records of a datagram whose time is `time`, against the block's stamp; the EMIT steps of saturated points with the datagram's length. -/
def gramRecords (time stamp : Int) (len : Nat) : List ScanPoint → Bytes × List (Nat × Nat)
  | [] => ([], [])
  | p :: ps =>
    let (b, sat) := scanRecord p.head ((time + 1000 * p.ofsUs - stamp) / 1000)
    let (bs, steps) := gramRecords time stamp len ps
    (b ++ bs, if sat then (p.step, len) :: steps else steps)

/-- The records of the datagrams after the first, each with the time R64 gives it. -/
def State.laterRecords (s : State) (n : Nat) (co : Option Coef) (stamp before : Int) : List ScanGram → Bytes × List (Nat × Nat)
  | [] => ([], [])
  | g :: gs =>
    let t := s.mapLater n co g.src before
    let (b, st) := gramRecords t stamp g.len g.points
    let (bs, sts) := s.laterRecords n co stamp t gs
    (b ++ bs, st ++ sts)

/-- The largest point time offset of records (R89). -/
def largestOffset : Bytes → Nat → Nat
  | _, 0 => 0
  | bs, k + 1 => max (fieldB bs 14 2) (largestOffset (bs.drop 16) k)

/-! ### What a close fixes (R52, R63 to R66) -/

/-- The stamp of a frame, fixed when its first band closes (R52, R63). -/
def State.fixFrame (s : State) (n : Nat) : State :=
  let x := s.stream n
  match x.frameStamp, x.frameSrc with
  | none, some src =>
    let (s, m) := s.stampSample n src
    s.setStream n { s.stream n with frameStamp := some (patternOf 64 m.stamp, patternOf 64 m.sensor, m.withheld, s.stampFlags n src m) }
  | _, _ => s

/-- A band of an area camera: the frame's stamp (R63). -/
def State.bandInfo (s : State) (n : Nat) (p : OpenPacket) : State × CloseInfo :=
  let s := s.fixFrame n
  let (st, sens, wh, fl) := (s.stream n).frameStamp.getD (p.arrival, p.arrival, false, 0)
  (s, { trunc := false, ovr := false, flags := fl, stamp := st, sensor := sens, count := p.count, fnum := (s.stream n).fnum, w30 := 0, w34 := 0,
        withheld := wh, marks := [], last := st, data := p.data })

/-- The lines' stamps of a line-scan band, in order, each with its LOCK and FALLBACK flags. -/
def State.stampLines (s : State) (n : Nat) : List StampSource → State × List (Stamped × Nat)
  | [] => (s, [])
  | src :: rest =>
    let (s, m) := s.stampSample n src
    let fl := s.stampFlags n src m
    let (s, ms) := s.stampLines n rest
    (s, (m, fl) :: ms)

/-- A band of a line-scan camera (R63, R89): each line has its own verdict (R53, R93); FALLBACK when any line was stamped by it. A truncated band's last line is the last whose start it holds (DEDUCED, log entry 101). -/
def State.lineInfo (s : State) (n : Nat) (p : OpenPacket) : State × CloseInfo :=
  let (s, ms) := s.stampLines n p.stamps
  let zero : Stamped × Nat := (⟨p.arrival, p.arrival, false, false, none⟩, 0)
  let (m, fl) := ms.headD zero
  let sensLast := patternOf 32 (ms.getLastD zero).1.sensor
  let last := m.stamp + (((sensLast + 2 ^ 32 - patternOf 32 m.sensor) % 2 ^ 32 : Nat) : Int)
  (s, { trunc := false, ovr := false, flags := Nat.lor fl (16 * b2n (ms.any (fun x => x.1.fallback))), stamp := m.stamp, sensor := m.sensor, count := p.lines,
        fnum := (s.stream n).fnum, w30 := sensLast, w34 := 0, withheld := m.withheld, marks := ms.map (fun x => (x.1.withheld, x.1.fallback)),
        last := last, data := p.data })

/-- The datagrams of a block cut to the points the packet stores. -/
def cutGrams : Nat → List ScanGram → List ScanGram
  | _, [] => []
  | k, g :: gs => { g with points := g.points.take k } :: cutGrams (k - g.points.length) gs

/-- A block of a scanner (R64): the stamp of its first datagram, the points' time offsets, and the EMIT steps of those that saturate. -/
def State.blockInfo (s : State) (n : Nat) (p : OpenPacket) : State × CloseInfo × List (Nat × Nat) :=
  let base : CloseInfo :=
    { trunc := false, ovr := false, flags := 0, stamp := p.arrival, sensor := p.arrival, count := p.count, fnum := 0, w30 := 0, w34 := 0,
      withheld := false, marks := [], last := p.arrival, data := p.data }
  match cutGrams (p.data.length / 16) p.grams with
  | [] => (s, base, [])
  | g :: gs =>
    let (s, m) := s.stampSample n g.src
    let (b0, st0) := gramRecords m.stamp m.stamp g.len g.points
    let (bs, sts) := s.laterRecords n m.coef m.stamp m.stamp gs
    let data := b0 ++ bs
    (s, { base with flags := s.stampFlags n g.src m, stamp := m.stamp, sensor := m.sensor, count := data.length / 16, withheld := m.withheld,
                    last := m.stamp + 1000 * (largestOffset data (data.length / 16) : Int), data := data }, st0 ++ sts)

/-- A packet of complete records (R65, R66, R67): its stamp is the first record's time, its last-sample time the last's (R89). -/
def State.recordInfo (s : State) (n : Nat) (p : OpenPacket) : CloseInfo :=
  let crcSrc := s.kindOf n == 4 && bitOf (s.get (igKind n 0)) 23
  { trunc := false, ovr := false, flags := 4 * b2n crcSrc, stamp := p.first, sensor := p.first, count := p.count, fnum := 0, w30 := 0, w34 := 0,
    withheld := false, marks := [], last := p.lastT, data := p.data }

/-- What the close of the open packet of stream n fixes, by its kind. -/
def State.closeInfo (s : State) (n : Nat) (p : OpenPacket) : State × CloseInfo × List (Nat × Nat) :=
  match s.kindOf n with
  | 0 => let (s, c) := s.bandInfo n p
         (s, c, [])
  | 1 => let (s, c) := s.lineInfo n p
         (s, c, [])
  | 2 => s.blockInfo n p
  | _ => (s, s.recordInfo n p, [])

/-- The records of points whose time offset saturated, code 0x24 (R64). -/
def State.saturatedPoints (s : State) (n : Nat) (steps : List (Nat × Nat)) : State :=
  steps.foldl (fun s st => s.streamViol n 0x24 (BitVec.ofNat 8 st.1 :: leBytes 2 st.2)) s

/-! ### Early closes (R70 to R72) -/

/-- The open packet closes with TRUNC = 1: its header is filled as at any close (R63, R64, R66). -/
def State.closeEarly (s : State) (n : Nat) (ovr : Bool) : State :=
  match (s.stream n).open_ with
  | none => s
  | some p =>
    let (s, c, steps) := s.closeInfo n p
    (s.saturatedPoints n steps).sealPacket n { c with trunc := true, ovr := ovr }

/-- The open packet truncated with a code: it keeps what is stored, counts, and the stream resynchronises (R72, R73). A truncated packet contributes nothing (R74). -/
def State.truncate (s : State) (n code : Nat) (detail : Bytes) : State :=
  if (s.stream n).open_.isNone || (s.stream n).ovrPend then s
  else
    let s := s.closeEarly n false
    let s := if code == 0 then s else s.streamViol n code detail
    s.enterResync n

/-- The payload length in three bytes, the detail of codes 0x01, 0x03, 0x04. -/
def State.payloadDetail (s : State) (n : Nat) : Bytes :=
  match (s.stream n).open_ with
  | some p => leBytes 3 (60 + p.data.length)
  | none => leBytes 3 0

/-- The pending overrun closes once 64 bytes are free (R70). -/
def State.closeOverrun (s : State) (n : Nat) : State :=
  if (s.stream n).ovrPend && decide (0 < s.freeUnits n) then
    let d := s.payloadDetail n
    ((s.closeEarly n true).streamViol n 0x03 d).enterResync n
  else s

/-- `k` bytes lost to a full FIFO (R70). -/
def State.lose (s : State) (n k : Nat) : State :=
  ((s.addSat (F.IG_OVR_BYTES n) k).setFlag (F.IG_FIFO_STATUS_OVR n) true).refreshFifo n

/-! ### Opening (R69, R70, R73, R90) -/

/-- A packet opens: its header is reserved, the timer restarts, the stream's pairing begins at its first (R52, R69, R72, R90). -/
def State.reserveHeader (s : State) (n flags : Nat) : State :=
  let s := s.fixDevWm n
  let s := if (s.clock n).paired then s else s.beginPairing n
  let x := s.stream n
  let p : OpenPacket :=
    { arrival := s.now, flags := flags + 64 * b2n x.resyncMark.isSome, data := [], count := 0, lines := 0, first := s.now, lastT := s.now, stamps := [], grams := [] }
  ((s.setStream n { x with open_ := some p }).touch n).refreshFifo n

/-- A packet opens at a marker that brought `bytes` bytes; where no header fits, they are lost and the stream resynchronises (R70). The flag tells whether it opened. -/
def State.openPacket (s : State) (n flags bytes : Nat) : State × Bool :=
  if s.freeUnits n == 0 then
    let s := (s.lose n bytes).streamViol n 0x03 (leBytes 3 0)
    (if s.inResync n then s else s.enterResync n, false)
  else
    (((s.endResync n).reserveHeader n flags), true)

/-! ### Writing (R70, R71) -/

/-- Data bytes the open packet can hold: what the FIFO leaves it, and what IG_PKT_MAX leaves it. -/
def State.roomBytes (s : State) (n : Nat) : Nat := (s.fifoCap n - fifoUnits (s.stream n).fifo - 1) * 64

/-- Data bytes IG_PKT_MAX allows (the payload counts 60 header bytes). -/
def State.maxBytes (s : State) (n : Nat) : Nat := s.get (F.IG_PKT_MAX n) - 60

/-- Bytes appended to the open packet's data. -/
def State.storeBytes (s : State) (n : Nat) (bs : Bytes) : State :=
  let x := s.stream n
  match x.open_ with
  | some p => (((s.setStream n { x with open_ := some { p with data := p.data ++ bs } }).touch n).refreshFifo n)
  | none => s

/-- The outcome of a write. -/
inductive Wrote where
  | stored
  | lost
  deriving DecidableEq, Repr

/-- Bytes written to the open packet; `whole` writes are complete records, stored whole or not at all (R65, R70, R71). While FULL is set nothing is stored; a write that finds room fills the units it takes (the worked example of R75). What lies past IG_PKT_MAX is input discarded in the resynchronisation it starts (R73). -/
def State.writePacket (s : State) (n : Nat) (bs : Bytes) (whole : Bool) : State × Wrote :=
  match (s.stream n).open_ with
  | none => (s, .lost)
  | some p =>
    if (s.stream n).ovrPend then (s.lose n bs.length, .lost)
    else if s.freeUnits n == 0 && !bs.isEmpty then ((s.setStream n { s.stream n with ovrPend := true }).lose n bs.length, .lost)
    else
      let d := p.data.length
      let most := min (s.maxBytes n) (s.roomBytes n)
      if d + bs.length ≤ most then (s.storeBytes n bs, .stored)
      else
        let s := if whole then s else s.storeBytes n (bs.take (most - d))
        if s.maxBytes n ≤ s.roomBytes n then ((s.truncate n 0x04 (s.payloadDetail n)).discard n (d + bs.length - (if whole then d else most)), .lost)
        else
          let s := s.setStream n { s.stream n with ovrPend := true }
          (s.lose n (d + bs.length - (if whole then d else most)), .lost)

/-! ### Frozen and repeated input (R76 to R80) -/

/-- IG_FIFO_STATUS.FROZEN and the masks of stream n. -/
def State.setFrozen (s : State) (n : Nat) (on : Bool) : State :=
  let s := (s.setFlag (F.IG_FIFO_STATUS_FROZEN n) on).setMaskBit F.IG_EXCL_LO F.IG_EXCL_HI n on
  s.setFlag F.IG_STATUS_ANY_EXCL (s.get64 F.IG_EXCL_LO F.IG_EXCL_HI != 0)

/-- A complete frame or block with its signatures (R77, R79, R80). -/
def State.judgeFrozen (s : State) (n lat whole : Nat) : State :=
  let s := (s.set (F.IG_SIG_LAT n) lat).set (F.IG_SIG_FRAME n) whole
  if !s.flag (F.IG_FRZ_CFG_FRZ_EN n) then s
  else
    let x := s.stream n
    let same := match x.prevSig with
      | some (l, w) => l == lat && (s.flag (F.IG_FRZ_CFG_FRZ_MODE n) || w == whole)
      | none => false
    let eqRun := if same then x.eqRun + 1 else 1
    let diffRun := if same then 0 else x.diffRun + 1
    let frozen := s.flag (F.IG_FIFO_STATUS_FROZEN n)
    let s := s.setStream n { x with prevSig := some (lat, whole), eqRun := eqRun, diffRun := if frozen then diffRun else 0 }
    if !frozen && decide (s.get (F.IG_FRZ_CFG_FRZ_N n) ≤ eqRun) && same then
      let s := (s.setFrozen n true).incSat (F.IG_FRZ_CNT_FROZEN n)
      (s.streamViol n 0x05 (leBytes 4 lat)).health 0x20 n 0 true
    else if frozen && decide (s.get (F.IG_FRZ_CFG_FRZ_CLEAR n) ≤ diffRun) then
      (s.setFrozen n false).health 0x20 n 0 false
    else s

/-- The frame counter of the frame's first embedded line (R78). -/
def State.frameCounter (s : State) (n : Nat) : Option Nat :=
  let k := s.get (igKind n 0)
  let ofs := bitsOf k 0 16
  let w := match bitsOf k 16 2 with
    | 0 => 0
    | 1 => 1
    | 2 => 2
    | _ => 4
  match (s.stream n).embedded with
  | some e => if w != 0 && decide (ofs + w ≤ e.length) then some (fieldB e ofs w) else none
  | none => none

/-- The repeated-frame verdict of a complete frame (R78): its predecessor is the complete frame before it; a truncated frame between them, which has no FE band, counts for nothing (DESIGN CHOICE, log entry 102). -/
def State.judgeRepeated (s : State) (n : Nat) : State :=
  if bitsOf (s.get (igKind n 0)) 16 2 == 0 then s.set (F.IG_LAST_FNUM n) (s.stream n).fnum
  else
    let c := s.frameCounter n
    let repd := c.isSome && c == (s.stream n).prevCtr
    let s := s.setStream n { s.stream n with prevCtr := c }
    let s := match c with
      | some v => s.set (F.IG_LAST_FNUM n) v
      | none => s
    let s := s.setFlag (F.IG_FIFO_STATUS_REPEATED n) repd
    if repd then ((s.incSat (F.IG_FRZ_CNT_REPEATED n)).streamViol n 0x06 (leBytes 4 (c.getD 0))).health 0x21 n 0 true
    else s.health 0x21 n 0 false

/-- EXCLUDED of header flags: the stream is frozen or its frame repeated (R78, R80). -/
def State.excludedFlag (s : State) (n : Nat) : Nat :=
  32 * b2n (s.flag (F.IG_FIFO_STATUS_FROZEN n) || (s.kindOf n == 0 && s.flag (F.IG_FIFO_STATUS_REPEATED n)))

/-! ### Complete closes (R63, R64, R65) -/

/-- A band of an area camera closes complete; `fe` when it holds the frame end (R63, R76). -/
def State.closeBand (s : State) (n : Nat) (fe : Bool) : State :=
  match (s.stream n).open_ with
  | none => s
  | some p =>
    let (s, c) := s.bandInfo n p
    let x := s.stream n
    let lat := Nat.xor x.latCrc 0xFFFFFFFF
    let whole := Nat.xor x.wholeCrc 0xFFFFFFFF
    let s := if fe then (s.judgeFrozen n lat whole).judgeRepeated n else s
    s.sealPacket n { c with flags := c.flags + (if fe then 2 + s.excludedFlag n else 0), count := 1, w30 := if fe then lat else 0, w34 := if fe then whole else 0 }

/-- A band of a line-scan camera closes complete (R63, R89). -/
def State.closeLines (s : State) (n : Nat) : State :=
  match (s.stream n).open_ with
  | none => s
  | some p =>
    let (s, c) := s.lineInfo n p
    s.sealPacket n c

/-- A block of a scanner closes complete (R64, R79). -/
def State.closeBlock (s : State) (n : Nat) : State :=
  match (s.stream n).open_ with
  | none => s
  | some p =>
    if p.grams.isEmpty then s
    else
      let (s, c, steps) := s.blockInfo n p
      let bare := (p.grams.flatMap (fun x => x.points)).flatMap (fun q => q.head ++ [0, 0])
      let s := (s.saturatedPoints n steps).judgeFrozen n (crc32c bare) 0
      s.sealPacket n { c with flags := c.flags + s.excludedFlag n }

/-- A packet of complete records closes (R65, R72). -/
def State.closeRecords (s : State) (n : Nat) : State :=
  match (s.stream n).open_ with
  | none => s
  | some p => s.sealPacket n (s.recordInfo n p)

/-- A complete record of time `t` arrives on an encoder, IMU or CAN stream (R65, R70 to R73): it is the start marker when no packet is open, and closes the packet it fills. -/
def State.putRecord (s : State) (n t : Nat) (record : Bytes) : State :=
  let x := s.stream n
  let (s, opened) :=
    match x.open_ with
    | some _ => (s, true)
    | none =>
      let (s, ok) := s.openPacket n 0 record.length
      (match (s.stream n).open_ with
        | some p => s.setStream n { s.stream n with open_ := some { p with first := t, lastT := t } }
        | none => s, ok)
  if !opened then s
  else
    let (s, w) := s.writePacket n record true
    match w with
    | .lost => s
    | .stored =>
      match (s.stream n).open_ with
      | none => s
      | some p =>
        let s := s.setStream n { s.stream n with open_ := some { p with count := p.count + 1, lastT := t } }
        if s.unitsOf n ≤ p.count + 1 then s.closeRecords n else s

end Sys2Proof.Machine
end

