-- ==== Sys2Proof/Machine/SafetyOps.lean ====
section
/-! DEFINITION. Chervil's shared operations: the spare pool, shadow and golden runs (R307 to R309), self-test slices (R310 to R312). -/

namespace Sys2Proof.Machine

/-- Chervil's own state changed. -/
def State.setSf (s : State) (f : SfState → SfState) : State := { s with sf := f s.sf }

/-- Chervil supervises (R297). -/
def State.supervising (s : State) : Bool := s.sf.phase == .supervising

/-! ### The pool (R307, R308) -/

/-- The rows whose spare is in the pool, ascending. -/
def State.pooledRows (s : State) : List Nat := (List.range 12).filter (fun r => bitOf (s.get F.SF_SPARE_POOL) r)

/-- Row r's spare leaves the pool; an empty pool is reported (R308). -/
def State.dropSpare (s : State) (r : Nat) : State :=
  if !bitOf (s.get F.SF_SPARE_POOL) r then s
  else
    let s := s.set F.SF_SPARE_POOL (putBit (s.get F.SF_SPARE_POOL) r false)
    let s := s.set F.SF_STATUS_SPARES s.pooledRows.length
    if s.pooledRows.isEmpty then ((s.setFlag F.SF_STATUS_SHADOW_DEG true).safetyLog (SafetyRec.of 0x47 1)).raise 0x177 else s

/-- The pool spare nearest to a row, the lower on equal distance (R307 step 2). -/
def State.nearSpare (s : State) (row : Nat) : Option Nat :=
  let d := fun r => if r ≤ row then row - r else r - row
  (sortByKey (fun r => 16 * d r + r) s.pooledRows).head?

/-! ### Shadow runs (R307) -/

/-- Tiles join those of a result's shadow run. -/
def State.shadowTiles (s : State) (rs k : Nat) (tiles : List Nat) : State :=
  s.setSf (fun f =>
    if f.shadow.any (fun x => x.rs == rs && x.k == k) then
      { f with shadow := f.shadow.map (fun x => if x.rs == rs && x.k == k then { x with tiles := x.tiles ++ tiles.filter (fun l => !x.tiles.contains l) } else x) }
    else { f with shadow := f.shadow ++ [⟨rs, k, tiles⟩] })

/-- The tile a shadow run is of: position (k + 41·n) mod count in ascending logical index (R307 step 1). -/
def ShadowRun.tile (x : ShadowRun) : Nat := (sortByKey id x.tiles).getD ((x.k + 41 * x.rs) % x.tiles.length) 0

/-- The spare a shadow run uses: that of the tile's row when it is in the pool, else the nearest (R307 step 2). -/
def State.shadowSpare (s : State) (x : ShadowRun) : Option Nat := s.nearSpare (x.tile % 12)

/-- No instance and no occurrence of a class-0 matrix-engine list that binds the result is left. -/
def State.shadowReady (s : State) (x : ShadowRun) : Bool :=
  let mine := fun (list : Nat) (bound : List (Nat × Nat)) => (s.listHdr list).cls == 0 && (s.listHdr list).engine == 0 && bound.contains (x.rs, x.k)
  s.cl.insts.all (fun i => !mine i.list i.bound) && s.cl.occs.all (fun o => !mine o.list o.bound)

/-! ### Golden runs (R309) -/

/-- The energy of a golden run in units (R278). -/
def State.goldUnits (s : State) : Nat := s.get F.SF_GOLD_UJ * unitsPerUj

/-- The golden run under way is charged (R278): to the shadow reserve, or forced to class 0 at MJ_FORCE_OP's factor (R271, R276). -/
def State.startGolden (s : State) (g : GoldRun) (forced : Bool) : State :=
  let s := s.setSf (fun f => { f with golden := some { g with running := true, forced := forced } })
  if forced then
    let s := ((s.chargeClass 0 (s.goldUnits * chargeFactor (s.get F.MJ_CFG_FORCE_OP) / 256)).incSat (F.MJ_C_FORCED 0)).incSat F.SF_GOLD_FORCED
    s.safetyLog { SafetyRec.of 0x43 0 with rs := s.get F.SF_CFG_GOLD_RS }
  else s.chargeClass 3 s.goldUnits

/-- The reserve is short, or a shadow compare occupies a spare (R309). -/
def State.goldenBlocked (s : State) : Bool := decide (s.level 3 < s.goldUnits) || !s.sf.shadow.isEmpty

/-- A due golden run at a slot: it starts, is deferred once more, or is forced at its 16th deferral (R309); `first` at the slot it falls due. -/
def State.tryGolden (s : State) (g : GoldRun) (first : Bool) : State :=
  if g.running then s
  else if !s.goldenBlocked then s.startGolden g false
  else if first then s.setSf (fun f => { f with golden := some g })
  else
    let g := { g with deferrals := g.deferrals + 1 }
    let s := (s.incSat F.SF_GOLD_DEFER).setSf (fun f => { f with golden := some g })
    if g.deferrals == 16 then s.startGolden g true else s

/-- The seal of result k of a set, as the golden slots see it (R309). -/
def State.goldenSlot (s : State) (rs k : Nat) : State :=
  if !s.supervising || !s.flag F.SF_CFG_GOLD_EN || rs != s.get F.SF_CFG_GOLD_RS || s.get F.SF_GOLD_LIST == noList then s
  else match s.sf.golden with
    | some g => s.tryGolden g false
    | none => if k % 256 == 0 && !s.pooledRows.isEmpty then s.tryGolden ⟨0, false, false⟩ true else s

/-! ### Self-test zones (R310) -/

/-- The first physical column of a zone, and how many it has (R272, R310). -/
def zoneCols (z : Nat) : Nat × Nat :=
  match z % 3 with
  | 0 => (0, 5)
  | 1 => (5, 4)
  | _ => (9, 4)

/-- The slices of a zone. -/
def zoneSlices (z : Nat) : Nat := 224 * (zoneCols z).2

/-- The physical column and row of the tile a slice of a zone tests (R310). -/
def sliceTile (z n : Nat) : Nat × Nat := ((zoneCols z).1 + n / 56 / 4, 4 * (z / 3) + n / 56 % 4)

/-- The physical tile passed BIST. -/
def State.tileGood (s : State) (col row : Nat) : Bool := !bitOf (s.get (F.TL_ROW_MAP_FAILED row)) col

/-- The logical index a physical tile serves: the active tiles of its row in ascending column (R148). -/
def State.tileServes (s : State) (col row : Nat) : Option Nat :=
  let m := s.get (F.TL_ROW_MAP_ACTIVE row)
  if bitOf m col then some (12 * ((List.range col).filter (fun p => bitOf m p)).length + row) else none

/-- The head slice of a zone moves on, wrapping (R312). -/
def State.nextSlice (s : State) (z : Nat) : State :=
  s.set (F.SF_ST_ZONE_HEAD z) ((s.get (F.SF_ST_ZONE_HEAD z) + 1) % zoneSlices z)

/-- SF_STATUS.COVER_DEG. -/
def State.refreshCover (s : State) : State :=
  s.setFlag F.SF_STATUS_COVER_DEG ((List.range 9).any (fun z => s.flag (F.SF_ST_ZONE_DEGRADED z)))

end Sys2Proof.Machine
end

