-- ==== Sys2Proof/Machine/FusionOps.lean ====
section
/-! DEFINITION. The fusion engine: result sets and their starts, watermarks, holes, verdicts, late samples, seals, and the release of packets (R85 to R105). -/

namespace Sys2Proof.Machine

/-! ### Result sets (R85 to R87) -/

/-- Set rs beside its registers. -/
def State.fuSet (s : State) (rs : Nat) : FuSet := s.fu.sets.getD rs .zero

/-- Set rs changed. -/
def State.putSet (s : State) (rs : Nat) (x : FuSet) : State := { s with fu := { s.fu with sets := setAt s.fu.sets rs x } }

/-- Stream n as fusion follows it. -/
def State.fuStream (s : State) (n : Nat) : FuStream := s.fu.streams.getD n ⟨[], [], [], 0⟩

/-- Stream n changed. -/
def State.putFuStream (s : State) (n : Nat) (x : FuStream) : State := { s with fu := { s.fu with streams := setAt s.fu.streams n x } }

/-- The stream mask of a set. -/
def State.rsMask (s : State) (rs : Nat) : Nat := s.get64 (F.FU_RS_STREAMS_LO rs) (F.FU_RS_STREAMS_HI rs)

/-- The set is enabled and its mask includes stream n. -/
def State.rsUses (s : State) (rs n : Nat) : Bool := s.flag (F.FU_RS_CFG rs) && bitOf (s.rsMask rs) n

/-- The set runs. -/
def State.rsRuns (s : State) (rs : Nat) : Bool := s.get (F.FU_RS_STAT_STATE rs) == 2

/-- t_k (R86). -/
def State.instant (s : State) (rs k : Nat) : Nat := s.get64 (F.FU_RS_T0_LO rs) (F.FU_RS_T0_HI rs) + k * s.get (F.FU_RS_PERIOD rs)

/-- The mark t_k + LA (R94). -/
def State.markOf (s : State) (rs k : Nat) : Nat := s.instant rs k + s.get (F.FU_RS_LA rs)

/-- A time lies in the span of result k: (t_k - WIN, t_k + LA] (R87). -/
def State.inSpan (s : State) (rs k x : Nat) : Bool :=
  decide (s.instant rs k < x + s.get (F.FU_RS_WIN rs)) && decide (x ≤ s.markOf rs k)

/-- The latest instant a set has sealed; none before its first seal. -/
def State.sealedTo (s : State) (rs : Nat) : Option Nat :=
  if s.rsRuns rs && decide (0 < (s.fuSet rs).k) then some (s.instant rs ((s.fuSet rs).k - 1)) else none

/-- The smallest time at or after `a` congruent to `phase` modulo `p` (R86, R252). -/
def gridFrom (a phase p : Nat) : Nat := if p == 0 then a else a + (phase + (p - a % p)) % p

/-! ### Samples of a packet (R87, R89) -/

/-- The data of the frame a band belongs to: its taken bands in order. -/
def State.frameData (s : State) (p : Packet) : Bytes :=
  ((s.stream p.stream).fifo.filter (fun q => q.taken && q.stamp == p.stamp && q.fnum == p.fnum && decide (q.seqNo ≤ p.seqNo))).flatMap (fun q => q.data)

/-- Line i's time in a line-scan band (R89). -/
def lineTime (p : Packet) (i : Nat) : Nat := if p.count ≤ 1 then p.stamp else p.stamp + i * (p.last - p.stamp) / (p.count - 1)

/-- The samples of a packet in index order: time and content. -/
def State.packetSamples (s : State) (p : Packet) : List (Nat × Bytes) :=
  let size := p.data.length / p.count
  match p.kind with
  | 0 => if bitOf p.flags 1 then [(p.stamp, s.frameData p)] else []
  | 1 => (List.range p.count).map (fun i => (lineTime p i, sliceB p.data (i * size) size))
  | 2 => (List.range p.count).map (fun i => (p.stamp + 1000 * fieldB p.data (16 * i + 14) 2, sliceB p.data (16 * i) 16))
  | _ => (List.range p.count).map (fun i => (fieldB p.data (i * size) 8, sliceB p.data (i * size) size))

/-- The sample times of a packet; a packet without samples of its own counts by its stamp. -/
def State.packetTimes (s : State) (p : Packet) : List Nat :=
  match s.packetSamples p with
  | [] => [p.stamp]
  | xs => xs.map (fun x => x.1)

/-- Sample i of a packet is withheld; the lines of a line-scan band each have their own verdict (R53, R93). -/
def Packet.withheldAt (p : Packet) (i : Nat) : Bool :=
  match p.marks[i]? with
  | some m => m.1
  | none => p.withheld

/-- Sample i of a packet was stamped by capture fallback (R53). -/
def Packet.fallbackAt (p : Packet) (i : Nat) : Bool :=
  match p.marks[i]? with
  | some m => m.2
  | none => bitOf p.flags 4

/-- Sample i of a taken packet, of time x, may be merged into results of a set: the packet contributes, and the sample is neither withheld nor late nor barred (R53, R97, R101). -/
def State.mergeable (s : State) (rs : Nat) (p : Packet) (i x : Nat) : Bool :=
  p.ok && !p.withheldAt i &&
  (match assocGet rs p.late with
   | some b => decide (b < x)
   | none => true) &&
  (match assocGet p.stream (s.fuSet rs).bars with
   | some b => decide (b < x)
   | none => true)

/-- The merged samples of stream n in result k, by time, then index within the packet (R99); where both are equal in two packets the order is that of the packets (DESIGN CHOICE, log entry 106). -/
def State.mergedOf (s : State) (rs k n : Nat) : List Sample :=
  let packets := (s.stream n).fifo.filter (fun p => p.taken && p.ok)
  let all := packets.flatMap (fun p =>
    (s.packetSamples p).zipIdx.filterMap (fun x =>
      if s.mergeable rs p x.2 x.1.1 && s.inSpan rs k x.1.1 then some (⟨n, p.seqNo, x.1.1, x.2, x.1.2, p.fallbackAt x.2⟩ : Sample) else none))
  sortByKey (fun x => x.time) (sortByKey (fun x => x.index) all)

/-- Some merged sample of stream n in result k was stamped by capture fallback (R54). -/
def State.mergedFallback (s : State) (rs k n : Nat) : Bool :=
  (s.mergedOf rs k n).any (fun x => x.fallback)

/-! ### Watermarks, holes, verdicts (R89 to R93) -/

/-- The watermark of stream n (R89, R90). -/
def State.streamWm (s : State) (n : Nat) : Nat :=
  let w := s.get64 (F.FU_WM_LO n) (F.FU_WM_HI n)
  if s.flag (F.FU_WM_CFG_DEV_WM n) && (s.stream n).open_.isNone && (s.stream n).fifo.all (fun p => p.taken) then
    max w (s.now - s.get (F.FU_WM_CFG_LAG_US n) * 1000)
  else w

/-- A hole touches result k of a set (R92). -/
def State.holeTouches (s : State) (rs k n : Nat) : Bool :=
  (s.fuStream n).holes.any (fun h => decide (h.1 < s.markOf rs k) &&
    (match h.2 with
     | some e => decide (s.instant rs k < e + s.get (F.FU_RS_WIN rs))
     | none => true))

/-- Stream n is past the mark of result k (R92, R94). -/
def State.pastMark (s : State) (rs k n : Nat) : Bool := decide (s.markOf rs k < s.streamWm n) && !s.holeTouches rs k n

/-- The verdict that applies to result k: that of the stream's last sample at or before the mark (R93). -/
def State.verdictAt (s : State) (rs k n : Nat) : Option Verdict := (s.fuStream n).verdicts.find? (fun v => decide (v.time ≤ s.markOf rs k))

/-- The verdict bars the stream from result k (R93). -/
def State.verdictBars (s : State) (rs k n : Nat) : Bool :=
  match s.verdictAt rs k n with
  | some v => v.withheld || v.excluded
  | none => false

/-- The streams of a set's mask, ascending. -/
def State.rsStreams (s : State) (rs : Nat) : List Nat := (List.range 48).filter (fun n => bitOf (s.rsMask rs) n)

/-- The watermark of the pose trajectory (R104). -/
def State.poseWm (s : State) : Nat := s.get64 F.FU_POSE_WM_LO F.FU_POSE_WM_HI

/-- The condition of the watermark seal (R54, R93, R94): every stream whose verdict lets it contribute is past the mark. -/
def State.watermarkReady (s : State) (rs k : Nat) : Bool :=
  (s.rsStreams rs).all (fun n => s.verdictBars rs k n || s.pastMark rs k n) && decide (s.markOf rs k < s.poseWm)

/-! ### Release (R100) -/

/-- Every enabled set that uses the stream has sealed the last result whose span could hold a time of the packet. -/
def State.packetDone (s : State) (p : Packet) : Bool :=
  (List.range 4).all (fun rs => !s.rsUses rs p.stream ||
    (s.rsRuns rs && (s.packetTimes p).all (fun x => decide (x + s.get (F.FU_RS_WIN rs) ≤ s.instant rs (s.fuSet rs).k))))

/-- Every sample of the packet is late for every enabled set that uses the stream (R100, R101). -/
def State.whollyLate (s : State) (p : Packet) : Bool :=
  (List.range 4).all (fun rs => !s.rsUses rs p.stream ||
    (match assocGet rs p.late with
     | some b => (s.packetTimes p).all (fun x => decide (x ≤ b))
     | none => false))

/-- Taken packets of stream n that no result needs any more leave the FIFO (R69, R100). -/
def State.releaseStream (s : State) (n : Nat) : State :=
  let x := s.stream n
  let fifo := x.fifo.map (fun p => if p.taken && (s.packetDone p || s.whollyLate p) then { p with released := true } else p)
  (s.setStream n { x with fifo := fifo }).reclaim n

/-- The packet with a sequence number in stream n's FIFO changed. -/
def State.mapPacket (s : State) (n seqNo : Nat) (f : Packet → Packet) : State :=
  let x := s.stream n
  s.setStream n { x with fifo := x.fifo.map (fun p => if p.seqNo == seqNo then f p else p) }

/-! ### Take-up (R67, R89 to R92, R95, R97, R101, R102) -/

/-- A late-log record (R102) with event 0x108 + rs. -/
def State.lateLog (s : State) (n rs kind value : Nat) : State :=
  (s.ringPut (F.FU_LATE_LOG 0).addr 4 64 F.FU_LATE_IDX_NEXT F.FU_LATE_IDX_TOTAL
    (leBytes 8 s.now ++ [BitVec.ofNat 8 n, BitVec.ofNat 8 rs, BitVec.ofNat 8 kind, 0] ++ leBytes 4 (satNat 32 value))).raise (0x108 + rs)

/-- The seal time of the earliest sealed result whose instant is at or after x. -/
def State.sealTimeOf (s : State) (rs x : Nat) : Nat :=
  let t0 := s.instant rs 0
  let k := cdiv (x - t0) (s.get (F.FU_RS_PERIOD rs))
  (assocGet k (s.fuSet rs).seals).getD s.now

/-- The smallest of a list of times above 0 elements. -/
def leastOf (x : Nat) (xs : List Nat) : Nat := xs.foldl min x

/-- A packet classified against the seals of set rs (R101): its late bound, and the record when it holds a late sample. -/
def State.classify (s : State) (p : Packet) (rs : Nat) : State × Bool :=
  match s.sealedTo rs with
  | none => (s, false)
  | some b =>
    if !s.rsUses rs p.stream then (s, false)
    else
      let s := s.mapPacket p.stream p.seqNo (fun q => { q with late := assocPut rs b q.late })
      match ((s.packetSamples p).map (fun x => x.1)).filter (fun x => decide (x ≤ b)) with
      | [] => (s, false)
      | x :: xs => (s.lateLog p.stream rs 0 ((s.now - s.sealTimeOf rs (leastOf x xs)) / 1000), true)

/-- A packet taken up in this cycle classified against the seals of the sets given (R95 step 4): one record per set, and FU_LATE once (R101). `logged` names the sets that have a record. -/
def State.classifyAll (s : State) (p : Packet) (logged : List Nat) : List Nat → State × List Nat
  | [] => (s, logged)
  | rs :: rest =>
    if logged.contains rs then s.classifyAll p logged rest
    else
      let (s, late) := s.classify p rs
      let s := if late && logged.isEmpty then s.incSat (F.FU_LATE p.stream) else s
      s.classifyAll p (if late then logged ++ [rs] else logged) rest

/-- The packets taken up in this cycle and their late records. -/
def State.takenNow (s : State) : List (Packet × List Nat) := if s.fu.taken.1 == s.thy.counter then s.fu.taken.2 else []

/-- The packets taken up in this cycle replaced. -/
def State.setTakenNow (s : State) (xs : List (Packet × List Nat)) : State := { s with fu := { s.fu with taken := (s.thy.counter, xs) } }

/-- A packet taken up is classified against the seals in force. -/
def State.classifyNew (s : State) (p : Packet) : State :=
  let xs := s.takenNow
  let (s, logged) := s.classifyAll p [] (List.range 4)
  s.setTakenNow (xs ++ [(p, logged)])

/-- A seal of set rs: the packets taken up in its cycle are classified against it too (R95 step 4). -/
def State.classifySealed (s : State) (rs : Nat) : State :=
  s.takenNow.foldl (fun s x =>
    let (s, logged) := s.classifyAll x.1 x.2 [rs]
    s.setTakenNow (s.takenNow.map (fun y => if y.1.stream == x.1.stream && y.1.seqNo == x.1.seqNo then (y.1, logged) else y))) s

/-- A packet holds a sample barred by set rs (R97). -/
def State.holdsBarred (s : State) (p : Packet) (rs : Nat) : Bool :=
  s.rsRuns rs && s.rsUses rs p.stream &&
  (match assocGet p.stream (s.fuSet rs).bars with
   | some b => (s.packetSamples p).any (fun x => decide (x.1 ≤ b))
   | none => false)

/-- Packets of stream n that hold barred samples are counted once (R97). -/
def State.countBarred (s : State) (n : Nat) : State :=
  ((s.stream n).fifo.filter (fun p => p.taken && !p.released && !p.barred && (List.range 4).any (fun rs => s.holdsBarred p rs))).foldl
    (fun s p => (s.mapPacket n p.seqNo (fun q => { q with barred := true })).incSat (F.FU_BARRED n)) s

/-- A truncated packet opens a hole at the watermark (R92). -/
def State.openHole (s : State) (n : Nat) : State :=
  let x := s.fuStream n
  if x.holes.any (fun h => h.2.isNone) then s
  else
    let w := s.streamWm n
    let s := s.putFuStream n { x with holes := (w, none) :: x.holes }
    (s.set64 (F.FU_HOLE_LO n) (F.FU_HOLE_HI n) w).setFlag (F.FU_SST_HOLE n) true

/-- The next complete packet ends the open hole (R92). -/
def State.closeHole (s : State) (n stamp : Nat) : State :=
  let x := s.fuStream n
  (s.putFuStream n { x with holes := x.holes.map (fun h => (h.1, some (h.2.getD stamp))) }).setFlag (F.FU_SST_HOLE n) false

/-- The packet advances the watermark and leaves its verdict, a line-scan band one for each line; an area camera's by the band with FE (R53, R89, R93). -/
def State.advanceWm (s : State) (p : Packet) : State :=
  if p.kind == 0 && !bitOf p.flags 1 then s
  else
    let n := p.stream
    let w := s.get64 (F.FU_WM_LO n) (F.FU_WM_HI n)
    let s := if w < p.last then s.set64 (F.FU_WM_LO n) (F.FU_WM_HI n) p.last else s
    let x := s.fuStream n
    let own := if p.marks.isEmpty then [⟨p.stamp, p.withheld, bitOf p.flags 5⟩]
      else p.marks.zipIdx.map (fun m => (⟨lineTime p m.2, m.1.1, bitOf p.flags 5⟩ : Verdict))
    s.putFuStream n { x with verdicts := own.reverse ++ x.verdicts }

/-- An out-of-order packet: counted, a record of kind 1 for every set of the stream (R91, R102). -/
def State.outOfOrder (s : State) (p : Packet) : State :=
  let w := s.get64 (F.FU_WM_LO p.stream) (F.FU_WM_HI p.stream)
  let s := s.incSat (F.FU_OOO p.stream)
  (List.range 4).foldl (fun s rs => if s.rsUses rs p.stream then s.lateLog p.stream rs 1 ((w - p.stamp) / 1000) else s) s

/-- Some enabled problem gathers stream n, or chooses its structure by it (R233, R234). -/
def State.solverReads (s : State) (n : Nat) : Bool :=
  (List.range 32).any (fun p => s.flag (F.SV_P_CFG_EN p) &&
    (bitOf (s.get64 (F.SV_P_IN_LO p) (F.SV_P_IN_HI p)) n || (s.flag (F.SV_P_SEL_EN p) && s.get (F.SV_P_SEL_SEL_STREAM p) == n)))

/-- The samples a packet contributes: not withheld, not excluded (R53, R80). -/
def State.goodSamples (s : State) (p : Packet) : List (Nat × Nat × Bytes) :=
  if bitOf p.flags 5 then [] else (s.packetSamples p).zipIdx.filterMap (fun x => if p.withheldAt x.2 then none else some (x.1.1, x.2, x.1.2))

/-- The samples of a stream that a problem reads, kept past the release of their packet (R233, R234). -/
def State.keepPast (s : State) (p : Packet) : State :=
  if s.solverReads p.stream then
    let x := s.fuStream p.stream
    s.putFuStream p.stream { x with past := (s.goodSamples p).reverse ++ x.past }
  else s

/-- A complete packet in order (R89, R97, R101). -/
def State.inOrder (s : State) (p : Packet) : State :=
  let n := p.stream
  let s := ((s.closeHole n p.stamp).advanceWm p).keepPast p
  let some_ := if p.marks.isEmpty then !p.withheld else p.marks.any (fun m => !m.1)
  let s := s.mapPacket n p.seqNo (fun q => { q with ok := some_ && !bitOf p.flags 5 })
  ((s.classifyNew p).countBarred n).releaseStream n

/-- A packet that contributes nothing is released at once (R100). -/
def State.discardPacket (s : State) (p : Packet) : State :=
  (s.mapPacket p.stream p.seqNo (fun q => { q with released := true })).reclaim p.stream

/-- After a backward step a packet below the watermark that holds samples at or before the latest instant a set of its stream has sealed is late, not out of order, until the stream's times pass its watermark again (R103). -/
def State.lateAgain (s : State) (p : Packet) : Bool :=
  (s.fuStream p.stream).caught != s.thy.backs && (List.range 4).any (fun rs => s.rsUses rs p.stream &&
    (match s.sealedTo rs with
     | some b => (s.packetTimes p).any (fun x => decide (x ≤ b))
     | none => false))

/-- The oldest packet of stream n that fusion has not taken up is taken up; `upset` tells that its CRC check fails (R67, R95 step 1). -/
def State.takePacket (s : State) (n : Nat) (upset : Bool) : State :=
  match (s.stream n).fifo.find? (fun p => !p.taken) with
  | none => s
  | some p =>
    if upset then
      let s := (s.incSat (F.IG_CRC_FAIL n)).streamViol n 0x07 (leBytes 4 p.seqNo)
      (s.mapPacket n p.seqNo (fun q => { q with taken := true })).discardPacket p
    else if p.trunc then
      ((s.openHole n).mapPacket n p.seqNo (fun q => { q with taken := true })).discardPacket p
    else if decide (p.stamp < s.get64 (F.FU_WM_LO n) (F.FU_WM_HI n)) && !s.lateAgain p then
      ((s.outOfOrder p).mapPacket n p.seqNo (fun q => { q with taken := true })).discardPacket p
    else
      let s := if decide (s.get64 (F.FU_WM_LO n) (F.FU_WM_HI n) ≤ p.stamp) then s.putFuStream n { s.fuStream n with caught := s.thy.backs } else s
      (s.mapPacket n p.seqNo (fun q => { q with taken := true })).inOrder { p with taken := true }

/-! ### Seals (R94 to R98, R105, R126) -/

/-- τ of a stream under corrections in force (R213). -/
def State.tauOf (s : State) (c : CbCommit) (n : Nat) : Int :=
  match (List.range (s.get F.CB_SLOTS)).find? (fun i => s.flag (F.CB_C_CFG_EN i) && s.get (F.CB_C_CFG_STREAM i) == n) with
  | some i => (c.cor.getD i []).getD 6 0
  | none => 0

/-- The pose records, newest first, that the evaluation at a time uses: the last at or before it and the next, or the last two (R105). -/
def posesAt (ring : List Bytes) (t : Int) : List Bytes :=
  let older := ring.filter (fun r => decide ((fieldB r 0 8 : Int) ≤ t))
  let newer := ring.filter (fun r => decide (t < (fieldB r 0 8 : Int)))
  match older, newer.getLast? with
  | o :: _, some r => [r, o]
  | _, none => ring.take 2
  | [], some r => [r]

/-- A pose: x, y, z, along-track in 2^-8 mm, then the quaternion w, x, y, z in Q2.30 (R104). -/
def poseFields (r : Bytes) : List Int :=
  [signedOf 32 (fieldB r 8 4), signedOf 32 (fieldB r 12 4), signedOf 32 (fieldB r 16 4), signedOf 64 (fieldB r 36 8),
   signedOf 32 (fieldB r 20 4), signedOf 32 (fieldB r 24 4), signedOf 32 (fieldB r 28 4), signedOf 32 (fieldB r 32 4)]

/-- The fixed integer procedure that normalises a quaternion: R105 names it and gives no steps, so its four components are free values of its four inputs (log entry 35). -/
def normalise (q : List Int) : List Int := (List.range 4).map (fun i => signedOf 32 (Config.normalise i (q.map (patternOf 64))))

/-- w of R105. -/
def poseWeight (t ta tb : Int) : Int := ((t - ta) * 65536).tdiv (tb - ta)

/-- A field interpolated (R105). -/
def poseMix (w a b : Int) : Int := a + (b - a) * w / 65536

/-- The pose between or beyond two records (R105). -/
def poseBetween (t : Int) (b a : Bytes) : List Int :=
  let w := poseWeight t (fieldB a 0 8) (fieldB b 0 8)
  let fa := poseFields a
  let fb := poseFields b
  let qa := fa.drop 4
  let qb := fb.drop 4
  let dot := ((qa.zip qb).map (fun x => x.1 * x.2)).sum
  let qb := if dot < 0 then qb.map (fun x => -x) else qb
  ((fa.take 4).zip (fb.take 4)).map (fun x => poseMix w x.1 x.2) ++ normalise ((qa.zip qb).map (fun x => poseMix w x.1 x.2))

/-- The pose at a time from the records of a ring, newest first (R105); one record alone gives its own pose, none gives nothing. -/
def poseAt (ring : List Bytes) (t : Int) : List Int :=
  match posesAt ring t with
  | [b, a] => poseBetween t b a
  | [a] => poseFields a
  | _ => []

/-- A record that the poses at the times use carries STALE (R105). -/
def poseStale (ring : List Bytes) (times : List Int) : Bool := times.any (fun t => (posesAt ring t).any (fun r => bitOf (fieldB r 44 4) 0))

/-- The corridor key of an instant: the along-track distance interpolated to it (R105, R107). -/
def corridorKey (ring : List Bytes) (t : Nat) : Int :=
  match (poseAt ring t)[3]? with
  | some a => a
  | none => signedOf 64 (Config.keyNoPose t)

/-- FU_SST.ABS_LAST of every stream (R108). -/
def State.refreshAbsLast (s : State) : State :=
  let m := s.fu.sets.foldl (fun m x => Nat.lor m x.lastAbsent) 0
  (List.range 48).foldl (fun s n => s.setFlag (F.FU_SST_ABS_LAST n) (bitOf m n)) s

/-- A mask from the streams for which `p` holds. -/
def maskFrom (ns : List Nat) (p : Nat → Bool) : Nat := ns.foldl (fun m n => if p n then m + 2 ^ n else m) 0

/-- The input set of result k, fixed at a seal of code 0 or 1 (R96, R98, R99, R105, R118, R214). -/
def State.buildResult (s : State) (rs k code : Nat) : Result :=
  let t := s.instant rs k
  let ns := s.rsStreams rs
  let gone := fun n => (code == 1 && !s.pastMark rs k n) || s.verdictBars rs k n
  let live := ns.filter (fun n => !gone n)
  let samples := live.flatMap (fun n => s.mergedOf rs k n)
  let inForce := s.cbInForce rs t
  let times := (t : Int) :: samples.map (fun x => (x.time : Int) + s.tauOf inForce x.stream)
  let poseLate := !decide (s.markOf rs k < s.poseWm)
  let poses := s.fu.poses.filter (fun r => times.any (fun x => (posesAt s.fu.poses x).contains r))
  let held := poses.map (fun r => fieldB r 0 8)
  let suspect := ns.any (fun n => match s.verdictAt rs k n with
    | some v => v.withheld
    | none => false) || live.any (fun n => s.mergedFallback rs k n)
  let calibNew := match (s.fuSet rs).lastEpoch with
    | some e => e != inForce.epoch
    | none => false
  { emitted := false, rs := rs, k := k, t := t, sealCode := code, tq := s.tq, absent := maskFrom ns gone,
    contributing := maskFrom ns (fun n => samples.any (fun x => x.stream == n)),
    age := match samples.map (fun x => x.time) with
      | [] => 0
      | x :: xs => satNat 32 (t - leastOf x xs),
    stale := poseLate || poseStale poses times, ptOvf := false, suspect := suspect, epoch := inForce.epoch, calibNew := calibNew,
    variantCode := 0, sealTime := s.now, done := none, key := corridorKey poses t, samples := samples, poses := poses,
    bodies := s.sv.bodies.filter (fun l => held.contains (fieldB (l.headD []) 0 8)) }

/-- Counters of a seal by its code; a deadline seal counts extrapolated poses and forward steps (R98, R108). -/
def State.countSeal (s : State) (rs k code : Nat) : State :=
  if code == 0 then s.incWrap (F.FU_RS_SEAL0 rs)
  else
    let s := s.incWrap (F.FU_RS_SEAL1 rs)
    let s := if decide (s.markOf rs k < s.poseWm) then s else s.incSat F.FU_POSE_STALE
    if s.passedByStep (s.instant rs k + s.get (F.FU_RS_H rs)) then s.incSat (F.FU_RS_STEPSEAL rs) else s

/-- Absent streams: counted, barred up to t_k (R97, R98). -/
def State.recordAbsent (s : State) (rs : Nat) (r : Result) : State :=
  (List.range 48).foldl (fun s n =>
    if bitOf r.absent n then
      let s := s.incSat (F.FU_ABSENT n)
      let x := s.fuSet rs
      s.putSet rs { x with bars := assocPut n r.t x.bars }
    else s) s

/-- Set rs stops at park after its Open result has sealed; once none runs, STARTED clears and a pending policy-A step is accepted (R43, R369). -/
def State.parkSet (s : State) (rs : Nat) : State :=
  let s := (s.set (F.FU_RS_STAT_STATE rs) 0).set F.FU_STATUS_RS_RUN (putBit (s.get F.FU_STATUS_RS_RUN) rs false)
  if s.get F.FU_STATUS_RS_RUN != 0 then s
  else
    let s := s.setFlag F.TB_STATUS_STARTED false
    match s.thy.run with
    | some r => if s.get F.TB_CFG_POLICY == 0 then (s.tryAccept r.last).refreshTq else s
    | none => s

/-- Result k seals with code 0 or 1; `ue` is what fusion's own reads meet (R94, R98, R99, R100, R126, R220, R309, R369). -/
def State.sealResult (s : State) (rs k code : Nat) (ue : Option UeReport) : State :=
  let s := s.cbTest rs k (s.instant rs k) ue
  let r := s.buildResult rs k code
  let s := s.countSeal rs k code
  let s := s.recordAbsent rs r
  let x := s.fuSet rs
  let s := s.putSet rs { x with k := k + 1, lastEpoch := some r.epoch, lastAbsent := r.absent, sealAt := some s.thy.counter, seals := (k, s.now) :: x.seals }
  let s := ((s.classifySealed rs).refreshAbsLast).set (F.FU_RS_SEQ rs) (k + 1)
  let s := s.setI (F.FU_SEAL_SLACK rs) (satSigned 32 (((r.t + s.get (F.FU_RS_H rs) : Nat) : Int) - (s.now : Int)))
  let s := { s with fu := { s.fu with results := s.fu.results ++ [r] } }
  let s := ((s.incWrap (F.RC_PROGRESS 2)).raise (0x100 + rs)).cbJudge r
  let s := (s.occurSeal rs k).noteDone
  let s := if s.listsDone rs k then s.cbStored rs k else s
  let s := (s.rsStreams rs).foldl (fun s n => (s.countBarred n).releaseStream n) s
  let s := (s.goldenSlot rs k).settle false
  if s.parking then s.parkSet rs else s

/-- The seal tests of set rs now (R94): the watermark condition first, then the deadline; one seal in a cycle. -/
def State.sealTest (s : State) (rs : Nat) (ue : Option UeReport) : State :=
  let k := (s.fuSet rs).k
  if !s.rsRuns rs || (s.fuSet rs).sealAt == some s.thy.counter then s
  else if s.watermarkReady rs k then s.sealResult rs k 0 ue
  else if decide (s.instant rs k + s.get (F.FU_RS_H rs) ≤ s.now) then s.sealResult rs k 1 ue
  else s

/-- The fusion engine works: run state, and not held (R331). -/
def State.fusionOn (s : State) : Bool := s.running && !s.rc.fusionHeld

/-- A forward step has carried device time past the deadline of set rs's Open result: it seals at once (R98, R103); the next result's test begins in the next cycle (R94). -/
def State.sealPassed (s : State) (rs : Nat) : State :=
  if s.passedByStep (s.instant rs (s.fuSet rs).k + s.get (F.FU_RS_H rs)) then s.sealTest rs none else s

/-! ### Starts (R45, R86, R111, R112, R252, R254, R260, R262, R382) -/

/-- The source entries of set rs, as byte offsets inside the descriptor's extent: their number, and where they lie (R111, R424). -/
def State.entryCount (s : State) (rs : Nat) : Nat :=
  (List.range 64).foldl (fun n i => if s.flag (F.FU_MS_CFG_EN i) && bitOf (s.get (F.FU_MS_CFG_RS_MASK i)) rs then n + s.get (F.FU_MS_CFG_NSRC i) else n) 0

/-- Byte 4 of every source entry zeroed (R111). -/
def State.clearEntries (s : State) (rs : Nat) : State :=
  match s.desc? (s.get (F.FU_RS_SRC_DESC rs)) with
  | some d => (List.range (s.entryCount rs)).foldl (fun s j => if 8 * j + 4 < d.extent then s.dramPut (d.base + 8 * j + 4) 0 else s) s
  | none => s

/-- The vote state of set rs cleared: every source admitted, run counts zero (R112, R127). -/
def State.clearVotes (s : State) (rs : Nat) : State :=
  (List.range 64).foldl (fun s i =>
    ((s.set (F.FU_MS_STAT_ADMITTED rs i) (2 ^ s.get (F.FU_MS_CFG_NSRC i) - 1)).set (F.FU_MS_RUN0 rs i) 0).set (F.FU_MS_RUN1 rs i) 0) s

/-- The device address of a slot of set rs's ring; none without a valid ring descriptor (R381). -/
def State.slotAddr (s : State) (rs slot : Nat) : Option Nat :=
  (s.desc? (s.get (F.HP_RING_DESC rs))).map (fun d => d.base + slot * (s.get (F.HP_RING_CFG_SLOT_4K rs) * 4096))

/-- HP_RING_UNREL of set rs. -/
def State.refreshUnrel (s : State) (rs : Nat) : State := s.set (F.HP_RING_UNREL rs) (s.hp.slots.filter (fun x => x.1 == rs)).length

/-- The sequence number a slot holds Sealed. -/
def State.slotSeq (s : State) (rs slot : Nat) : Option Nat := (s.hp.slots.find? (fun x => x.1 == rs && x.2.1 == slot)).map (fun x => x.2.2)

/-- A slot Empty: its length word cleared (R382). -/
def State.emptySlot (s : State) (rs slot : Nat) : State :=
  let s := { s with hp := { s.hp with slots := s.hp.slots.filter (fun x => !(x.1 == rs && x.2.1 == slot)) } }
  let s := match s.slotAddr rs slot with
    | some a => s.dramWrite a (zerosB 4)
    | none => s
  s.refreshUnrel rs

/-- A start clears every slot of the set's ring; each Sealed one is lost (R382). -/
def State.clearRing (s : State) (rs : Nat) : State :=
  (s.hp.slots.filter (fun x => x.1 == rs)).foldl (fun s x => (s.incSat (F.HP_RING_LOST rs)).emptySlot rs x.2.1) s

/-- Tarragon and the periodic trigger outputs start with the result sets, with no lead (R233, R236, R238, R241, R243). -/
def State.solverStart (s : State) (now : Nat) : State :=
  let probs := (List.range 32).map (fun p =>
    let x := s.sv.probs.getD p .zero
    let t0 := if s.flag (F.SV_P_CFG_EN p) && !s.flag (F.SV_P_CFG_MODE p) then some (gridFrom now (s.get (F.SV_P_PHASE p)) (s.get (F.SV_P_PERIOD p))) else none
    { SvProb.zero with warm := x.warm, t0 := t0 })
  let s := { s with sv := ⟨probs, none, [], s.sv.image⟩ }
  let s := s.setFlag F.SV_STATUS_BUSY false
  let s := (List.range 32).foldl (fun s p => if s.flag (F.SV_P_CFG_EN p) then
    (s.set (F.SV_P_STAT_STATE p) 0).setFlag (F.SV_P_STAT_TAINT p) false else s) s
  let next := ((List.range 16).filter (fun o => s.flag (F.IO_TRG_CFG_EN o) && s.flag (F.IO_TRG_CFG_PERIODIC o))).map
    (fun o => (o, gridFrom now (s.get (F.IO_TRG_PHASE o)) (s.get (F.IO_TRG_PERIOD o))))
  { s with io := { s.io with next := next, due := List.replicate 12 0, duties := [] } }

/-- What a start does once for all sets: fences named by CL_FZERO, semaphores, take-up counts, comparator triggers, and fence lists with INIT = 0 (R252, R254, R260, R262). -/
def State.commonStart (s : State) : State :=
  let now := s.now
  let s := (List.range 4096).foldl (fun s f => if bitOf (s.get (F.CL_FZERO (f / 32))) (f % 32) then s.set64 (F.CL_FENCE_LO f) (F.CL_FENCE_HI f) 0 else s) s
  let s := (List.range 256).foldl (fun s n => s.set (F.CL_SEM n) (s.get (F.CL_SEM_INIT n))) s
  let comps := (s.lists.filter (fun n => (s.listHdr n).kind == 3)).map (fun n => (n, gridFrom now (s.listHdr n).phase (s.listHdr n).period))
  let s := { s with cl := { s.cl with taken := [], fires := comps }, at_ := { s.at_ with written := 0, readTo := 0, fresh := true } }
  let s := (s.setFlag F.AT_CUR_BIN_HI_DIR false).solverStart now
  s.occurAll (fun h => h.kind == 4 && h.fenceInit == 0 && s.fence h.trigRef == 0) (fun s n => s.occur n 1)

/-- The job result set's hold: a link untrained and the start limit not reached (R390). -/
def State.jobHeld (s : State) (rs : Nat) : Bool :=
  s.get F.LK_JOB_CFG_SIZE != 0 && rs == s.get F.RC_CFG_JOB_RS && !s.lk.startOver &&
    !(List.range 4).all (fun l => s.get (F.LK_L_STAT_STATE l) == 2)

/-- Vote-out verdicts of a set end at its start, where every source is admitted (R112, R303). -/
def State.clearVoteVerdicts (s : State) (rs : Nat) : State :=
  (s.sf.verdicts.filter (fun v => v.2.1 == 0x23 && v.2.2 / 512 == rs)).foldl (fun s v => s.health 0x23 v.1 v.2.2 false) s

/-- Set rs starts now (R86). -/
def State.startSet (s : State) (rs : Nat) : State :=
  let s := if s.flag F.TB_STATUS_STARTED then s else (s.commonStart).setFlag F.TB_STATUS_STARTED true
  let t0 := gridFrom (s.now + s.get (F.FU_RS_LEAD rs)) (s.get (F.FU_RS_PHASE rs)) (s.get (F.FU_RS_PERIOD rs))
  let s := (s.set64 (F.FU_RS_T0_LO rs) (F.FU_RS_T0_HI rs) t0).set (F.FU_RS_SEQ rs) 0
  let s := (s.set (F.FU_RS_STAT_STATE rs) 2).incWrap (F.FU_RS_STAT_STARTS rs)
  let s := s.set F.FU_STATUS_RS_RUN (putBit (s.get F.FU_STATUS_RS_RUN) rs true)
  let s := (s.putSet rs .zero).set (F.FU_SLACK_MIN rs) 0x7FFFFFFF
  let s := { s with fu := { s.fu with results := s.fu.results.filter (fun r => r.rs != rs) } }
  let s := ((((s.clearVotes rs).clearVoteVerdicts rs).clearEntries rs).clearRing rs).cbStart rs
  let s := if rs == s.get F.RC_CFG_JOB_RS then
      ({ s with rc := { s.rc with absent := [], resumeSet := false, heard := (List.range 8).map (fun r => (r, s.now)) } }).setFlag F.LK_TAKEOVER_DONE false
    else s
  s.settle false

/-- Set rs waits for its start and nothing holds it (R45, R86, R390). -/
def State.startDue (s : State) (rs : Nat) : Bool :=
  s.running && s.get (F.FU_RS_STAT_STATE rs) == 1 && !s.startHeld && !s.jobHeld rs

/-- With no result set enabled, what a start does for all comes when nothing holds it (R45, R86). -/
def State.bareStart (s : State) : State :=
  if s.running && s.fu.bare && !s.startHeld then ({ s with fu := { s.fu with bare := false } }).commonStart else s

/-- Set rs starts when it may. -/
def State.tryStart (s : State) (rs : Nat) : State := if s.startDue rs then s.startSet rs else s.bareStart

end Sys2Proof.Machine
end

