-- ==== Sys2Proof/Machine/FormatOps.lean ====
section
/-! DEFINITION. Elements of tensors: their codes and scales, conversion (R156, R177), MX granules (R173 to R178), and reading and writing them through descriptors in DRAM (R181, R185, R186). -/

namespace Sys2Proof.Machine

/-- One stored element: its code and, for MX types, its block's scale byte. -/
structure El where
  code : Nat
  scale : Nat
  deriving DecidableEq, Repr

/-- The floating format of a type's elements; none for the integer types (R172). -/
def ElemType.fmt : ElemType → Option FlFmt
  | .fp32 => some fmtFp32
  | .bf16 => some fmtBf16
  | .fp16 => some fmtFp16
  | .e4m3 => some fmtE4m3
  | .e5m2 => some fmtE5m2
  | .int8 => none
  | .int4 => none
  | .q32 => none
  | .mxe4m3 => some fmtE4m3
  | .mxe5m2 => some fmtE5m2
  | .mxe3m2 => some fmtE3m2
  | .mxe2m3 => some fmtE2m3
  | .mxfp4 => some fmtE2m1
  | .mxint8 => none

/-- The value of an element (R172, R173, R178): `q` is QFRAC. -/
def El.val (t : ElemType) (q : Nat) (x : El) : Fl :=
  let v := match t.fmt with
    | some f => f.decode x.code
    | none => Fl.ofInt (signedOf t.bits x.code)
  if t.isMx then
    (if x.scale == 0xFF then .nan
     else v.scale ((x.scale : Int) - 127 - (if t == .mxint8 then 6 else 0)))
  else if t == .q32 then v.scale (-(q : Int)) else v

/-! ### Conversion (R156, R177) -/

/-- A value converted to an integer code of `w` bits with `q` fraction bits, clamped to [lo, hi]; whether it saturated. A NaN gives a free value (log entry 30). -/
def toIntCode (w q : Nat) (lo hi : Int) (x : Fl) : Nat × Bool :=
  match x.scale q with
  | .nan => (Config.nanToInt w % 2 ^ w, false)
  | .inf s => (patternOf w (if s then lo else hi), true)
  | .fin s m e =>
    let n : Int := (rneAt m e 0 : Nat)
    let i := if s then -n else n
    if i < lo then (patternOf w lo, true) else if hi < i then (patternOf w hi, true) else (patternOf w i, false)

/-- A value converted to an element code of a type, and whether it saturated or overflowed (R156); MX values are already divided by their scale. -/
def ElemType.convert (t : ElemType) (ovf : Bool) (q : Nat) (x : Fl) : Nat × Bool :=
  match t with
  | .fp32 => fmtFp32.encode false x
  | .bf16 => fmtBf16.encode false x
  | .fp16 => fmtFp16.encode false x
  | .e4m3 => fmtE4m3.encode (!ovf) x
  | .e5m2 => fmtE5m2.encode (!ovf) x
  | .int8 => toIntCode 8 0 (-128) 127 x
  | .int4 => toIntCode 4 0 (-8) 7 x
  | .q32 => toIntCode 32 q (-2147483648) 2147483647 x
  | .mxe4m3 => fmtE4m3.encode (!ovf) x
  | .mxe5m2 => fmtE5m2.encode (!ovf) x
  | .mxe3m2 => fmtE3m2.encode true x
  | .mxe2m3 => fmtE2m3.encode true x
  | .mxfp4 => fmtE2m1.encode true x
  | .mxint8 => toIntCode 8 6 (-127) 127 x

/-- The exponent of the largest finite element value (R177). -/
def ElemType.emax : ElemType → Int
  | .mxe4m3 => 8
  | .mxe5m2 => 15
  | .mxe3m2 => 4
  | .mxe2m3 => 2
  | .mxfp4 => 2
  | _ => 0

/-- What a conversion of several values gives: the elements, saturating conversions, blocks stored as NaN. -/
structure Encoded where
  els : List El
  sats : Nat
  nans : Nat
  deriving DecidableEq, Repr

/-- An infinity. -/
def Fl.isInf : Fl → Bool
  | .inf _ => true
  | _ => false

/-- floor(log2 x) of a magnitude; none for zero. -/
def Fl.log2? : Fl → Option Int
  | .fin _ m e => if m == 0 then none else some ((Nat.log2 m : Int) + e)
  | .inf _ => some 127
  | .nan => none

/-- The largest floor(log2 |x|) of the values; none when all are zero. -/
def maxLog2 (xs : List Fl) : Option Int :=
  xs.foldl (fun a x => match a, x.log2? with
    | some p, some q => some (max p q)
    | none, q => q
    | p, none => p) none

/-- Up to 32 values converted to one block (R177). -/
def encodeBlock (t : ElemType) (ovf : Bool) (xs : List Fl) : Encoded :=
  let nanBlock : Encoded := ⟨xs.map (fun _ => ⟨0, 0xFF⟩), 0, 1⟩
  let keepInf := ovf && t == .mxe5m2
  if xs.any Fl.isNan then nanBlock
  else if ovf && !keepInf && xs.any Fl.isInf then nanBlock
  else
    match maxLog2 (if keepInf then xs.filter (fun x => !x.isInf) else xs) with
    | none => ⟨xs.map (fun x => ⟨if x.isInf then (t.convert ovf 0 x).1 else 0, 0⟩), 0, 0⟩
    | some l =>
      let e := max 0 (min 254 (l - t.emax + 127))
      let cs := xs.map (fun x => t.convert ovf 0 (x.scale (127 - e)))
      ⟨cs.map (fun c => ⟨c.1, e.toNat⟩), (cs.filter (fun c => c.2)).length, 0⟩

/-- A run cut into pieces of `n`, at most `k` of them. -/
def chunks {α : Type} (n : Nat) : Nat → List α → List (List α)
  | 0, _ => []
  | k + 1, xs => if xs.isEmpty then [] else xs.take n :: chunks n k (xs.drop n)

/-- A row of values along dimension 0 converted to a type. -/
def encodeRow (t : ElemType) (ovf : Bool) (q : Nat) (xs : List Fl) : Encoded :=
  if t.isMx then
    let bs := (chunks 32 xs.length xs).map (encodeBlock t ovf)
    ⟨bs.flatMap Encoded.els, (bs.map Encoded.sats).sum, (bs.map Encoded.nans).sum⟩
  else
    let cs := xs.map (t.convert ovf q)
    ⟨cs.map (fun c => ⟨c.1, 0⟩), (cs.filter (fun c => c.2)).length, 0⟩

/-! ### Packing (R173, R175, R176) -/

/-- Codes of `w` bits joined, the first lowest. -/
def joinCodes (w : Nat) : List Nat → Nat
  | [] => 0
  | c :: cs => c % 2 ^ w + 2 ^ w * joinCodes w cs

/-- The element's code in a stored block of scale `e`: elements of one block share its scale; one that kept another block's scale in tile SRAM (R185) is a free value once it is stored (log entry 31). -/
def El.codeIn (e : Nat) (x : El) : Nat := if x.scale == e then x.code else Config.mxRebase e x.scale x.code

/-- The bytes of one block: its elements, code 0 beyond them. -/
def packBlock (t : ElemType) (els : List El) : Bytes :=
  let e := (els.headD ⟨0, 0⟩).scale
  leBytes t.blockBytes (joinCodes t.bits (els.map (El.codeIn e)))

/-- One granule of up to B_max blocks. -/
def packGranule (t : ElemType) (bs : List (List El)) : Bytes :=
  let scales := bs.map (fun b => BitVec.ofNat 8 (b.headD ⟨0, 0⟩).scale)
  sliceB scales 0 15 ++ [BitVec.ofNat 8 bs.length] ++ sliceB (bs.flatMap (packBlock t)) 0 240

/-- The bytes of a row of elements. -/
def packRow (t : ElemType) (els : List El) : Bytes :=
  if t.isMx then (chunks t.blocksMax els.length (chunks 32 els.length els)).flatMap (packGranule t)
  else leBytes (t.rowBytes els.length) (joinCodes t.bits (els.map El.code))

/-- Element c of a packed row. -/
def elOf (t : ElemType) (row : Bytes) (c : Nat) : El :=
  if t.isMx then
    let b := c / 32
    let g := sliceB row (256 * (b / t.blocksMax)) 256
    let i := b % t.blocksMax
    ⟨bitsOf (fieldB g (16 + i * t.blockBytes) t.blockBytes) (c % 32 * t.bits) t.bits, fieldB g i 1⟩
  else if t == .int4 then ⟨bitsOf (fieldB row (c / 2) 1) (c % 2 * 4) 4, 0⟩
  else ⟨fieldB row (c * (t.bits / 8)) (t.bits / 8), 0⟩

/-- The first `n` elements of a packed row. -/
def unpackRow (t : ElemType) (n : Nat) (row : Bytes) : List El := (List.range n).map (elOf t row)

/-! ### Places of elements in DRAM (R181) -/

/-- SIZEk as a coordinate range: 1 beyond RANK. -/
def Desc.range (d : Desc) (k : Nat) : Nat := max 1 (d.size k)

/-- The address of the row that coordinates name. -/
def Desc.rowAddr (d : Desc) (cs : List Nat) : Nat :=
  d.base + ((List.range 5).map (fun k => 64 * d.stride (k + 1) * cs.getD (k + 1) 0)).sum

/-- The address of a coordinate's granule. -/
def Desc.granAddr (d : Desc) (cs : List Nat) : Nat :=
  d.rowAddr cs + 256 * (cs.getD 0 0 / 32 / d.elem.blocksMax)

/-- The block count R176 implies for a coordinate's granule. -/
def Desc.granBlocks (d : Desc) (cs : List Nat) : Nat :=
  let nb := cdiv (d.size 0) 32
  let g := cs.getD 0 0 / 32 / d.elem.blocksMax
  min d.elem.blocksMax (nb - g * d.elem.blocksMax)

/-- The element at coordinates inside the tensor. -/
def State.elAt (s : State) (d : Desc) (cs : List Nat) : El :=
  let t := d.elem
  let c := cs.getD 0 0
  if t.isMx then
    let g := d.granAddr cs
    let i := c / 32 % t.blocksMax
    ⟨bitsOf (s.dramNat (g + 16 + i * t.blockBytes) t.blockBytes) (c % 32 * t.bits) t.bits, s.dramNat (g + i) 1⟩
  else if t == .int4 then ⟨bitsOf (s.dramNat (d.rowAddr cs + c / 2) 1) (c % 2 * 4) 4, 0⟩
  else ⟨s.dramNat (d.rowAddr cs + c * (t.bits / 8)) (t.bits / 8), 0⟩

/-- The bytes an element is read from: of an MX type its block and its scale. -/
def Desc.elSpans (d : Desc) (cs : List Nat) : List (Nat × Nat) :=
  let t := d.elem
  let c := cs.getD 0 0
  if t.isMx then
    let g := d.granAddr cs
    let i := c / 32 % t.blocksMax
    [(g + 16 + i * t.blockBytes, t.blockBytes), (g + i, 1)]
  else if t == .int4 then [(d.rowAddr cs + c / 2, 1)]
  else [(d.rowAddr cs + c * (t.bits / 8), t.bits / 8)]

/-- The value at coordinates inside the tensor. -/
def State.valAt (s : State) (d : Desc) (cs : List Nat) : Fl := (s.elAt d cs).val d.elem d.qfrac

/-- An element of a non-MX type stored at coordinates inside the tensor; an INT4 pair's second half is stored with its first (R186). -/
def State.elPut (s : State) (d : Desc) (cs : List Nat) (x : El) : State :=
  let t := d.elem
  let c := cs.getD 0 0
  if t == .int4 then
    let a := d.rowAddr cs + c / 2
    let low := if c % 2 == 0 then 0 else s.dramNat a 1 % 16
    s.dramWrite a (leBytes 1 (if c % 2 == 0 then x.code % 16 else low + 16 * (x.code % 16)))
  else s.dramWrite (d.rowAddr cs + c * (t.bits / 8)) (leBytes (t.bits / 8) x.code)

/-- A whole block of an MX type stored at the coordinates of its first element: its bytes, its scale, byte 15 (R186). -/
def State.blockPut (s : State) (d : Desc) (cs : List Nat) (els : List El) : State :=
  let t := d.elem
  let g := d.granAddr cs
  let i := cs.getD 0 0 / 32 % t.blocksMax
  let s := s.dramStore (g + 16 + i * t.blockBytes) (packBlock t els)
  let s := s.dramWrite (g + i) (leBytes 1 (els.headD ⟨0, 0⟩).scale)
  s.dramWrite (g + 15) (leBytes 1 (d.granBlocks cs))

/-- A run of elements stored from dimension-0 coordinate c0 on; the run lies inside the tensor. -/
def State.runPut (s : State) (d : Desc) (c0 : Nat) (outer : List Nat) (els : List El) : State :=
  if d.elem.isMx then
    let bs := chunks 32 els.length els
    (List.range bs.length).foldl (fun s i => s.blockPut d ((c0 + 32 * i) :: outer) (bs.getD i [])) s
  else
    let s := (List.range els.length).foldl (fun s i => s.elPut d ((c0 + i) :: outer) (els.getD i ⟨0, 0⟩)) s
    s.healDram (d.rowAddr (c0 :: outer) + c0 * d.elem.bits / 8) (els.length * d.elem.bits / 8)

/-! ### Granule counts and coordinates -/

/-- A list without repeats, the first of each kept. -/
def dedup (xs : List Nat) : List Nat := xs.foldl (fun acc x => if acc.contains x then acc else acc ++ [x]) []

/-- Granules read, by address and the block count R176 implies: a wrong byte 15 is DS_GRAN_BAD and event 0x121, once a granule (R178). -/
def State.countBad (s : State) (gs : List (Nat × Nat)) : State :=
  (gs.foldl (fun acc g => if acc.contains g then acc else acc ++ [g]) []).foldl (fun s g =>
    if s.dramNat (g.1 + 15) 1 == g.2 then s else (s.incSat F.DS_GRAN_BAD).raise 0x121) s

/-- The granules of the elements read through a descriptor are checked (R178). -/
def State.checkGranules (s : State) (d : Desc) (css : List (List Nat)) : State :=
  if d.elem.isMx then s.countBad (css.map (fun cs => (d.granAddr cs, d.granBlocks cs))) else s

/-- The granules of a packed row of `n` elements at an address. -/
def ElemType.rowGranules (t : ElemType) (n a : Nat) : List (Nat × Nat) :=
  if t.isMx then (List.range (t.rowBytes n / 256)).map (fun g => (a + 256 * g, min t.blocksMax (cdiv n 32 - g * t.blocksMax))) else []

/-- All coordinates within the extents, dimension 0 fastest. -/
def coordsOf : List Nat → List (List Nat)
  | [] => [[]]
  | e :: es => (coordsOf es).flatMap (fun cs => (List.range e).map (fun c => c :: cs))

/-- The addresses of a tensor's rows, dimension 1 fastest, from a base and the dimensions up to k. -/
def Desc.rowBases (d : Desc) : Nat → Nat → List Nat
  | 0, a => [a]
  | k + 1, a => (List.range (max 1 (d.size (k + 1)))).flatMap (fun c => d.rowBases k (a + 64 * d.stride (k + 1) * c))

/-- The addresses of a tensor's rows. -/
def Desc.rowList (d : Desc) : List Nat := d.rowBases (d.rank - 1) d.base

/-- The bytes of a row. -/
def Desc.rowLen (d : Desc) : Nat := d.elem.rowBytes (d.size 0)

/-- The bytes a whole tensor is read from. -/
def Desc.spans (d : Desc) : List (Nat × Nat) := d.rowList.map (fun a => (a, d.rowLen))

/-- The granules of a whole tensor are checked (R178). -/
def State.checkTensor (s : State) (d : Desc) : State := s.countBad (d.rowList.flatMap (fun a => d.elem.rowGranules (d.size 0) a))

/-- A coordinate clamped to its edge (R185). -/
def clampTo (size : Nat) (c : Int) : Nat := if c < 0 then 0 else min c.toNat (size - 1)

/-- Coordinates clamped to a tensor (R185). -/
def Desc.clampAll (d : Desc) (cs : List Int) : List Nat := (List.range 6).map (fun k => clampTo (d.range k) (cs.getD k 0))

/-- Some coordinate lies outside the tensor. -/
def Desc.outside (d : Desc) (cs : List Int) : Bool :=
  (List.range 6).any (fun k => decide (cs.getD k 0 < 0) || decide ((d.range k : Int) ≤ cs.getD k 0))

/-- Blocks stored as NaN counted in DS_MX_NAN (R177). -/
def State.countNans (s : State) (n : Nat) : State := s.addSat F.DS_MX_NAN n

end Sys2Proof.Machine
end

