-- ==== Sys2Proof/Machine/Transcend.lean ====
section
/-! DEFINITION. The transcendental functions of the vector unit (R157): each computed in fixed point far beyond FP32, then a word within the stated bound of it, which one being open (log entry 33). -/

namespace Sys2Proof.Machine

/-- The exponent of the unit in the last place of m · 2^e as an FP32 word. -/
def floorExp (m : Nat) (e : Int) : Int := max ((Nat.log2 m : Int) + e - 23) fmtFp32.qmin

/-- The magnitude code at or just below m · 2^e. -/
def floorCode (m : Nat) (e : Int) : Nat :=
  let q := floorExp m e
  (q - fmtFp32.qmin).toNat * 2 ^ 23 + (if q ≤ e then m * 2 ^ (e - q).toNat else m / 2 ^ (q - e).toNat)

/-- A magnitude within 1 ulp of m · 2^e, `exact` when nothing was cut off it: the code below it or the one above, for an exact code also the one below, as the open value chooses. -/
def withinUlp (m : Nat) (e : Int) (exact : Bool) (choice : Nat) : Nat :=
  let q := floorExp m e
  let whole := exact && (decide (q ≤ e) || m % 2 ^ (q - e).toNat == 0)
  let c := floorCode m e
  min (if whole then c + choice % 3 - 1 else c + choice % 2) (fmtFp32.maxCode + 1)

/-- A magnitude within 2 ulp of a value that lies in [code c, code c + 1): the two codes about it and the next on each side, as the open value chooses; past a power of two the unit doubles and the next code above is out of the bound. -/
def withinTwoUlp (c choice : Nat) : Nat :=
  min (c + choice % (if (c + 1) % 2 ^ 23 == 0 then 3 else 4) - 1) (fmtFp32.maxCode + 1)

/-- ln 2 · 2^160. -/
def ln2Fixed : Nat := 1013035739299659071135698605846798551586536899366

/-- e^r · 2^160 for r · 2^-160 in [0, ln 2): forty-four terms of the series. -/
def expSeries (r : Nat) : Nat :=
  (List.range 44).foldl (fun acc i => 2 ^ 160 + r * acc / (44 - i) / 2 ^ 160) (2 ^ 160)

/-- e^x = m · 2^e for a finite x, rounded down, by x = k ln 2 + r. -/
def expFixed (neg : Bool) (m : Nat) (e : Int) : Nat × Int :=
  let x : Int := alignTo neg m (max (e + 160) 0) 0 / (2 ^ (-(e + 160)).toNat : Nat)
  let k := x / (ln2Fixed : Int)
  (expSeries (x - k * ln2Fixed).toNat, k - 160)

/-- ln y · 2^160 for y = (2^b + f) / 2^b in [1, 2): 2 artanh ((y - 1) / (y + 1)), fifty-six terms. -/
def logSeries (b f : Nat) : Nat :=
  let z := f * 2 ^ 168 / (2 ^ (b + 1) + f)
  let z2 := z * z / 2 ^ 168
  2 * z * ((List.range 56).foldl (fun acc i => 2 ^ 168 / (2 * (55 - i) + 1) + z2 * acc / 2 ^ 168) 0) / 2 ^ 176

/-- ln (m · 2^e) · 2^160. -/
def logFixed (m : Nat) (e : Int) : Int :=
  let b := Nat.log2 m
  ((b : Int) + e) * ln2Fixed + logSeries b (m - 2 ^ b)

/-- A magnitude of at most 2^k: m · 2^e. -/
def atMostPow (m : Nat) (e k : Int) : Bool := decide ((Nat.log2 m : Int) + e < k)

/-- exp (R157, R195): exactly 1.0 for +0, overflow to +∞, +0 for -∞; below 2^-149 the codes within the bound of it. -/
def vecExpWord (w : Nat) : Nat :=
  match fp32 w with
  | .nan => fmtFp32.nanCode
  | .inf true => 0
  | .inf false => toFp32 (.inf false)
  | .fin neg m e =>
    if m == 0 && !neg then 0x3F800000
    else if !atMostPow m e 8 then (if neg then withinTwoUlp 0 (Config.vecExp w) else toFp32 (.inf false))
    else
      let v := expFixed neg m e
      if 129 ≤ (Nat.log2 v.1 : Int) + v.2 + 1 then toFp32 (.inf false)
      else withinTwoUlp (floorCode v.1 v.2) (Config.vecExp w)

/-- log (R157); about ln 1 = 0 the words within two units of the least subnormal. -/
def vecLogWord (w : Nat) : Nat :=
  match fp32 w with
  | .nan => fmtFp32.nanCode
  | .inf true => fmtFp32.nanCode
  | .inf false => toFp32 (.inf false)
  | .fin neg m e =>
    if m == 0 then toFp32 (.inf true)
    else if neg then fmtFp32.nanCode
    else
      let v := logFixed m e
      if v == 0 then
        (let c := Config.vecLog w % 5
         if c ≤ 2 then c else fmtFp32.signBit + (c - 2))
      else (if v < 0 then fmtFp32.signBit else 0) + withinTwoUlp (floorCode v.natAbs (-160)) (Config.vecLog w)

/-- tanh (R157): x - x³/3 + … below 2^-14, which lies just below x; then (e^2x - 1) / (e^2x + 1); above 2^5 just below 1. -/
def vecTanhWord (w : Nat) : Nat :=
  match fp32 w with
  | .nan => fmtFp32.nanCode
  | .inf neg => toFp32 (.fin neg 1 0)
  | .fin neg m e =>
    if m == 0 then w
    else
      let c :=
        if atMostPow m e (-14) then w % 2 ^ 31 - 1
        else if !atMostPow m e 5 then 0x3F7FFFFF
        else
          let v := expFixed false m (e + 1)
          let k := (v.2 + 160).toNat
          floorCode ((v.1 * 2 ^ k - 2 ^ 160) * 2 ^ 160 / (v.1 * 2 ^ k + 2 ^ 160)) (-160)
      (if neg then fmtFp32.signBit else 0) + withinTwoUlp c (Config.vecTanh w)

/-- rsqrt (R157): 2^200-fold precision of the exact value, then a result within 1 ulp. -/
def vecRsqrtWord (w : Nat) : Nat :=
  match fp32 w with
  | .nan => fmtFp32.nanCode
  | .inf true => fmtFp32.nanCode
  | .inf false => 0
  | .fin neg m e =>
    if m == 0 then toFp32 (.inf neg)
    else if neg then fmtFp32.nanCode
    else
      let m' := if e % 2 = 0 then m else 2 * m
      let e' := if e % 2 = 0 then e else e - 1
      let r := isqrt (2 ^ 120 / m')
      withinUlp r (-60 - e' / 2) (r * r * m' == 2 ^ 120) (Config.vecRsqrt w)

/-- reciprocal (R157), exact for every power of two (R195). -/
def vecRecipWord (w : Nat) : Nat :=
  match fp32 w with
  | .nan => fmtFp32.nanCode
  | .inf neg => toFp32 (.fin neg 0 0)
  | .fin neg m e =>
    if m == 0 then toFp32 (.inf neg)
    else if m == 2 ^ Nat.log2 m then toFp32 (.fin neg 1 (-(Nat.log2 m : Int) - e))
    else (if neg then fmtFp32.signBit else 0) + withinUlp (2 ^ 80 / m) (-80 - e) false (Config.vecRecip w)

end Sys2Proof.Machine
end

