-- ==== Sys2Proof/Machine/TensorOps.lean ====
section
/-! DEFINITION. Slices moved between DRAM and tile SRAM with their transforms (R185 to R190), the cell array and the cross-tile tree (R151 to R155), and the vector unit (R156 to R158).
A slice lies in SRAM as packed rows, dimension 0 innermost; MATMUL reads A as M rows of K, B as K rows of N, and writes M rows of N (log entry 34). -/

namespace Sys2Proof.Machine

/-! ### Transforms (R188 to R190) -/

/-- A transform block (R188). -/
structure Transform where
  kind : Nat
  typeOut : Nat
  perm : List Nat
  kh : Nat
  kw : Nat
  sy : Nat
  sx : Nat
  dy : Nat
  dx : Nat
  py : Nat
  px : Nat
  pad : Bool
  deriving DecidableEq, Repr

/-- A transform block read from its 16 bytes. -/
def Transform.ofBytes (b : Bytes) : Transform :=
  let nib := fun (o : Nat) => bitsOf (fieldB b o 1) 0 4
  let hi := fun (o : Nat) => bitsOf (fieldB b o 1) 4 4
  { kind := bitsOf (fieldB b 0 1) 0 3, typeOut := fieldB b 1 1,
    perm := (List.range 6).map (fun k => bitsOf (fieldB b 2 3) (3 * k) 3),
    kh := nib 5 + 1, kw := hi 5 + 1, sy := nib 6, sx := hi 6, dy := nib 7, dx := hi 7,
    py := fieldB b 8 1, px := fieldB b 9 1, pad := bitOf (fieldB b 10 1) 0 }

/-- PERM(k) within the rank; beyond it the dimension itself. -/
def Transform.permAt (tr : Transform) (rank k : Nat) : Nat := if k < rank then tr.perm.getD k k else k

/-- PERM is the identity. -/
def Transform.isIdentity (tr : Transform) (rank : Nat) : Bool := (List.range rank).all (fun k => tr.permAt rank k == k)

/-- OH or OW of R190. -/
def outSize (n pad dil kern stride : Nat) : Int :=
  ((n : Int) + 2 * pad - dil * ((kern : Int) - 1) - 1) / (stride : Int) + 1

/-- What a slice's move reads: rows of elements in output order with what their conversion counts, their type, and whether a coordinate was clamped. -/
structure Moved where
  rows : List Encoded
  t : ElemType
  q : Nat
  clamped : Bool
  deriving DecidableEq, Repr

/-- PERM is a permutation of 0 to RANK - 1 where KIND uses it (R188). -/
def Transform.permOk (tr : Transform) (rank : Nat) : Bool :=
  (tr.kind != 1 && tr.kind != 3) || (List.range rank).all (fun k => (tr.perm.take rank).contains k)

/-- TYPE_OUT is one that KIND has (R188). -/
def Transform.typeOk (tr : Transform) : Bool :=
  match tr.kind with
  | 2 => tr.typeOut == 0 || tr.typeOut == 1
  | 3 => ((ElemType.ofCode tr.typeOut).filter ElemType.isMx).isSome
  | _ => true

/-- The element type KIND gives for a source type; none where it does not accept it (R188, R189). -/
def Transform.outType (tr : Transform) (t : ElemType) : Option ElemType :=
  match tr.kind with
  | 0 => some t
  | 1 => if t.isMx then none else some t
  | 2 => if t.isMx then (match tr.typeOut with
      | 0 => some .fp32
      | 1 => some .bf16
      | _ => none) else none
  | 3 => if t.isMx then (ElemType.ofCode tr.typeOut).filter ElemType.isMx else none
  | 4 => if t.isMx then none else some t
  | _ => none

/-- Source coordinates of an output position (R189, R190); none for a position padded with zero. -/
def Transform.source (tr : Transform) (d : Desc) (pos : List Int) : Option (List Int) :=
  match tr.kind with
  | 1 => some ((List.range 6).map (fun k => pos.getD (tr.permAt d.rank k) 0))
  | 3 => some ((List.range 6).map (fun k => pos.getD (tr.permAt d.rank k) 0))
  | 4 =>
    let c := d.range 0
    let e := (pos.getD 0 0).toNat
    let ky : Int := ((e / c / tr.kw : Nat) : Int)
    let kx : Int := ((e / c % tr.kw : Nat) : Int)
    let iy := pos.getD 2 0 * tr.sy + ky * tr.dy - tr.py
    let ix := pos.getD 1 0 * tr.sx + kx * tr.dx - tr.px
    if tr.pad && (decide (iy < 0) || decide ((d.range 2 : Int) ≤ iy) || decide (ix < 0) || decide ((d.range 1 : Int) ≤ ix)) then none
    else some [((e % c : Nat) : Int), ix, iy, 0, 0, 0]
  | _ => some pos

/-- An output position within OH × OW and the row (R190). -/
def Transform.inside (tr : Transform) (d : Desc) (pos : List Int) : Bool :=
  tr.kind != 4 ||
  (decide (0 ≤ pos.getD 0 0) && decide (pos.getD 0 0 < (tr.kh * tr.kw * d.range 0 : Nat)) &&
   decide (0 ≤ pos.getD 1 0) && decide (pos.getD 1 0 < outSize (d.range 1) tr.px tr.dx tr.kw tr.sx) &&
   decide (0 ≤ pos.getD 2 0) && decide (pos.getD 2 0 < outSize (d.range 2) tr.py tr.dy tr.kh tr.sy))

/-- A slice's positions by row: origin plus offsets, dimension 0 fastest. -/
def slicePositions (origin : List Int) (ext : List Nat) : List (List (List Int)) :=
  (coordsOf (ext.drop 1)).map (fun outer => (List.range (ext.getD 0 0)).map (fun c =>
    (List.range 6).map (fun k => origin.getD k 0 + (((c :: outer).getD k 0 : Nat) : Int))))

/-- A slice read through a descriptor with its transform: the command error, or what it reads (R185, R188 to R190); `n` elements of a row at most are kept, and only they enter a block (R177). Decode to BF16 counts no overflow (R189). -/
def State.moveSlice (s : State) (d : Desc) (tr : Transform) (origin : List Int) (ext : List Nat) (n : Nat) : Except Nat Moved :=
  match tr.outType d.elem with
  | none => .error 0x06
  | some t =>
    let poss := slicePositions origin ext
    if (tr.kind == 4 && d.rank != 3) || !tr.permOk d.rank then .error 0x04
    else if !(poss.all (fun r => r.all (tr.inside d))) then .error 0x05
    else
      let srcs := poss.map (fun r => r.map (tr.source d))
      let clamped := srcs.any (fun r => r.any (fun o => match o with
        | some c => d.outside c
        | none => false))
      let els := srcs.map (fun r => (r.take n).map (fun o => match o with
        | some c => s.elAt d (d.clampAll c)
        | none => ⟨0, 0⟩))
      if tr.kind == 2 || (tr.kind == 3 && !(t == d.elem && tr.isIdentity d.rank)) then
        let ovf := s.flag F.TL_NUM_CFG
        let rows := els.map (fun r => encodeRow t ovf 0 (r.map (El.val d.elem d.qfrac)))
        .ok ⟨rows.map (fun r => { r with sats := if tr.kind == 2 then 0 else r.sats }), t, 0, clamped⟩
      else .ok ⟨els.map (fun r => ⟨r, 0, 0⟩), t, d.qfrac, clamped⟩

/-- The granules a slice reads are checked (R178). -/
def State.checkSlice (s : State) (d : Desc) (tr : Transform) (origin : List Int) (ext : List Nat) : State :=
  s.checkGranules d (((slicePositions origin ext).flatMap id).filterMap (fun p => (tr.source d p).map d.clampAll))

/-- Origin c0 to c5 of a record at byte 16. -/
def originOf (record : Bytes) : List Int := (List.range 6).map (fun k => sfieldB record (16 + 4 * k))

/-- Slice extents of a record at byte 40, 1 for dimensions 4 and 5. -/
def extentOf (record : Bytes) : List Nat := (List.range 4).map (fun k => fieldB record (40 + 2 * k) 2) ++ [1, 1]

/-- The origin moved by n along dimension 1. -/
def shiftDim1 (origin : List Int) (n : Nat) : List Int := setAt origin 1 (origin.getD 1 0 + n)

/-! ### Rows in tile SRAM (R159, R185) -/

/-- The key of element `c` of a packed row at an offset of a tile, among the scales kept beside SRAM. -/
def scaleKey (t : ElemType) (l ofs c : Nat) : Nat :=
  let b := c / 32
  32 * (l * sramSize + ofs + 256 * (b / t.blocksMax) + 16 + b % t.blocksMax * t.blockBytes) + c % 32

/-- The first `n` elements of a packed row in tile SRAM, each MX element with its own scale (R185). -/
def State.sramRow (s : State) (l ofs : Nat) (t : ElemType) (n : Nat) : List El :=
  let els := unpackRow t n (s.sramRead l ofs (t.rowBytes n))
  if t.isMx then els.zipIdx.map (fun x => { x.1 with scale := (assocGet (scaleKey t l ofs x.2) s.tl.scales).getD x.1.scale }) else els

/-- A row of elements stored packed in tile SRAM; an MX element whose scale is not that of its packed block keeps its own (R185). -/
def State.putSramRow (s : State) (l ofs : Nat) (t : ElemType) (els : List El) : State :=
  if t.isMx then
    let scale := fun (c : Nat) => (els.getD (c / 32 * 32) ⟨0, 0⟩).scale
    let flat := els.zipIdx.map (fun x => { x.1 with scale := scale x.2 })
    let own := els.zipIdx.filterMap (fun x => if x.1.scale == scale x.2 then none else some (scaleKey t l ofs x.2, x.1.scale))
    let s := s.sramStore l ofs (packRow t flat)
    { s with tl := { s.tl with scales := own ++ s.tl.scales } }
  else s.sramStore l ofs (packRow t els)

/-- Rows stored one after the other. -/
def State.putSramRows (s : State) (l ofs : Nat) (t : ElemType) : List (List El) → State
  | [] => s
  | r :: rs => (s.putSramRow l ofs t r).putSramRows l (ofs + t.rowBytes r.length) t rs

/-! ### LOAD and STORE (R159, R185, R186, R256) -/

/-- The tiles a command names by its first tile and its count. -/
def tileRange (first count : Nat) : List Nat := (List.range count).map (fun i => first + i)

/-- The slices of a LOAD, tile by tile; the first error ends it. -/
def State.loadTiles (s : State) (d : Desc) (tr : Transform) (origin : List Int) (ext : List Nat) (ofs : Nat) : List Nat → Nat → Bool → Except Nat (State × Bool)
  | [], _, cl => .ok (s, cl)
  | l :: ls, i, cl =>
    let o := shiftDim1 origin (i * ext.getD 1 0)
    match s.moveSlice d tr o ext (ext.getD 0 0) with
    | .error e => .error e
    | .ok m =>
      let s := s.checkSlice d tr o ext
      let s := s.putSramRows l ofs m.t (m.rows.map Encoded.els)
      let s := (s.addSat (F.TL_CONV_SAT l) (m.rows.map Encoded.sats).sum).countNans (m.rows.map Encoded.nans).sum
      s.loadTiles d tr origin ext ofs ls (i + 1) (cl || m.clamped)

/-- LOAD (R159, R185, R188, R256). -/
def State.loadBody (s : State) (i : Inst) (record : Bytes) : State × CmdEnd :=
  s.withDesc i (fieldB record 8 2) fun s d =>
    match s.loadTiles d (Transform.ofBytes (sliceB record 48 16)) (originOf record) (extentOf record) (fieldB record 12 4)
        (tileRange (fieldB record 10 1) (fieldB record 11 1)) 0 false with
    | .error e => (s, .error e)
    | .ok (s, clamped) => (if clamped then s.incSat F.DS_CLAMP_CMDS else s, .done)

/-- The interior of a slice along one dimension: where it begins and ends (R186). -/
structure Interior where
  origin : Int
  before : Nat
  after : Nat
  ext : Nat
  deriving DecidableEq, Repr

/-- First destination coordinate. -/
def Interior.first (x : Interior) : Int := x.origin + x.before
/-- One past the last destination coordinate. -/
def Interior.stop (x : Interior) : Int := x.origin + (x.ext - x.after : Nat)

/-- A run along dimension 0 begins on a unit and ends on a unit or at SIZE0. -/
def onUnits (u size : Nat) (first stop : Int) : Bool := decide (first % u = 0) && (decide (stop % u = 0) || decide (stop = size))

/-- The dimension-0 constraint of a type's stores in units of `u` (R186): on the slice, and, since whole units are written, on its interior where it is not empty (DEDUCED, log entry 94). -/
def storeAligned (u size : Nat) (x : Interior) : Bool :=
  onUnits u size x.origin (x.origin + x.ext) && (decide (x.ext ≤ x.before + x.after) || onUnits u size x.first x.stop)

/-- The unit of dimension 0 a type's stores keep to. -/
def ElemType.storeUnit (t : ElemType) : Nat := if t.isMx then 32 else if t == .int4 then 2 else 1

/-- A run along dimension 0 stored where it lies inside the tensor: the state and whether an element was discarded. -/
def State.clipPut (s : State) (d : Desc) (c0 : Int) (outer : List Int) (els : List El) : State × Bool :=
  if els.isEmpty then (s, false)
  else if d.outside (0 :: outer) then (s, true)
  else
    let cut := (-c0).toNat
    let kept := (els.drop cut).take ((d.size 0 : Int) - max c0 0).toNat
    (s.runPut d c0.toNat (outer.map Int.toNat) kept, decide (kept.length < els.length))

/-- The interior of one tile's slice stored. -/
def State.storeTile (s : State) (d : Desc) (origin : List Int) (ext before after : List Nat) (ofs l : Nat) : State × Bool :=
  let t := d.elem
  let rb := t.rowBytes (ext.getD 0 0)
  let outers := coordsOf (ext.drop 1)
  let rows := (List.range outers.length).filter (fun r =>
    (List.range 5).all (fun k => let c := (outers.getD r []).getD k 0
      decide (before.getD (k + 1) 0 ≤ c) && decide (c < ext.getD (k + 1) 0 - after.getD (k + 1) 0)))
  rows.foldl (fun (acc : State × Bool) r =>
    let els := acc.1.sramRow l (ofs + r * rb) t (ext.getD 0 0)
    let inner := (els.take (ext.getD 0 0 - after.getD 0 0)).drop (before.getD 0 0)
    let outer := (List.range 5).map (fun k => origin.getD (k + 1) 0 + (((outers.getD r []).getD k 0 : Nat) : Int))
    let (s, lost) := acc.1.clipPut d (origin.getD 0 0 + before.getD 0 0) outer inner
    (s, acc.2 || lost)) (s, false)

/-- STORE (R186, R256). -/
def State.storeBody (s : State) (i : Inst) (record : Bytes) : State × CmdEnd :=
  s.withDesc i (fieldB record 8 2) fun s d =>
    let origin := originOf record
    let ext := extentOf record
    let before := (List.range 4).map (fun k => fieldB record (48 + k) 1)
    let after := (List.range 4).map (fun k => fieldB record (52 + k) 1)
    let x : Interior := ⟨origin.getD 0 0, before.getD 0 0, after.getD 0 0, ext.getD 0 0⟩
    if !storeAligned d.elem.storeUnit (d.size 0) x then (s, .error 0x03)
    else
      let n := fieldB record 11 1
      let first := fieldB record 10 1
      let (s, lost) := (List.range n).foldl (fun (acc : State × Bool) i =>
        let (s, lost) := acc.1.storeTile d (shiftDim1 origin (i * ext.getD 1 0)) ext before after (fieldB record 12 4) (first + i)
        (s, acc.2 || lost)) (s, false)
      (if lost then s.incSat F.DS_STORE_CLIP else s, .done)

/-! ### COPY (R188, R256) -/

/-- A row of a copy in the destination's type: unchanged when type and QFRAC agree, else converted (R174). -/
def copyRow (m : Moved) (d : Desc) (ovf : Bool) (row : Encoded) : Encoded :=
  if m.t == d.elem && m.q == d.qfrac then row
  else
    let e := encodeRow d.elem ovf d.qfrac (row.els.map (El.val m.t m.q))
    { e with nans := e.nans + row.nans }

/-- COPY (R186, R188, R256): the destination from origin 0. A row outside the destination is discarded, one that is too long is cut at SIZE0, before any conversion (R177). -/
def State.copyBody (s : State) (i : Inst) (record : Bytes) : State × CmdEnd :=
  s.withDesc i (fieldB record 8 2) fun s src => s.withDesc i (fieldB record 10 2) fun s dst =>
    let tr := Transform.ofBytes (sliceB record 48 16)
    let ext := extentOf record
    match s.moveSlice src tr (originOf record) ext (dst.size 0) with
    | .error e => (s, .error e)
    | .ok m =>
      if !storeAligned dst.elem.storeUnit (dst.size 0) ⟨0, 0, 0, ext.getD 0 0⟩ then (s, .error 0x03)
      else
        let s := s.checkSlice src tr (originOf record) ext
        let s := if m.clamped then s.incSat F.DS_CLAMP_CMDS else s
        let outers := coordsOf (ext.drop 1)
        let (s, lost) := (List.range outers.length).foldl (fun (acc : State × Bool) r =>
          let outer := (outers.getD r []).map Int.ofNat
          if dst.outside (0 :: outer) then (acc.1, true)
          else
            let row := copyRow m dst (s.flag F.TL_NUM_CFG) (m.rows.getD r ⟨[], 0, 0⟩)
            let (s, _) := (acc.1.countNans row.nans).clipPut dst 0 outer row.els
            (s.set F.DS_COPY_BYTES (s.get F.DS_COPY_BYTES + cdiv (dst.elem.rowBytes row.els.length) 64), acc.2 || decide (dst.size 0 < ext.getD 0 0))) (s, false)
        (if lost then s.incSat F.DS_STORE_CLIP else s, .done)

/-! ### The cell array (R151 to R154) -/

/-- A value rounded once to FP32. -/
def round32 (x : Fl) : Fl := fp32 (toFp32 x)

/-- The operand types may meet in one MATMUL (R151). -/
def matmulTypes (a b : ElemType) : Bool :=
  let f6 := fun (t u : ElemType) => t == .mxe3m2 && (u == .mxe2m3 || u == .mxfp4)
  let f8 := fun (t : ElemType) => t == .e4m3 || t == .e5m2
  let m8 := fun (t : ElemType) => t == .mxe4m3 || t == .mxe5m2
  (a == b && a != .fp32 && a != .q32) || f6 a b || f6 b a || (f8 a && f8 b) || (m8 a && m8 b)

/-- The type accumulates in INT32 (R151). -/
def ElemType.isInt : ElemType → Bool
  | .int8 => true
  | .int4 => true
  | .q32 => true
  | _ => false

/-- An accumulator: its value and the wraps so far (R154). -/
structure Acc where
  v : Fl
  wraps : Nat
  deriving DecidableEq, Repr

/-- One addition: rounded once to FP32 (R152), or modulo 2^32 with its wrap counted (R154). -/
def accAdd (int : Bool) (a : Fl) (p : Fl) : Fl × Bool :=
  let x := a.add p
  if int then
    let i := x.rneInt.getD 0
    let w := signedOf 32 (patternOf 32 i)
    (Fl.ofInt w, w != i)
  else (round32 x, false)

/-- The accumulation of one output element in ascending k (R152, R154). -/
def accumulate (int : Bool) (acc : Acc) : List (Fl × Fl) → Acc
  | [] => acc
  | (a, b) :: rest => let r := accAdd int acc.v (a.mul b); accumulate int ⟨r.1, acc.wraps + b2n r.2⟩ rest

/-! ### The cross-tile tree (R155) -/

/-- A partial value on its way up the tree: the tile that holds it, the value, and wraps counted on tiles. -/
structure Part where
  tile : Nat
  v : Fl
  wraps : List Nat
  deriving DecidableEq, Repr

/-- One level: adjacent pairs combine, an unpaired last passes up. -/
def treeLevel (f : Fl → Fl → Fl × Bool) : List Part → List Part
  | a :: b :: rest =>
    let r := f a.v b.v
    ⟨a.tile, r.1, a.wraps ++ b.wraps ++ (if r.2 then [a.tile] else [])⟩ :: treeLevel f rest
  | l => l

/-- Levels until one value remains, at most `n` of them. -/
def treeReduce (f : Fl → Fl → Fl × Bool) : Nat → List Part → List Part
  | 0, l => l
  | n + 1, l => match l with
    | [] => []
    | [x] => [x]
    | l => treeReduce f n (treeLevel f l)

/-- Wraps counted on their tiles (R154). -/
def State.countWraps (s : State) (ts : List Nat) : State := ts.foldl (fun s l => s.incSat (F.TL_INT_OVF l)) s

/-- A row of values converted and written to a tile's SRAM, its saturations and NaN blocks counted (R156, R177). -/
def State.putRow (s : State) (l ofs : Nat) (t : ElemType) (xs : List Fl) : State :=
  let e := encodeRow t (s.flag F.TL_NUM_CFG) 0 xs
  ((s.sramStore l ofs (packRow t e.els)).addSat (F.TL_CONV_SAT l) e.sats).countNans e.nans

/-- A packed matrix in a tile's SRAM: `rows` rows of `cols` values. -/
def State.matrix (s : State) (l ofs rows cols : Nat) (t : ElemType) : List (List Fl) :=
  let rb := t.rowBytes cols
  (List.range rows).map (fun r => (s.sramRow l (ofs + r * rb) t cols).map (El.val t 0))

/-- The operands of a MATMUL (R256). -/
structure MatmulCmd where
  a : Nat
  b : Nat
  c : Nat
  out : Nat
  m : Nat
  n : Nat
  k : Nat
  ta : ElemType
  tb : ElemType
  tout : ElemType
  reduce : Bool
  tiles : List Nat
  deriving DecidableEq, Repr

/-- The operands read from a record; none for a reserved type. -/
def MatmulCmd.ofBytes (record : Bytes) : Option MatmulCmd :=
  match ElemType.ofCode (fieldB record 30 1), ElemType.ofCode (fieldB record 31 1), ElemType.ofCode (fieldB record 32 1) with
  | some ta, some tb, some tout =>
    some { a := fieldB record 8 4, b := fieldB record 12 4, c := fieldB record 16 4, out := fieldB record 20 4,
           m := fieldB record 24 2, n := fieldB record 26 2, k := fieldB record 28 2, ta := ta, tb := tb, tout := tout,
           reduce := bitOf (fieldB record 33 1) 0, tiles := tileRange (fieldB record 34 1) (fieldB record 35 1) }
  | _, _, _ => none

/-- The partial products of one tile: M rows of N accumulators (R152, R154); C enters on the lowest tile of a reduction. -/
def State.matmulTile (s : State) (x : MatmulCmd) (l : Nat) (withC : Bool) : List (List Acc) :=
  let int := x.ta.isInt
  let a := s.matrix l x.a x.m x.k x.ta
  let b := s.matrix l x.b x.k x.n x.tb
  let tc := if int then ElemType.q32 else ElemType.fp32
  let c := if x.c == 0xFFFFFFFF || !withC then [] else s.matrix l x.c x.m x.n tc
  (List.range x.m).map (fun i => (List.range x.n).map (fun j =>
    let init := (c.getD i []).getD j (.fin false 0 0)
    accumulate int ⟨init, 0⟩ ((List.range x.k).map (fun k => ((a.getD i []).getD k .nan, (b.getD k []).getD j .nan)))))

/-- A buffer's two halves after a run of bytes has passed through it in pieces of 16 KiB, alternating from the first half on (R159; which half begins is the model's choice, log entry 95). -/
def passHalves (old : List Bytes) (bs : Bytes) : List Bytes :=
  (chunks 0x4000 (bs.length / 0x4000 + 1) bs).zipIdx.foldl (fun h x => setAt h (x.2 % 2) x.1) old

/-- The operand buffers of a tile after the DMA has filled them from SRAM for a MATMUL (R151, R159). -/
def State.fillOperands (s : State) (x : MatmulCmd) (l : Nat) : State :=
  let old := (assocGet l s.tl.operands).getD (List.replicate 4 [])
  let a := passHalves (old.take 2) (s.sramRead l x.a (x.m * x.ta.rowBytes x.k))
  let b := passHalves (old.drop 2) (s.sramRead l x.b (x.k * x.tb.rowBytes x.n))
  s.setTl (fun t => { t with operands := assocPut l (a ++ b) t.operands })

/-- MATMUL (R151 to R156, R170, R256). -/
def State.matmulBody (s : State) (record : Bytes) : State × CmdEnd :=
  match MatmulCmd.ofBytes record with
  | none => (s, .error 0x06)
  | some x =>
    if !matmulTypes x.ta x.tb then (s, .error 0x06)
    else
      let low := x.tiles.headD 0
      let parts := x.tiles.map (fun l => (l, s.matmulTile x l (!x.reduce || l == low)))
      let s := x.tiles.foldl (fun s l => s.fillOperands x l) s
      let s := parts.foldl (fun s p => s.addSat (F.TL_INT_OVF p.1) ((p.2.map (fun r => (r.map Acc.wraps).sum)).sum)) s
      let rb := x.tout.rowBytes x.n
      let s := if x.reduce then
          (List.range x.m).foldl (fun s i =>
            let row := (List.range x.n).map (fun j =>
              (treeReduce (accAdd x.ta.isInt) 8 (parts.map (fun p => ⟨p.1, ((p.2.getD i []).getD j ⟨.nan, 0⟩).v, []⟩))).headD ⟨0, .nan, []⟩)
            (s.countWraps (row.flatMap Part.wraps)).putRow low (x.out + i * rb) x.tout (row.map Part.v)) s
        else parts.foldl (fun s p =>
          (List.range x.m).foldl (fun s i => s.putRow p.1 (x.out + i * rb) x.tout ((p.2.getD i []).map Acc.v)) s) s
      (s, .done)

/-! ### The vector unit (R157, R158) -/

/-- One lane's result of functions 0 to 12 before it is stored in its type (R157). -/
def vecLane (fn : Nat) (x y z : Fl) : Fl :=
  match fn with
  | 0 => round32 (x.add y)
  | 1 => round32 (x.add y.negate)
  | 2 => round32 (x.mul y)
  | 3 => round32 ((x.mul y).add z)
  | 4 => x.min y
  | 5 => x.max y
  | 6 => fp32 (Config.vecCompare (toFp32 x) (toFp32 y) % 2 ^ 32)
  | 7 => x
  | 8 => fp32 (vecExpWord (toFp32 x))
  | 9 => fp32 (vecLogWord (toFp32 x))
  | 10 => fp32 (vecRsqrtWord (toFp32 x))
  | 11 => fp32 (vecRecipWord (toFp32 x))
  | _ => fp32 (vecTanhWord (toFp32 x))

/-- Functions 0 to 3 on BF16 operands round once, to BF16 (R157). -/
def vecLaneBf16 (fn : Nat) (x y z : Fl) : Fl :=
  match fn with
  | 0 => fmtBf16.decode (fmtBf16.encode false (x.add y)).1
  | 1 => fmtBf16.decode (fmtBf16.encode false (x.add y.negate)).1
  | 2 => fmtBf16.decode (fmtBf16.encode false (x.mul y)).1
  | 3 => fmtBf16.decode (fmtBf16.encode false ((x.mul y).add z)).1
  | n => vecLane n x y z

/-- The combination of a reduction (R155, R158): function 14 max, 15 min, every other an addition, in FP32 with R152's rounding or in INT32. -/
def vecCombine (t : ElemType) (fn : Nat) (a b : Fl) : Fl × Bool :=
  match fn with
  | 14 => (a.max b, false)
  | 15 => (a.min b, false)
  | _ => accAdd t.isInt a b

/-- The lanes of a vector (R157). -/
def ElemType.lanes (t : ElemType) : Nat := if t == .bf16 then 128 else 64

/-- A reduction over a tile's elements: a tree in each vector, the vectors in ascending order (R158). -/
def vecReduce (t : ElemType) (fn l : Nat) (xs : List Fl) : List Part :=
  let per := (chunks t.lanes xs.length xs).flatMap (fun v => treeReduce (vecCombine t fn) 8 (v.map (fun x => ⟨l, x, []⟩)))
  match per with
  | [] => []
  | p :: ps => [ps.foldl (fun a b => let r := vecCombine t fn a.v b.v; ⟨l, r.1, a.wraps ++ b.wraps ++ (if r.2 then [l] else [])⟩) p]

/-- VECTOR (R157, R158, R170, R256). -/
def State.vectorBody (s : State) (record : Bytes) : State × CmdEnd :=
  match ElemType.ofCode (fieldB record 9 1) with
  | none => (s, .error 0x06)
  | some t =>
    let fn := fieldB record 8 1
    let n := fieldB record 28 4
    let tiles := tileRange (fieldB record 10 1) (fieldB record 11 1)
    let out := fieldB record 24 4
    let src := if fn == 7 then ElemType.fp32 else t
    let row := fun (l ofs : Nat) => (s.matrix l ofs 1 n src).headD []
    let lane := if t == .bf16 then vecLaneBf16 fn else vecLane fn
    let parts : List (List Part) := tiles.map (fun l =>
      let xs := row l (fieldB record 12 4)
      if 13 ≤ fn then vecReduce t fn l xs
      else
        let ys := row l (fieldB record 16 4)
        let zs := row l (fieldB record 20 4)
        (List.range n).map (fun i => ⟨l, lane (xs.getD i .nan) (ys.getD i .nan) (zs.getD i .nan), []⟩))
    let s := if bitOf (fieldB record 32 1) 0 then
        let m := (parts.headD []).length
        let outp := (List.range m).flatMap (fun j =>
          treeReduce (vecCombine t fn) 8 (parts.map (fun p => p.getD j ⟨0, .nan, []⟩)))
        (s.countWraps (outp.flatMap Part.wraps)).putRow (tiles.headD 0) out t (outp.map Part.v)
      else (List.range tiles.length).foldl (fun s i =>
        let p := parts.getD i []
        (s.countWraps (p.flatMap Part.wraps)).putRow (tiles.getD i 0) out t (p.map Part.v)) s
    (s, .done)

/-! ### CREATE_DESC (R182, R183) -/

/-- A failed creation recorded (R183). -/
def State.descFailed (s : State) (slot ctx : Nat) (e : Nat × Nat) : State :=
  let s := s.dramWrite (s.descAddr slot) (leBytes 1 (s.dramNat (s.descAddr slot) 1 % 128))
  let s := ((s.set F.DS_ERR_LAST_CODE e.1).set F.DS_ERR_LAST_DIM e.2).set F.DS_ERR_LAST_SLOT slot
  let s := (s.set F.DS_ERR_CTX_CTX ctx).setFlag F.DS_ERR_CTX_BOOT false
  (s.incSat F.DS_ERR_COUNT).raise 0x120

/-- DS_STATUS.VALID counts the valid slots (R191). -/
def State.refreshValid (s : State) : State :=
  s.set F.DS_STATUS ((List.range (s.get F.DS_TBL_SLOTS)).filter (fun i => (s.descAt i).valid)).length

/-- CREATE_DESC by a list of a context (R182, R183): bytes 6 and 7 of the slot stay. -/
def State.createBody (s : State) (i : Inst) (record : Bytes) : State × CmdEnd :=
  s.withDesc i (fieldB record 8 2) fun s d =>
    if d.elem != .int8 then (s, .error 0x06)
    else
      let slot := fieldB record 16 2
      let e := fieldB record 12 4
      let given := (List.range 64).map (fun j => BitVec.ofNat 8 (s.elAt d (d.clampAll [((e + j : Nat) : Int), 0, 0, 0, 0, 0])).code)
      let keep := s.dramRead (s.descAddr slot + 6) 2
      let bytes := patchB given 6 keep
      let ctx := (s.runHdr i).ctx
      let new := Desc.ofBytes bytes
      let fault := match s.checkDesc bytes with
        | some f => some f
        | none => if s.descCtx new != ctx then some (0x0B, 7)
            else if new.owner != i.run || new.owner == noList then some (0x0C, 7) else none
      match fault with
      | some f => ((s.descFailed slot ctx f).refreshValid, .error 0x02)
      | none =>
        let s := s.dramStore (s.descAddr slot) (patchB bytes 0 (leBytes 1 (fieldB bytes 0 1 + 128)))
        ((s.incWrap F.DS_CREATED).refreshValid, .done)

end Sys2Proof.Machine
end

