-- ==== Sys2Proof/Machine/AttnOps.lean ====
section
/-! DEFINITION. Attention and corridor memory: the key order and recurrence, the page table, corridor writes, reads and recomputes (R192 to R209).
A pool slot holds 256 key rows, then 256 value rows; a source slot holds 256 token rows (log entry 39). -/

namespace Sys2Proof.Machine

/-- The block's own state changed. -/
def State.setAt_ (s : State) (f : AtState → AtState) : State := { s with at_ := f s.at_ }

/-! ### Bins and pages (R198, R199, R202) -/

/-- S. -/
def State.atS (s : State) : Nat := s.get F.AT_RING
/-- HL. -/
def State.atHL (s : State) : Nat := s.get F.AT_STATUS_HL
/-- DH. -/
def State.atDH (s : State) : Nat := s.get F.AT_DIM_DH
/-- DMODEL. -/
def State.atDM (s : State) : Nat := s.get F.AT_DIM_DMODEL

/-- The bin of a corridor key (R198). -/
def State.binOf (s : State) (key : Int) : Int := key / ((s.get F.AT_SPAN * 256 : Nat) : Int)

/-- b mod S. -/
def State.binSlot (s : State) (b : Int) : Nat := (b % (s.atS : Int)).toNat

/-- A page-table entry (R199). -/
structure Page where
  bin : Int
  st : Nat
  busy : Bool
  slot : Nat
  writer : Nat
  recs : Nat
  deriving DecidableEq, Repr

/-- The address of entry e. -/
def State.pageAddr (s : State) (e : Nat) : Nat := s.get64 F.AT_PT_BASE_LO F.AT_PT_BASE_HI + 16 * e

/-- Entry e. -/
def State.page (s : State) (e : Nat) : Page :=
  let b := s.dramRead (s.pageAddr e) 16
  { bin := signedOf 40 (fieldB b 0 5), st := bitsOf (fieldB b 5 1) 0 2, busy := bitOf (fieldB b 5 1) 2,
    slot := fieldB b 6 2, writer := fieldB b 8 4, recs := fieldB b 12 2 }

/-- AT_RESIDENT counts the Resident pages. -/
def State.refreshResident (s : State) : State :=
  s.set F.AT_RESIDENT ((List.range (s.atHL * s.atS)).filter (fun e => (s.page e).st == 1)).length

/-- Entry e written. -/
def State.putPage (s : State) (e : Nat) (p : Page) : State :=
  (s.dramWrite (s.pageAddr e) (leBytes 5 (patternOf 40 p.bin) ++ [BitVec.ofNat 8 (p.st + 4 * b2n p.busy)] ++
    leBytes 2 p.slot ++ leBytes 4 p.writer ++ leBytes 2 p.recs ++ zerosB 2)).refreshResident

/-- The entry of local head h and bin b. -/
def State.entryOf (s : State) (h : Nat) (b : Int) : Nat := h * s.atS + s.binSlot b

/-- The entry holds a valid page of bin b (R204). -/
def Page.valid (p : Page) (b : Int) : Bool := (p.st == 1 || p.st == 2) && p.bin == b

/-- The read set of a segment in bin b, ascending (R204). -/
def State.readSet (s : State) (b : Int) : List Int :=
  let nb := s.get F.AT_CFG_NB
  ((List.range (2 * nb + 1)).map (fun (i : Nat) => b - nb + i)).filter (fun x => x != b)

/-- Entry e is protected by the read in progress (R202, R204). -/
def State.protectedPage (s : State) (e : Nat) : Bool :=
  match s.at_.reading with
  | some r => (match r.bin with
    | some b => (s.readSet b).any (fun x => (List.range s.atHL).any (fun h => s.entryOf h x == e && (s.page e).valid x))
    | none => false)
  | none => false

/-- The victim of the drop rule for the bin b_cur; none when no Resident page is free to go (R202). -/
def State.victim (s : State) (bcur : Int) : Option Nat :=
  let dir : Int := if s.flag F.AT_CUR_BIN_HI_DIR then -1 else 1
  let cand := (List.range (s.atHL * s.atS)).filter (fun e => (s.page e).st == 1 && !s.protectedPage e)
  let delta := fun e => (bcur - (s.page e).bin) * dir
  let behind := cand.filter (fun e => decide (0 < delta e))
  let best := fun (better : Nat → Nat → Bool) (l : List Nat) => l.foldl (fun a e => match a with
    | none => some e
    | some x => if better e x then some e else some x) none
  if behind.isEmpty then best (fun e x => decide (delta e < delta x) || (delta e == delta x && decide (e / s.atS < x / s.atS))) cand
  else best (fun e x => decide (delta x < delta e) || (delta e == delta x && decide (e / s.atS < x / s.atS))) behind

/-- A pool slot: the lowest free one, else the victim's (R202). -/
def State.takeSlot (s : State) (bcur : Int) : State × Option Nat :=
  let used := ((List.range (s.atHL * s.atS)).map s.page).filterMap (fun p => if p.st == 1 then some p.slot else none)
  match (List.range (s.get F.AT_KV_PAGES)).find? (fun i => !used.contains i) with
  | some i => (s, some i)
  | none =>
    match s.victim bcur with
    | none => (s, none)
    | some e =>
      let p := s.page e
      ((s.putPage e { p with st := 2, slot := 0xFFFF }).incWrap F.AT_DROPS, some p.slot)

/-! ### Projections (R201, R207) -/

/-- The stored source tokens of a bin: 256 rows of DMODEL values. -/
def State.sourceRows (s : State) (src : Desc) (b : Int) : List (List Fl) :=
  let rb := ElemType.mxfp4.rowBytes s.atDM
  (List.range 256).map (fun i =>
    (unpackRow .mxfp4 s.atDM (s.dramRead (src.base + (s.binSlot b * 256 + i) * rb) rb)).map (El.val .mxfp4 0))

/-- Columns of head h of a projection weight: DMODEL rows of DH values. -/
def State.weightCols (s : State) (w : Desc) (h : Nat) : List (List Fl) :=
  (List.range s.atDM).map (fun k => (List.range s.atDH).map (fun j => s.valAt w [h * s.atDH + j, k]))

/-- A row of X·W (R152). -/
def projectRow (x : List Fl) (w : List (List Fl)) (dh : Nat) : List Fl :=
  (List.range dh).map (fun j => (accumulate false ⟨.fin false 0 0, 0⟩ (x.zip (w.map (fun r => r.getD j .nan)))).v)

/-- 256 projected rows written into half `half` of a pool slot, converted to the pool's type. -/
def State.putRows (s : State) (kv : Desc) (slot half tile : Nat) (rows : List (List Fl)) : State :=
  let t := kv.elem
  let rb := t.rowBytes s.atDH
  (List.range rows.length).foldl (fun s i =>
    let e := encodeRow t (s.flag F.TL_NUM_CFG) kv.qfrac (rows.getD i [])
    let s := (s.addSat (F.TL_CONV_SAT tile) e.sats).countNans e.nans
    s.dramStore (kv.base + ((slot * 2 + half) * 256 + i) * rb) (packRow t e.els)) s

/-- The granules of `n` packed rows from an address on are checked (R178). -/
def State.checkRows (s : State) (t : ElemType) (width a n : Nat) : State :=
  s.countBad ((List.range n).flatMap (fun i => t.rowGranules width (a + i * t.rowBytes width)))

/-- K and V of head h and bin b projected from the stored source into a pool slot. -/
def State.projectPage (s : State) (src kv wk wv : Desc) (tile h slot : Nat) (b : Int) : State :=
  let s := s.checkRows .mxfp4 s.atDM (src.base + s.binSlot b * 256 * ElemType.mxfp4.rowBytes s.atDM) 256
  let x := s.sourceRows src b
  let k := x.map (fun r => projectRow r (s.weightCols wk h) s.atDH)
  let v := x.map (fun r => projectRow r (s.weightCols wv h) s.atDH)
  (s.putRows kv slot 0 tile k).putRows kv slot 1 tile v

/-- The rows of a pool slot's half. -/
def State.poolRows (s : State) (kv : Desc) (slot half : Nat) : List (List Fl) :=
  let t := kv.elem
  let rb := t.rowBytes s.atDH
  (List.range 256).map (fun i => (unpackRow t s.atDH (s.dramRead (kv.base + ((slot * 2 + half) * 256 + i) * rb) rb)).map (El.val t kv.qfrac))

/-- The projection weights fit (R192): types and shapes. -/
def State.weightFault (s : State) (w : Desc) : Option Nat :=
  if !(w.elem == .mxfp4 || w.elem == .mxe3m2 || w.elem == .mxe2m3) then some 0x06
  else if decide (2 < w.rank) || w.size 0 != s.atHL * s.atDH || w.range 1 != s.atDM then some 0x04 else none

/-- The grid-feature tokens of a corridor write fit (R192): type and shape. -/
def State.tokenFault (s : State) (d : Desc) : Option Nat :=
  if !(d.elem == .fp32 || d.elem == .bf16) then some 0x06
  else if decide (2 < d.rank) || d.size 0 != s.atDM || d.range 1 != 256 then some 0x04 else none

/-! ### Corridor writes (R198, R201, R203) -/

/-- List n has a corridor write from command c on, or a list that its completion triggers has one; at most `f` links are followed. -/
def State.willWrite (s : State) (n c : Nat) : Nat → Bool
  | 0 => false
  | f + 1 =>
    (List.range ((s.listHdr n).count - c)).any (fun j => isWrite (s.listCmd n (c + j))) ||
    s.lists.any (fun m => (s.listHdr m).kind == 5 && (s.listHdr m).trigRef == n && s.willWrite m 0 f)

/-- A corridor write of a result before j is still to come from another list: corridor writes run in sequence order (R198). -/
def State.writesAhead (s : State) (list j : Nat) : Bool :=
  let before := fun (n : Nat) (bound : List (Nat × Nat)) => n != list && bound.getLast?.any (fun b => decide (b.2 < j))
  s.cl.insts.any (fun i => before i.list i.bound && (s.willWrite i.run i.cmd 1 || s.willWrite i.list (s.listHdr i.list).count 64)) ||
  s.cl.occs.any (fun o => before o.list o.bound && s.willWrite o.list 0 64)

/-- The corridor write of result j may begin (R203); a mirror makes no reads, so it waits for none (R210). -/
def State.writeMay (s : State) (j : Nat) : Bool := s.flag F.AT_STATUS_MIRROR || decide (j + s.get F.AT_CFG_LAG ≤ s.at_.readTo)

/-- The corridor read of result k may begin (R203). -/
def State.readMay (s : State) (k : Nat) : Bool := decide (k < s.get F.AT_CFG_LAG + s.at_.written)

/-- AT_CUR_BIN as a signed bin. -/
def State.curBin (s : State) : Int := signedOf 40 (s.get F.AT_CUR_BIN_LO + 2 ^ 32 * s.get F.AT_CUR_BIN_HI_BIN)

/-- AT_CUR_BIN given a bin. -/
def State.setCurBin (s : State) (b : Int) : State :=
  (s.set F.AT_CUR_BIN_LO (patternOf 40 b)).set F.AT_CUR_BIN_HI_BIN (patternOf 40 b / 2 ^ 32)

/-- Direction and AT_CUR_BIN after a mode-1 ATTEND in bin b (R198). -/
def State.travel (s : State) (b : Int) : State :=
  if s.at_.fresh then (s.setCurBin b).setAt_ (fun a => { a with fresh := false })
  else if b == s.curBin then s
  else (s.setFlag F.AT_CUR_BIN_HI_DIR (decide (b < s.curBin))).setCurBin b

/-- Entries of slot b mod S left Invalid for all local heads; a bin evicted counts (R200, R201). -/
def State.evictSlot (s : State) (b : Int) : State :=
  let held := (List.range s.atHL).filter (fun h => let p := s.page (s.entryOf h b); (p.st == 1 || p.st == 2) && p.bin != b)
  let s := if held.isEmpty then s else s.incSat F.AT_EVICT_SRC
  (List.range s.atHL).foldl (fun s h =>
    let p := s.page (s.entryOf h b)
    if p.st == 3 then s else s.putPage (s.entryOf h b) { p with st := 0, busy := false, slot := 0xFFFF }) s

/-- The 256 tokens of a result stored as MXFP4 in the source ring (R156, R177, R201 step 2). -/
def State.storeSource (s : State) (tok src : Desc) (tile : Nat) (b : Int) : State :=
  let rb := ElemType.mxfp4.rowBytes s.atDM
  (List.range 256).foldl (fun s i =>
    let e := encodeRow .mxfp4 (s.flag F.TL_NUM_CFG) 0 ((List.range s.atDM).map (fun c => s.valAt tok [c, i]))
    ((s.addSat (F.TL_CONV_SAT tile) e.sats).countNans e.nans).dramStore (src.base + (s.binSlot b * 256 + i) * rb) (packRow .mxfp4 e.els)) s

/-- The pages of bin b written for every local head (R201 step 3). -/
def State.writePages (s : State) (src kv wk wv : Desc) (tile k : Nat) (b : Int) : State :=
  (List.range s.atHL).foldl (fun s h =>
    match s.takeSlot b with
    | (s, none) => s
    | (s, some slot) =>
      (s.projectPage src kv wk wv tile h slot b).putPage (s.entryOf h b) ⟨b, 1, false, slot, k % 2 ^ 32, 0⟩) s

/-- ATTEND in mode 1: the corridor write of the instance's last bound result (R201). -/
def State.corridorWrite (s : State) (i : Inst) (record : Bytes) : State × CmdEnd :=
  s.withDesc i (fieldB record 28 2) fun s tok => s.withDesc i (s.get F.AT_SRC_DESC) fun s src => s.withDesc i (s.get F.AT_KV_DESC) fun s kv =>
  s.withDesc i (fieldB record 30 2) fun s wk => s.withDesc i (fieldB record 32 2) fun s wv =>
    match s.tokenFault tok <|> s.weightFault wk <|> s.weightFault wv with
      | some e => (s, .error e)
      | none =>
        match i.bound.getLast? with
        | none => (s, .done)
        | some rk => match s.result? rk.1 rk.2 with
          | none => (s, .done)
          | some r =>
            if s.writesAhead i.list r.k then (s, .wait .corridorOrder)
            else if !s.writeMay r.k then (s.setAt_ (fun a => { a with waits := assocPut i.list s.now a.waits }), .wait .corridorOrder)
            else
              let b := s.binOf r.key
              let s := if (s.page (s.entryOf 0 b)).valid b then s.incSat F.AT_WRITE_SKIP
                else (((s.checkTensor wk).checkTensor wv).evictSlot b |>.storeSource tok src (fieldB record 9 1) b).writePages src kv wk wv (fieldB record 9 1) r.k b
              let s := (s.travel b).set F.AT_WRITTEN_SEQ r.k
              (s.setAt_ (fun a => { a with written := max a.written (r.k + 1) }), .done)

/-- A corridor write interrupted by recovery: the entries of its bin are left Invalid (R200). -/
def State.spoilWrite (s : State) (i : Inst) : State :=
  match i.bound.getLast? with
  | none => s
  | some rk => match s.result? rk.1 rk.2 with
    | none => s
    | some r =>
      let b := s.binOf r.key
      if (s.page (s.entryOf 0 b)).valid b then s else s.evictSlot b

/-! ### Recompute (R205, R207) -/

/-- The bin of the segment the miss block names: the read in progress, else its result's (R202). -/
def State.missBin (s : State) (md : Desc) : Int :=
  match s.at_.reading with
  | some ⟨_, _, some b⟩ => b
  | _ =>
    match s.fu.results.find? (fun r => r.rs == s.dramNat (md.base + 8) 1 && r.k % 2 ^ 32 == s.dramNat (md.base + 4) 4) with
    | some r => s.binOf r.key
    | none => s.curBin

/-- One listed page recomputed (R200, R207). -/
def State.recomputePage (s : State) (src kv wk wv : Desc) (tile : Nat) (bcur : Int) (e : Nat) : State :=
  let p := s.page e
  if p.st != 2 then s
  else match s.takeSlot bcur with
    | (s, none) => s
    | (s, some slot) =>
      let s := s.projectPage src kv wk wv tile (e / s.atS) slot p.bin
      (s.putPage e { p with st := 1, busy := false, slot := slot, recs := satNat 16 (p.recs + 1) }).incWrap F.AT_RECOMPUTED

/-- ATTEND in mode 2 (R205, R207). -/
def State.corridorRecompute (s : State) (i : Inst) (record : Bytes) : State × CmdEnd :=
  s.withDesc i (s.get F.AT_SRC_DESC) fun s src => s.withDesc i (s.get F.AT_KV_DESC) fun s kv => s.withDesc i (s.get F.AT_MISS_DESC) fun s md =>
  s.withDesc i (fieldB record 30 2) fun s wk => s.withDesc i (fieldB record 32 2) fun s wv =>
    match s.weightFault wk <|> s.weightFault wv with
    | some e => (s, .error e)
    | none =>
      let s := (s.checkTensor wk).checkTensor wv
      let b := s.missBin md
      let es := (List.range (s.dramNat md.base 2)).map (fun j => s.dramNat (md.base + 16 + 4 * j) 2)
      (es.foldl (fun s e => s.recomputePage src kv wk wv (fieldB record 9 1) b e) s, .done)

/-! ### The recurrence (R193 to R197) -/

/-- A key as a query meets it: its segment, key and value vectors of one head. -/
structure Key where
  seg : Nat
  k : List Fl
  v : List Fl
  deriving DecidableEq, Repr

/-- The state of the recurrence (R194). -/
structure Soft where
  m : Fl
  l : Fl
  o : List Fl
  deriving DecidableEq, Repr

/-- One key of a query's own segment (R194). -/
def softStep (q : List Fl) (scale : Fl) (st : Option Soft) (key : Key) : Option Soft :=
  let dot := (accumulate false ⟨.fin false 0 0, 0⟩ (q.zip key.k)).v
  let x := round32 (dot.mul scale)
  match st with
  | none => some ⟨x, .fin false 1 0, key.v⟩
  | some st =>
    let m' := st.m.max x
    let a := fp32 (vecExpWord (toFp32 (st.m.add m'.negate)))
    let p := fp32 (vecExpWord (toFp32 (x.add m'.negate)))
    some ⟨m', round32 ((st.l.mul a).add p), (st.o.zip key.v).map (fun ov => round32 ((p.mul ov.2).add (round32 (ov.1.mul a))))⟩

/-- A query row of one head over its key sequence; none when it passes no key (R194). -/
def attendRow (seg : Nat) (q : List Fl) (scale : Fl) (keys : List Key) : Option (List Fl) :=
  if seg == 0xFFFF then none
  else ((keys.filter (fun k => k.seg == seg)).foldl (softStep q scale) none).map (fun st =>
    let r := fp32 (vecRecipWord (toFp32 st.l))
    st.o.map (fun x => round32 (x.mul r)))

/-- The descriptors of an attend-mode ATTEND (R192); no local keys when K and V are none. -/
structure AttendCmd where
  q : Desc
  kv : Option (Desc × Desc × Desc)
  qseg : Desc
  out : Desc
  scale : Fl
  corr : Bool
  nres : Nat
  tile : Nat
  deriving DecidableEq, Repr

/-- The types Q, K and V may have (R192). -/
def attendType (t : ElemType) : Bool :=
  match t with
  | .bf16 => true
  | .fp16 => true
  | .e4m3 => true
  | .e5m2 => true
  | .mxe4m3 => true
  | .mxe5m2 => true
  | _ => false

/-- Two operands, where both are given, agree. -/
def agree (x y : Option Desc) (p : Desc → Desc → Bool) : Bool :=
  match x, y with
  | some a, some b => p a b
  | _, _ => true

/-- What is wrong with the operands of an attend-mode ATTEND, among those given (R192): Q, K and V of types that R151 lets meet, segments Q32, the output FP32 or BF16; then the shapes. -/
def State.attendFaultOf (s : State) (q k v qseg kseg out : Option Desc) : Option Nat :=
  let w := s.atHL * s.atDH
  let qkv := [q, k, v].filterMap id
  let goodType := qkv.all (fun a => attendType a.elem && qkv.all (fun b => matmulTypes a.elem b.elem)) &&
    ([qseg, kseg].filterMap id).all (fun d => d.elem == .q32 && d.qfrac == 0) && out.all (fun d => d.elem == .fp32 || d.elem == .bf16)
  let goodShape := ([q, k, v, out].filterMap id).all (fun d => decide (d.rank ≤ 2) && d.size 0 == w) &&
    agree q out (fun a b => a.range 1 == b.range 1) && agree k v (fun a b => a.range 1 == b.range 1) &&
    agree q qseg (fun a b => decide (a.range 1 ≤ b.size 0)) && agree k kseg (fun a b => decide (a.range 1 ≤ b.size 0))
  if !goodType then some 0x06 else if !goodShape then some 0x04 else none

/-- What is wrong with the operands (R192). -/
def State.attendFault (s : State) (x : AttendCmd) : Option Nat :=
  s.attendFaultOf (some x.q) (x.kv.map (fun y => y.1)) (x.kv.map (fun y => y.2.1)) (some x.qseg) (x.kv.map (fun y => y.2.2)) (some x.out)

/-- The segment of token i (R196). -/
def State.segAt (s : State) (d : Desc) (i : Nat) : Nat := (s.elAt d [i]).code % 65536

/-- Where the first `n` elements of a segment tensor lie. -/
def segPlaces (d : Desc) (n : Nat) : List Nat := (List.range n).map (fun i => d.rowAddr [i] + 4 * i)

/-- Segment elements with bits [31:16] set among the places given, each counted once (R196). -/
def State.segBad (s : State) (places : List Nat) : Nat := ((dedup places).filter (fun a => decide (65536 ≤ s.dramNat a 4))).length

/-- The local keys of head h, in ascending token index (R193). -/
def State.localKeys (s : State) (x : AttendCmd) (h : Nat) : List Key :=
  match x.kv with
  | none => []
  | some (k, v, ks) =>
    (List.range (k.range 1)).map (fun j =>
      ⟨s.segAt ks j, (List.range s.atDH).map (fun d => s.valAt k [h * s.atDH + d, j]),
       (List.range s.atDH).map (fun d => s.valAt v [h * s.atDH + d, j])⟩)

/-- The corridor keys of a segment in bin b for head h: ascending bin, then token (R193, R204). -/
def State.corridorKeys (s : State) (kv : Desc) (seg h : Nat) (b : Int) : List Key :=
  (s.readSet b).flatMap (fun x =>
    let p := s.page (s.entryOf h x)
    if p.valid x then
      ((s.poolRows kv p.slot 0).zip (s.poolRows kv p.slot 1)).map (fun kv' => ⟨seg, kv'.1, kv'.2⟩)
    else [])

/-- The rows of the queries for which `want` holds, of every head, written to the output (R194, R195); `corr` gives the corridor keys of a head. -/
def State.attendRows (s : State) (x : AttendCmd) (want : Nat → Bool) (corr : Nat → List Key) : State :=
  (List.range s.atHL).foldl (fun s h =>
    let keys := corr h ++ s.localKeys x h
    (List.range (x.q.range 1)).foldl (fun s i =>
      let seg := s.segAt x.qseg i
      if !want seg then s
      else
        let q := (List.range s.atDH).map (fun d => s.valAt x.q [h * s.atDH + d, i])
        let row := attendRow seg q x.scale keys
        let vals := row.getD (List.replicate s.atDH (.fin false 0 0))
        let e := encodeRow x.out.elem (s.flag F.TL_NUM_CFG) 0 vals
        let s := s.addSat (F.TL_CONV_SAT x.tile) e.sats
        let s := if row.isNone then s.incSat F.AT_EMPTY_ROWS else s
        let s := if vals.any Fl.isNan then s.incSat F.AT_NAN_ROWS else s
        s.runPut x.out (h * s.atDH) [i] e.els) s) s

/-! ### Corridor reads (R203 to R205) -/

/-- The entries of a segment's read set, in ascending bin, then head (R204). -/
def State.readEntries (s : State) (b : Int) : List (Int × Nat) :=
  (s.readSet b).flatMap (fun x => (List.range s.atHL).map (fun h => (x, s.entryOf h x)))

/-- The miss block and its signal: entries marked BUSY, listed, the miss fence raised (R205). -/
def State.reportMisses (s : State) (md : Desc) (seg : Nat) (r : Nat × Nat) (es : List Nat) : State :=
  let s := es.foldl (fun s e => s.putPage e { s.page e with busy := true }) s
  let block := leBytes 2 es.length ++ leBytes 2 seg ++ leBytes 4 r.2 ++ [BitVec.ofNat 8 r.1] ++ zerosB 7 ++
    (sortByKey (fun e => e) es).flatMap (fun e => leBytes 4 e)
  let s := (s.dramWrite md.base block).set F.AT_MISSES (s.get F.AT_MISSES + es.length)
  s.fenceAdd (s.get F.AT_FENCE_MISS) 1

/-- One segment of a corridor read: a wait, or its rows computed (R203 to R205). -/
def State.readSegment (s : State) (i : Inst) (x : AttendCmd) (kv md : Desc) (seg : Nat) (rk : Nat × Nat) (b : Int) : State × Option WaitCause :=
  if !s.readMay rk.2 then (s.setAt_ (fun a => { a with waits := assocPut i.list s.now a.waits }), some .corridorOrder)
  else
    let s := s.setAt_ (fun a => { a with reading := some ⟨i.list, seg, some b⟩ })
    let es := (s.readEntries b).filter (fun e => (s.page e.2).valid e.1 && (s.page e.2).st == 2)
    let new := (es.filter (fun e => !(s.page e.2).busy)).map (fun e => e.2)
    let shared := es.filter (fun e => (s.page e.2).busy)
    if es.isEmpty then
      let s := s.addSat F.AT_INVALID_READS ((s.readEntries b).filter (fun e => !(s.page e.2).valid e.1)).length
      let s := ((s.readEntries b).filter (fun e => (s.page e.2).valid e.1)).foldl (fun s e => s.checkRows kv.elem s.atDH (kv.base + (s.page e.2).slot * 512 * kv.elem.rowBytes s.atDH) 512) s
      (s.attendRows x (fun g => g == seg) (fun h => s.corridorKeys kv seg h b), none)
    else
      let s := s.addSat F.AT_MISS_SHARED shared.length
      let s := if new.isEmpty then s else s.reportMisses md seg rk new
      (s, some (.corridorMiss (s.fence (s.get F.AT_FENCE_MISS))))

/-- The read of a segment is over: its result counts among those read, the next segment comes (R203, R204). -/
def State.endSegment (s : State) (i : Inst) (seg k : Nat) : State :=
  s.setAt_ (fun a => { a with reading := some ⟨i.list, seg + 1, none⟩, readTo := max a.readTo (k + 1) })

/-- Segments from `seg` on, `n` of them at most; a wait ends the run. -/
def State.readSegments (s : State) (i : Inst) (x : AttendCmd) (kv md : Desc) (seg : Nat) : Nat → State × Option WaitCause
  | 0 => (s, none)
  | n + 1 =>
    match i.bound[seg]? with
    | none => (s, none)
    | some rk => match s.result? rk.1 rk.2 with
      | none => ((s.attendRows x (fun g => g == seg) (fun _ => [])).endSegment i seg rk.2).readSegments i x kv md (seg + 1) n
      | some r =>
        match s.readSegment i x kv md seg rk (s.binOf r.key) with
        | (s, some w) => (s, some w)
        | (s, none) => (s.endSegment i seg rk.2).readSegments i x kv md (seg + 1) n

/-- The corridor read in progress is over (R204). -/
def State.endRead (s : State) : State := (s.setAt_ (fun a => { a with reading := none })).setFlag F.AT_STATUS_READING false

/-- The operands of an attend-mode record, its descriptors read (R180, R192). -/
def State.attendOperands (s : State) (i : Inst) (record : Bytes) (f : State → AttendCmd → State × CmdEnd) : State × CmdEnd :=
  s.withDesc i (fieldB record 12 2) fun s q => s.withDesc i (fieldB record 18 2) fun s qseg => s.withDesc i (fieldB record 22 2) fun s out =>
    let x : AttendCmd := ⟨q, none, qseg, out, fp32 (fieldB record 24 4), bitOf (fieldB record 8 1) 2, bitsOf (fieldB record 8 1) 4 4 + 1, fieldB record 9 1⟩
    if fieldB record 14 2 == 0 && fieldB record 16 2 == 0 then f s x
    else s.withDesc i (fieldB record 14 2) fun s k => s.withDesc i (fieldB record 16 2) fun s v => s.withDesc i (fieldB record 20 2) fun s ks =>
      f s { x with kv := some (k, v, ks) }

/-- The granules of Q, K and V are checked (R178). -/
def State.checkOperands (s : State) (x : AttendCmd) : State :=
  match x.kv with
  | some (k, v, _) => ((s.checkTensor x.q).checkTensor k).checkTensor v
  | none => s.checkTensor x.q

/-- ATTEND in mode 0 (R192 to R197, R203 to R205). A mirror runs no corridor read (R210). -/
def State.attendMode0 (s : State) (i : Inst) (record : Bytes) : State × CmdEnd :=
  s.attendOperands i record fun s x =>
    match s.attendFault x with
    | some e => (s, .error e)
    | none =>
      let bad := s.segBad (segPlaces x.qseg (x.q.range 1) ++ (match x.kv with
        | some (k, _, ks) => segPlaces ks (k.range 1)
        | none => []))
      if !x.corr then (((s.checkOperands x).addSat F.AT_SEG_BAD bad).attendRows x (fun _ => true) (fun _ => []), .done)
      else if s.flag F.AT_STATUS_MIRROR then (s, .done)
      else s.withDesc i (s.get F.AT_KV_DESC) fun s kv => s.withDesc i (s.get F.AT_MISS_DESC) fun s md =>
        let begun := match s.at_.reading with
          | some r => r.list == i.list
          | none => false
        if s.at_.reading.isSome && !begun then
          (s, .wait .corridorOrder)
        else
          let seg0 := match s.at_.reading with
            | some r => r.seg
            | none => 0
          let s := if begun then s
            else (((s.checkOperands x).addSat F.AT_SEG_BAD bad).setAt_ (fun a => { a with reading := some ⟨i.list, 0, none⟩ })).setFlag F.AT_STATUS_READING true
          match s.readSegments i x kv md seg0 (x.nres - seg0) with
          | (s, some w) => (s, .wait w)
          | (s, none) =>
            let s := s.attendRows x (fun g => !decide (g < min x.nres i.bound.length)) (fun _ => [])
            (s.endRead, .done)

/-- ATTEND (R192). -/
def State.attendBody (s : State) (i : Inst) (record : Bytes) : State × CmdEnd :=
  match bitsOf (fieldB record 8 1) 0 2 with
  | 0 => s.attendMode0 i record
  | 1 => s.corridorWrite i record
  | 2 => s.corridorRecompute i record
  | _ => (s, .error 0x06)

/-! ### Recovery (R200) -/

/-- The instance of a list is removed: its corridor read ends. -/
def State.dropRead (s : State) (list : Nat) : State :=
  let s := s.setAt_ (fun a => { a with waits := assocDrop list a.waits })
  match s.at_.reading with
  | some r => if r.list == list then (s.setAt_ (fun a => { a with reading := none })).setFlag F.AT_STATUS_READING false else s
  | none => s

/-- Recovery touches the corridor's context: BUSY is cleared on every Dropped page (R200). -/
def State.clearBusy (s : State) (ctx : Nat) : State :=
  if ctx == s.get F.AT_CFG_CTX then
    (List.range (s.atHL * s.atS)).foldl (fun s e => if (s.page e).busy then s.putPage e { s.page e with busy := false } else s) s
  else s

end Sys2Proof.Machine
end

