-- ==== Sys2Proof/Machine/RegionOps.lean ====
section
/-! DEFINITION. Ranges of device addresses and what they share: the mapped part of a view (R26, R150), overlap within a view and across views through R27, allocations, spill areas and system regions (R28, R160, R179). -/

namespace Sys2Proof.Machine

/-- A range of device addresses. -/
structure Region where
  base : Nat
  len : Nat
  deriving DecidableEq, Repr

/-- Where the striped view begins (R26). -/
def stripedBase : Nat := 0x1000000000

/-- The range lies in the striped view. -/
def Region.striped (r : Region) : Bool := decide (stripedBase ≤ r.base)

/-- The range lies in the mapped part of one view (R26, R150). -/
def State.mappedRegion (s : State) (r : Region) : Bool :=
  let n := s.tiles * 2 ^ 28
  if r.striped then decide (r.base + r.len ≤ stripedBase + n) else decide (r.base + r.len ≤ n)

/-- Two half-open intervals share a number. -/
def meets (a b c d : Nat) : Bool := decide (max a c < min b d)

/-- Page `p` of vault `v` of a local range and stripe `p·V + v` of a striped range share a byte (R27). -/
def pageMeets (v vaults p : Nat) (l t : Region) : Bool :=
  let lo := v * 2 ^ 28 + p * 4096
  let st := stripedBase + (p * vaults + v) * 4096
  meets (l.base - lo) (min (l.base + l.len - lo) 4096) (t.base - st) (min (t.base + t.len - st) 4096)

/-- A local range and a striped range share a cell in vault `v` (R27). Between the first and the last page that both reach, every page is whole in both. -/
def vaultMeets (vaults v : Nat) (l t : Region) : Bool :=
  let a := max l.base (v * 2 ^ 28) - v * 2 ^ 28
  let b := min (l.base + l.len) ((v + 1) * 2 ^ 28) - v * 2 ^ 28
  let q1 := (t.base - stripedBase) / 4096
  let q2 := (t.base + t.len - 1 - stripedBase) / 4096
  if a < b && decide (v ≤ q2) then
    let p1 := max (a / 4096) (cdiv (q1 - v) vaults)
    let p2 := min ((b - 1) / 4096) ((q2 - v) / vaults)
    decide (p1 ≤ p2) && (pageMeets v vaults p1 l t || (decide (p1 + 1 ≤ p2) && pageMeets v vaults (p1 + 1) l t) || pageMeets v vaults p2 l t)
  else false

/-- Two ranges share a DRAM cell. -/
def State.overlap (s : State) (x y : Region) : Bool :=
  if x.len == 0 || y.len == 0 then false
  else if x.striped == y.striped then meets x.base (x.base + x.len) y.base (y.base + y.len)
  else
    let l := if x.striped then y else x
    let t := if x.striped then x else y
    (List.range s.tiles).any (fun v => vaultMeets s.tiles v l t)

/-- Some two of a list's ranges share a cell. -/
def State.anyOverlap (s : State) : List Region → Bool
  | [] => false
  | x :: xs => xs.any (s.overlap x) || s.anyOverlap xs

/-- The valid allocations (R179). -/
def State.allocs (s : State) : List Alloc := ((List.range (s.get F.DS_ALLOC_COUNT)).map s.alloc).filter Alloc.valid

/-- An allocation's range. -/
def Alloc.region (a : Alloc) : Region := ⟨a.base, a.size⟩

/-- A range meets no valid allocation. -/
def State.clearOfAllocs (s : State) (r : Region) : Bool := s.allocs.all (fun a => !s.overlap r a.region)

/-- The spill area of logical tile ℓ (R160). -/
def State.spillRegion (s : State) (l : Nat) : Region := ⟨l * 2 ^ 28 + s.get (F.TL_T_SPILL_OFS l) * 65536, s.get (F.TL_T_SPILL_SIZE l) * 65536⟩

/-- The descriptor table (R180), the allocation table (R179), the list table (R250), the list-state table (R265), the crash region (R320). -/
def State.descRegion (s : State) : Region := ⟨s.get64 F.DS_TBL_BASE_LO F.DS_TBL_BASE_HI, 64 * s.get F.DS_TBL_SLOTS⟩
def State.allocRegion (s : State) : Region := ⟨s.get64 F.DS_ALLOC_BASE_LO F.DS_ALLOC_BASE_HI, 16 * s.get F.DS_ALLOC_COUNT⟩
def State.listRegion (s : State) : Region := ⟨s.get64 F.CL_LIST_BASE_LO F.CL_LIST_BASE_HI, 64 * s.get F.CL_LIST_COUNT⟩
def State.listStateRegion (s : State) : Region := ⟨s.get64 F.CL_STATE_BASE_LO F.CL_STATE_BASE_HI, 16 * s.get F.CL_LIST_COUNT⟩
def State.crashRegion (s : State) : Region := ⟨s.get F.RC_CRASH_BASE_HI * 2 ^ 32 + s.get F.RC_CRASH_BASE * 2 ^ 20, 2 ^ 26⟩

/-- The parts of the job. -/
def State.jobSize (s : State) : Nat := s.get F.LK_JOB_CFG_SIZE + 1

/-- The active ranks: all but the standby. -/
def State.activeRanks (s : State) : List Nat := List.range (s.jobSize - b2n (s.flag F.LK_JOB_CFG_STANDBY_EN))

/-- The first head and the heads of an active rank (R209). -/
def State.headsOf (s : State) (r : Nat) : Nat × Nat :=
  let h := s.get F.AT_CFG_HEADS
  let n := s.activeRanks.length
  (r * h / n, (r + 1) * h / n - r * h / n)

/-- Heads held on this part: those of its active rank; the standby holds every head (R209, R210, R393). -/
def State.headRange (s : State) : Nat × Nat :=
  let r := s.get F.LK_JOB_CFG_RANK
  if s.flag F.LK_JOB_CFG_STANDBY_EN && r + 1 == s.jobSize then (0, s.get F.AT_CFG_HEADS) else s.headsOf r

/-- The page table (R199). -/
def State.pageRegion (s : State) : Region := ⟨s.get64 F.AT_PT_BASE_LO F.AT_PT_BASE_HI, 16 * s.headRange.2 * s.get F.AT_RING⟩

/-- The calibration state region (R222); empty in fixed mode. -/
def State.cbRegion (s : State) : Region :=
  ⟨s.get64 F.CB_STATE_BASE_LO F.CB_STATE_BASE_HI, if s.get F.CB_CFG_MODE == 0 then 0 else 4096⟩

/-- The system regions of R28. -/
def State.systemRegions (s : State) : List Region :=
  [s.descRegion, s.allocRegion, s.listRegion, s.listStateRegion, s.pageRegion, s.cbRegion, s.crashRegion]

/-- A system region is inside its view and meets neither an allocation nor another system region (R28). -/
def State.regionOk (s : State) (r : Region) (others : List Region) : Bool :=
  s.mappedRegion r && s.clearOfAllocs r && others.all (fun o => !s.overlap r o)

/-- Every element of a list but that at position i. -/
def butAt {α : Type} (xs : List α) (i : Nat) : List α := xs.take i ++ xs.drop (i + 1)

end Sys2Proof.Machine
end

