-- ==== Sys2Proof/Machine/Kernels.lean ====
section
/-! DEFINITION. Tarragon's arithmetic and kernels: body tables, Q formats with their saturations, the passes and the factorisation in their fixed orders (R227 to R231). What the manual gives no formula for is an open value of what the tick has computed (log entry 40). -/

namespace Sys2Proof.Machine

/-! ### Body tables (R227, R228) -/

/-- Byte `k` of body `b` of a structure (R227). -/
def State.bodyField (s : State) (p st b k : Nat) : Nat := (Config.bodyByte s.sv.image p st (80 * b + k)).toNat

/-- The bodies of a structure. -/
def State.bodies (s : State) (p st : Nat) : Nat := if st == 0 then s.get (F.SV_P_SHAPE_NB0 p) else s.get (F.SV_P_SHAPE_NB1 p)

/-- The structures of a problem. -/
def State.structs (s : State) (p : Nat) : List Nat := if s.get (F.SV_P_SHAPE_NB1 p) == 0 then [0] else [0, 1]

/-- Degrees of freedom of a joint type (R227). -/
def jointDof (t : Nat) : Nat :=
  match t with
  | 1 => 1
  | 2 => 1
  | 3 => 3
  | 4 => 6
  | _ => 0

/-- The degrees of freedom that the joints of a structure take, by body. -/
def State.dofs (s : State) (p st : Nat) : List Nat :=
  (List.range (s.bodies p st)).flatMap (fun b => (List.range (jointDof (s.bodyField p st b 1 % 16))).map (fun i => s.bodyField p st b 2 + i))

/-- Degrees of freedom of a structure: those above its last one take no part and stay zero (R228). -/
def State.dofCount (s : State) (p st : Nat) : Nat := (s.dofs p st).length

/-- Rotation variables of a structure: one quaternion for each spherical or free joint (DESIGN CHOICE, log entry 40). -/
def State.rotationCount (s : State) (p st : Nat) : Nat := ((List.range (s.bodies p st)).filter (fun b => decide (3 ≤ s.bodyField p st b 1 % 16))).length

/-- The cold state: joint variables zero, every rotation the identity quaternion (R235). -/
def State.coldSol (s : State) (p st : Nat) : SvSol :=
  ⟨List.replicate (s.get (F.SV_P_SHAPE_DOF p)) 0, List.replicate (s.rotationCount p st) [0x40000000, 0, 0, 0], 0⟩

/-! ### Q arithmetic (R229) -/

/-- The quantities of the kernels, each a variable with one format. -/
inductive QRole where
  | residual
  | jacobian
  | normal
  | rhs
  | factor
  | pivot
  | solved
  | inward
  deriving DecidableEq, Repr

/-- A variable: its number in the counter table, and its fraction bits n of Qm.n. -/
structure QVar where
  num : Nat
  frac : Nat
  deriving DecidableEq, Repr

/-- The number of a quantity. -/
def QRole.num : QRole → Nat
  | .residual => 0
  | .jacobian => 1
  | .normal => 2
  | .rhs => 3
  | .factor => 4
  | .pivot => 5
  | .solved => 6
  | .inward => 7

/-- The variable of a quantity of problem p, in the format its Q-table byte gives in [4:0] (R229). -/
def State.qVar (s : State) (p : Nat) (r : QRole) : QVar :=
  let v := Config.qVariable s.sv.image p r.num % 1024
  ⟨v, Config.qFormat s.sv.image p v % 32⟩

/-- A 64-bit accumulator, and how often it saturated. -/
structure QAcc where
  value : Int
  sats : Nat
  deriving DecidableEq, Repr

/-- An exact product or term added, saturating at the signed 64-bit limits. -/
def QAcc.add (a : QAcc) (x : Int) : QAcc :=
  let y := a.value + x
  ⟨satSigned 64 y, a.sats + b2n (satSigned 64 y != y)⟩

/-- Exact products added in order. -/
def QAcc.dot (a : QAcc) (ts : List (Int × Int)) : QAcc := ts.foldl (fun a t => a.add (t.1 * t.2)) a

/-- A shift right by k bits, to nearest, ties to even. -/
def rneSigned (x : Int) (k : Nat) : Int := if x < 0 then -(rneShift x.natAbs k : Int) else (rneShift x.natAbs k : Int)

/-- A value of `n` fraction bits in `m` fraction bits. -/
def qAlign (x : Int) (n m : Nat) : Int := if m ≤ n then rneSigned x (n - m) else x * 2 ^ (m - n)

/-- A result stored: shifted from `n` fraction bits to its variable's format and saturated to 32 bits; its variable once for every saturation. -/
def QAcc.store (a : QAcc) (n : Nat) (v : QVar) : Int × List Nat :=
  let y := qAlign a.value n v.frac
  (satSigned 32 y, List.replicate (a.sats + b2n (satSigned 32 y != y)) v.num)

/-! ### Passes over the bodies (R230) -/

/-- An outward pass, bodies ascending: each body's value from its parent's. -/
def outward (n : Nat) (parent : Nat → Nat) (f : Nat → Nat → Nat) : List Nat :=
  (List.range n).foldl (fun acc b => acc ++ [f b (acc.getD (parent b) 0)]) []

/-- An inward pass, bodies descending: what a body hands on added to its parent's sum. -/
def inward (n : Nat) (parent : Nat → Nat) (v : QVar) (carry : Nat → List Int → Nat → Int) (terms : List (List Int)) : List (List Int) × List Nat :=
  ((List.range n).drop 1).reverse.foldl (fun acc b =>
    let up := acc.1.getD (parent b) []
    let r := (List.range up.length).map (fun i => ((⟨up.getD i 0, 0⟩ : QAcc).add (carry b (acc.1.getD b []) i)).store v.frac v)
    (setAt acc.1 (parent b) (r.map Prod.fst), acc.2 ++ r.flatMap Prod.snd)) (terms, [])

/-! ### Damped least squares and the factorisation (R230, R231) -/

/-- DLS: the lower triangle of JᵀJ + λ²I and Jᵀe, residual rows ascending. -/
def State.dls (s : State) (p m : Nat) (w : SvWork) : SvWork × List Nat :=
  let vj := s.qVar p .jacobian
  let ve := s.qVar p .residual
  let col := fun c => w.jac.map (fun r => r.getD c 0)
  let entry := fun c d =>
    (((⟨0, 0⟩ : QAcc).dot ((col c).zip (col d))).add (if c == d then Config.lambdaSq s.sv.image p else 0)).store (2 * vj.frac) (s.qVar p .normal)
  let a := (List.range m).map (fun c => (List.range (c + 1)).map (entry c))
  let b := (List.range m).map (fun c => ((⟨0, 0⟩ : QAcc).dot ((col c).zip w.err)).store (vj.frac + ve.frac) (s.qVar p .rhs))
  ({ w with normal := a.map (fun r => r.map Prod.fst), rhs := b.map Prod.fst }, (a.flatMap id ++ b).flatMap Prod.snd)

/-- A factorisation under way: rows of L and of L·D by column, pivots, saturations, pivots replaced. -/
structure Factor where
  l : List (List Int)
  ld : List (List Int)
  d : List Int
  sats : List Nat
  fixed : Nat
  deriving DecidableEq, Repr

/-- Column j: its pivot, replaced when below PIV_MIN, and the entries below it; sums by ascending column (R230). PIV_MIN is in the pivots' own format, and a division is a product with the reciprocal (DESIGN CHOICE, log entry 40). -/
def State.factorColumn (s : State) (p : Nat) (a : List (List Int)) (x : Factor) (j : Nat) : Factor :=
  let vn := s.qVar p .normal
  let vl := s.qVar p .factor
  let vd := s.qVar p .pivot
  let n := vl.frac + vd.frac
  let entry := fun i => ((⟨qAlign ((a.getD i []).getD j 0) vn.frac n, 0⟩ : QAcc).dot (((x.ld.getD i []).map (fun y => -y)).zip (x.l.getD j []))).store n vd
  let c := (List.range a.length).map (fun i => if j ≤ i then entry i else (0, []))
  let raw := (c.getD j (0, [])).1
  let low := signedOf 32 (s.get (F.SV_Q_PIV_MIN p))
  let d := if raw < low then low else raw
  let q := (List.range a.length).map (fun i =>
    if j < i then ((⟨0, 0⟩ : QAcc).add ((c.getD i (0, [])).1 * Config.qRecip vd.frac d)).store n vl else (if i == j then (2 ^ vl.frac, []) else (0, [])))
  { l := (List.range a.length).map (fun i => x.l.getD i [] ++ [(q.getD i (0, [])).1]),
    ld := (List.range a.length).map (fun i => x.ld.getD i [] ++ [if i == j then d else (c.getD i (0, [])).1]),
    d := x.d ++ [d],
    sats := x.sats ++ c.flatMap Prod.snd ++ q.flatMap Prod.snd,
    fixed := x.fixed + b2n (decide (raw < low)) }

/-- LDLᵀ in the pivot order 0 to m − 1, never reordered (R230). -/
def State.factorise (s : State) (p : Nat) (a : List (List Int)) : Factor :=
  (List.range a.length).foldl (s.factorColumn p a) ⟨[], [], [], [], 0⟩

/-- One unknown: its right-hand side less the known ones by their entries. -/
def qSubst (v vl : QVar) (b : Int) (nb : Nat) (known : List (Int × Int)) : Int × List Nat :=
  let n := vl.frac + v.frac
  ((⟨qAlign b nb n, 0⟩ : QAcc).dot (known.map (fun t => (-t.1, t.2)))).store n v

/-- L y = b forwards, D z = y, Lᵀ x = z backwards. -/
def State.solveFactor (s : State) (p : Nat) (f : Factor) (b : List Int) : List Int × List Nat :=
  let vl := s.qVar p .factor
  let vb := s.qVar p .rhs
  let vd := s.qVar p .pivot
  let v := s.qVar p .solved
  let m := f.d.length
  let y := (List.range m).foldl (fun (acc : List Int × List Nat) i =>
    let r := qSubst vb vl (b.getD i 0) vb.frac ((f.l.getD i []).zip acc.1)
    (acc.1 ++ [r.1], acc.2 ++ r.2)) ([], [])
  let z := (List.range m).map (fun i => ((⟨0, 0⟩ : QAcc).add (y.1.getD i 0 * Config.qRecip vd.frac (f.d.getD i 0))).store (vb.frac + vd.frac) v)
  let x := (List.range m).reverse.foldl (fun (acc : List Int × List Nat) i =>
    let below := (List.range (m - i - 1)).map (fun k => (f.l.getD (i + 1 + k) []).getD i 0)
    let r := qSubst v vl (z.getD i (0, [])).1 v.frac (below.zip acc.1)
    (r.1 :: acc.1, acc.2 ++ r.2)) ([], [])
  (x.1, y.2 ++ z.flatMap Prod.snd ++ x.2)

/-! ### Kernel steps (R231) -/

/-- A signed word as a number. -/
def intWord (x : Int) : Nat := (x % 2 ^ 32).toNat

/-- A list of words and its length. -/
def counted (xs : List Nat) : List Nat := xs.length :: xs

/-- A solution in numbers. -/
def SvSol.words (x : SvSol) : List Nat := counted (x.joints.map intWord) ++ counted (x.rotations.flatMap (fun q => q.map intWord)) ++ [x.other]

/-- A working buffer in numbers. -/
def SvWork.words (w : SvWork) : List Nat :=
  w.sol.words ++ counted w.poses ++ counted (w.jac.flatMap (fun r => r.map intWord)) ++ counted (w.err.map intWord) ++
    counted (w.normal.flatMap (fun r => r.map intWord)) ++ counted (w.rhs.map intWord) ++ counted (w.step.map intWord) ++
    counted w.motion ++ counted (w.inward.flatMap (fun r => r.map intWord))

/-- All a tick has computed, its inputs first. -/
def SvTick.known (k : SvTick) : List Nat := k.key ++ k.work.words

/-- The working buffer as a tick begins. -/
def SvWork.start (x : SvSol) : SvWork := ⟨x, [], [], [], [], [], [], [], []⟩

/-- What a kernel computes: the buffer after it, the variables that saturate, pivots replaced. -/
def State.kernelRun (s : State) (p kernel : Nat) (k : SvTick) : SvWork × List Nat × Nat :=
  let w := k.work
  let n := s.bodies p k.struct
  let m := s.dofCount p k.struct
  let parent := fun b => s.bodyField p k.struct b 0
  let pass := fun i => outward n parent (Config.outwardTerm k.known (8 * kernel + i))
  let rows := Config.residualRows s.sv.image p k.struct
  let terms := (List.range n).map (fun b => (List.range (if kernel == 5 then 6 else 36)).map (fun i => satSigned 32 (Config.inwardTerm k.known kernel b i)))
  let sums := inward n parent (s.qVar p .inward) (Config.inwardCarry k.known) terms
  match kernel with
  | 1 => ({ w with poses := pass 0 }, [], 0)
  | 2 => ({ w with jac := (List.range rows).map (fun r => (List.range m).map (fun c => satSigned 32 (Config.jacobian k.known r c))),
                   err := (List.range rows).map (fun r => satSigned 32 (Config.residual k.known r)) }, [], 0)
  | 3 => let (w, sats) := s.dls p m w
         (w, sats, 0)
  | 4 => let f := s.factorise p w.normal
         let (x, sats) := s.solveFactor p f w.rhs
         ({ w with step := x }, f.sats ++ sats, f.fixed)
  | 5 => ({ w with motion := pass 0, inward := sums.1 }, sums.2, 0)
  | 6 => ({ w with motion := pass 0 ++ pass 1, inward := sums.1 }, sums.2, 0)
  | _ => (w, [], 0)

/-- The solution after an iteration: a value for each degree of freedom the structure takes, zero above its last one (R228). -/
def State.iterSol (s : State) (p : Nat) (k : SvTick) : SvSol :=
  let m := s.dofCount p k.struct
  let x := k.work.sol
  { x with joints := (List.range (s.get (F.SV_P_SHAPE_DOF p))).map (fun d => if d < m then satSigned 32 (Config.jointNext k.known d) else 0), rotations := (List.range (s.rotationCount p k.struct)).map (fun r => (List.range 4).map (fun i => satSigned 32 (Config.rotationNext k.known r i))) }

end Sys2Proof.Machine
end

