-- ==== Sys2Proof/Machine/SolverOps.lean ====
section
/-! DEFINITION. Tarragon: ticks, kernel steps, warm and cold starts, publishing, budget stops, and what control outputs take from a record (R227 to R241). Solutions are open values of what a solve is computed from (log entry 40). -/

namespace Sys2Proof.Machine

/-- Problem p beside its registers. -/
def State.prob (s : State) (p : Nat) : SvProb := s.sv.probs.getD p .zero

/-- Problem p changed. -/
def State.putProb (s : State) (p : Nat) (x : SvProb) : State := { s with sv := { s.sv with probs := setAt s.sv.probs p x } }

/-- The output ring of problem p (R237). -/
def State.outDesc (s : State) (p : Nat) : Option Desc := s.desc? (s.get (F.SV_P_OUT_DESC p))

/-- The context of problem p (R227). -/
def State.probCtx (s : State) (p : Nat) : Option Nat := (s.outDesc p).map s.descCtx

/-- Bytes of one output record (R237): the 64-byte header and the problem's outputs (R231 counts them as b), which are fewer than the 2 MiB of Tarragon's SRAM (R227, log entry 44). -/
def State.recordSize (s : State) (p : Nat) : Nat := 64 + Config.outputBytes s.sv.image p % 2 ^ 21

/-- The device address of slot i of problem p's ring (R237): records one after the other from the descriptor's base. -/
def State.ringSlot (s : State) (p i : Nat) : Option Nat := (s.outDesc p).map (fun d => d.base + i * s.recordSize p)

/-- The bytes of slot i of problem p's ring that the descriptor's extent holds (log entry 44). -/
def State.slotRoom (s : State) (p i : Nat) : Nat := match s.outDesc p with
  | some d => min (s.recordSize p) (d.extent - i * s.recordSize p)
  | none => 0

/-- The structure hash of a structure. -/
def State.structHash (s : State) (p st : Nat) : Nat := if st == 0 then s.get (F.SV_P_HASH0 p) else s.get (F.SV_P_HASH1 p)

/-- The input streams of problem p. -/
def State.probInputs (s : State) (p : Nat) : List Nat :=
  (List.range 48).filter (fun n => bitOf (s.get64 (F.SV_P_IN_LO p) (F.SV_P_IN_HI p)) n)

/-- Every input stream's watermark is past t (R233). -/
def State.inputsPast (s : State) (p t : Nat) : Bool := (s.probInputs p).all (fun n => decide (t < s.streamWm n))

/-- The samples of stream n taken up, their packets released or not, oldest first (R100, R233). -/
def State.takenSamples (s : State) (n : Nat) : List (Nat × Nat × Bytes) := (s.fuStream n).past.reverse

/-- The samples GATHER reads (R99, R233): input streams ascending, then time, then index within the packet. -/
def State.gathered (s : State) (p t : Nat) : List (Nat × Bytes) :=
  (s.probInputs p).flatMap (fun n =>
    (sortByKey (fun x => x.1) (sortByKey (fun x => x.2.1)
      ((s.takenSamples n).filter (fun x => decide (t < x.1 + s.get (F.SV_P_WIN p)) && decide (x.1 ≤ t))))).map (fun x => (x.1, x.2.2)))

/-- The latest sample of a stream at or before t (R234). -/
def State.latestSample (s : State) (n t : Nat) : Option (Nat × Bytes) :=
  (((s.takenSamples n).filter (fun x => decide (x.1 ≤ t))).foldl (fun a b => match a with
    | some y => if y.1 ≤ b.1 then some b else some y
    | none => some b) none).map (fun x => (x.1, x.2.2))

/-- The structure of a tick (R234): selected by a sample, or as given. -/
def State.chooseStruct (s : State) (p j t given : Nat) : Nat :=
  if s.flag (F.SV_P_SEL_EN p) then
    match s.latestSample (s.get (F.SV_P_SEL_SEL_STREAM p)) t with
    | some x => b2n (bitOf (fieldB x.2 (s.get (F.SV_P_SEL_SEL_BYTE p)) 1) (s.get (F.SV_P_SEL_SEL_BIT p)))
    | none => Config.selNone p j % 2
  else given

/-! ### Steps (R231, R232) -/

/-- Kernel steps of problem p's program, iterations unrolled. -/
def State.stepCount (s : State) (p : Nat) : Nat :=
  s.get (F.SV_P_PROG_PRO p) + s.get (F.SV_P_PROG_ITB p) * s.get (F.SV_P_CFG_ITER p) + s.get (F.SV_P_PROG_EPI p)

/-- The place in the stored program of unrolled step i, and whether it ends an iteration. -/
def State.stepPlace (s : State) (p i : Nat) : Nat × Bool :=
  let pro := s.get (F.SV_P_PROG_PRO p)
  let itb := s.get (F.SV_P_PROG_ITB p)
  let n := itb * s.get (F.SV_P_CFG_ITER p)
  if i < pro then (i, false)
  else if i < pro + n then (pro + (i - pro) % itb, (i - pro) % itb + 1 == itb)
  else (pro + itb + (i - pro - n), false)

/-- The kernel of a step of the stored program, in the order of R231's table: 0 GATHER to 7 PUBLISH. -/
def State.kernelAt (s : State) (p place : Nat) : Nat := Config.kernel s.sv.image p place % 8

/-- The cycles of unrolled step i without stalls, for a structure and a number of input samples (R231). -/
def State.stepCost (s : State) (p st samples i : Nat) : Nat :=
  let n := if st == 0 then s.get (F.SV_P_SHAPE_NB0 p) else s.get (F.SV_P_SHAPE_NB1 p)
  let m := s.get (F.SV_P_SHAPE_DOF p)
  let (place, last) := s.stepPlace p i
  let body := match s.kernelAt p place with
    | 0 => 16 + 4 * samples
    | 1 => 16 + 20 * n
    | 2 => 16 + 3 * n * m
    | 3 => 16 + cdiv (Config.residualRows s.sv.image p st * m * (m + 1)) 16
    | 4 => 16 + 12 * m + cdiv (m * m * m) 48 + cdiv (m * m) 8
    | 5 => 16 + 36 * n
    | 6 => 16 + 64 * n
    | _ => 16 + cdiv (s.recordSize p) 16
  body + (if last then 8 else 0)

/-- The cycles of step i of a tick without stalls (R231). -/
def State.stepCycles (s : State) (p : Nat) (k : SvTick) (i : Nat) : Nat := s.stepCost p k.struct k.samples i

/-! ### Scheduling (R234 to R236) -/

/-- The tick of problem p that runs next: its oldest. -/
def State.headTick (s : State) (p : Nat) : Option SvTick := (s.prob p).ticks.head?

/-- The oldest tick of problem p changed. -/
def State.putHead (s : State) (p : Nat) (k : SvTick) : State :=
  let x := s.prob p
  s.putProb p { x with ticks := k :: x.ticks.drop 1 }

/-- The order of ready ticks: descending PRIO, tick time, problem (R234). -/
def State.tickKey (s : State) (p : Nat) (k : SvTick) : Nat := ((3 - s.get (F.SV_P_CFG_PRIO p)) * 2 ^ 64 + k.t) * 32 + p

/-- The remaining commands of a list hold a SOLVE run of problem p for a bound index that `mine` accepts, from command `n` on. -/
def State.listSolves (s : State) (list n p : Nat) (mine : Nat → Bool) : Bool :=
  (List.range ((s.listHdr list).count - n)).any (fun c =>
    let r := s.listCmd list (n + c)
    opcodeOf r == some .solve && !bitOf (fieldB r 8 1) 0 && fieldB r 9 1 % 32 == p && mine (bitsOf (fieldB r 11 1) 0 4))

/-- A SOLVE for an earlier result than the tick's is still to come: the tick waits for that one's record (R233). One that no list makes any more, as after a recovery, is not waited for (DESIGN CHOICE, log entry 115). -/
def State.solveAhead (s : State) (p : Nat) (k : SvTick) : Bool :=
  let earlier := fun (bound : List (Nat × Nat)) (b : Nat) => match bound[b]? with
    | some x => x.1 == s.get (F.SV_P_CFG_RS p) && decide (s.instant x.1 x.2 < k.t)
    | none => false
  k.list.isSome &&
    (s.cl.insts.any (fun i => k.list != some i.list && s.listSolves i.run i.cmd p (earlier i.bound)) ||
     s.cl.occs.any (fun o => s.listSolves o.list 0 p (earlier o.bound)))

/-- The problem whose tick is first among the ready ones; a SOLVE tick is ready in its turn (R233). -/
def State.bestReady (s : State) : Option Nat :=
  let ready := (List.range 32).filterMap (fun p => match s.headTick p with
    | some k => if k.ready && !s.solveAhead p k then some (s.tickKey p k, p) else none
    | none => none)
  ((sortByKey (fun x => x.1) ready).head?).map (fun x => x.2)

/-- A tick's first step begins: warm or cold (R235, R236, R238). -/
def State.beginTick (s : State) (p : Nat) (k : SvTick) : State :=
  let x := s.prob p
  let reseed := s.get (F.SV_P_CFG_RESEED p)
  let seeded := x.seed || (reseed != 0 && k.j % 2 ^ reseed == 0)
  let differs := s.get (F.SV_P_WARM_HASH p) != s.structHash p k.struct
  let cold := seeded || differs
  let s := if seeded then s.incSat (F.SV_P_COLD_SEED p) else if differs then s.incSat (F.SV_P_COLD_MISMATCH p) else s
  let s := if cold && !s.flag (F.SV_P_CFG_CARRY p) then s.setFlag (F.SV_P_STAT_TAINT p) false else s
  let s := (s.setFlag (F.SV_P_STAT_WARM p) (!cold)).set (F.SV_P_STAT_STRUCT p) k.struct
  let inputs := s.gathered p k.t
  let key := [leNat s.sv.image, p, k.struct, b2n cold, inputs.length] ++ inputs.map (fun y => leNat (leBytes 8 y.1 ++ y.2) + 2 ^ (64 + 8 * y.2.length))
  let work := SvWork.start (if cold then s.coldSol p k.struct else x.warm)
  let k := { k with begun := true, cold := cold, taint := s.flag (F.SV_P_STAT_TAINT p), key := key, work := work, samples := inputs.length }
  (s.putProb p { x with seed := false }).putHead p k

/-- Problem p solves. -/
def State.setCur (s : State) (p : Nat) : State :=
  let s := { s with sv := { s.sv with cur := some p } }
  let s := ((s.setFlag F.SV_STATUS_BUSY true).set F.SV_STATUS_CUR p).set (F.SV_P_STAT_STATE p) 2
  match s.headTick p with
  | some k => if k.begun then s else s.beginTick p k
  | none => s

/-- Tarragon takes the first ready tick when it is free, or one of higher priority at the end of a step (R234). -/
def State.pickTick (s : State) : State :=
  match s.bestReady, s.sv.cur with
  | some p, none => s.setCur p
  | some p, some c => if s.get (F.SV_P_CFG_PRIO c) < s.get (F.SV_P_CFG_PRIO p) then s.setCur p else s
  | none, _ => s

/-- A tick that has arisen (R233): its structure chosen, its place by tick time, State 1 when it is the problem's only one. -/
def State.addTick (s : State) (p j t given : Nat) (list : Option Nat) : State :=
  let x := s.prob p
  let k : SvTick := ⟨j, t, false, false, false, s.chooseStruct p j t given, false, false, 0, 0, [], .start (s.coldSol p 0), 0, 0, list⟩
  let s := s.putProb p { x with ticks := sortByKey SvTick.t (x.ticks ++ [k]) }
  if x.ticks.isEmpty then s.set (F.SV_P_STAT_STATE p) 1 else s

/-- The oldest tick of a problem becomes ready (R233). -/
def State.readyTick (s : State) (p : Nat) (k : SvTick) : State :=
  let s := s.putHead p { k with ready := true }
  let s := s.set (F.SV_P_STAT_STATE p) (if s.solveAhead p k then 1 else 2)
  if s.sv.cur.isNone then s.pickTick else s

/-! ### Saturations (R229) -/

/-- A saturation of variable v of problem p: its counter, SV_P_SAT, SV_SAT_LAST. -/
def State.saturate (s : State) (p v : Nat) : State :=
  let v := v % 1024
  let s := match s.desc? (s.get F.SV_SAT_DESC) with
    | some d =>
      let a := 2 * (1024 * p + v)
      if a + 2 ≤ d.extent then s.dramWrite (d.base + a) (leBytes 2 (satNat 16 (s.dramNat (d.base + a) 2 + 1))) else s
    | none => s
  ((s.incSat (F.SV_P_SAT p)).set F.SV_SAT_LAST_VAR v).set F.SV_SAT_LAST_PROBLEM p

/-- Step `k.pos` of a tick computed: the tick after it, the variables that saturated, pivots replaced; an iteration's end brings its solution (R229 to R231; that it comes there is a DESIGN CHOICE, log entry 40). -/
def State.stepWork (s : State) (p : Nat) (k : SvTick) : SvTick × List Nat × Nat :=
  let (place, last) := s.stepPlace p k.pos
  let (w, sats, fixed) := s.kernelRun p (s.kernelAt p place) k
  let sats := sats ++ Config.stepSats k.known k.pos
  let k := { k with work := w, sats := k.sats + sats.length }
  let k := if last then { k with work := { w with sol := s.iterSol p k } } else k
  (k, sats, fixed)

/-- What one kernel step counts (R229, R230). -/
def State.stepCounts (s : State) (p : Nat) (k : SvTick) : State :=
  let (_, sats, fixed) := s.stepWork p k
  (sats.foldl (fun s v => s.saturate p v) s).addSat (F.SV_P_PIVFIX p) fixed

/-! ### Publishing (R237, R238, R240, R241) -/

/-- The header of an output record (R237). -/
def recordHeader (k : SvTick) (flags solved : Nat) : Bytes :=
  leBytes 8 k.t ++ leBytes 4 k.j ++ leBytes 4 flags ++ leBytes 8 solved ++ leBytes 4 k.sats ++ zerosB 36

/-- Flags of an output record (R237): COLD tells how its tick started, stopped or not (R235). -/
def tickFlags (k : SvTick) (stopped : Bool) : Nat :=
  b2n (stopped || k.short || k.taint) + 2 * b2n stopped + 4 * b2n k.short + 8 * b2n k.taint +
    16 * b2n k.cold + 32 * k.struct

/-- Outputs of a trajectory problem begin with the tick's pose record: its time and STALE (R104, R240). -/
def posePatch (t : Nat) (stale : Bool) (out : Bytes) : Bytes :=
  patchB (patchB out 0 (leBytes 8 t)) 44 (leBytes 4 (b2n stale))

/-- A trigger time written into an output's queue of four (R50, R243). -/
def State.pushTrigger (s : State) (o t : Nat) : State :=
  if 4 ≤ (s.io.queue.filter (fun x => x.out == o)).length then s.incSat (F.IO_TRG_STAT_QFULL o)
  else
    let x : TrgTime := ⟨o, t, decide (t < s.cycleNow)⟩
    let s : State := { s with io := { s.io with queue := s.io.queue ++ [x] } }
    s.set (F.IO_TRG_STAT_QUEUED o) (s.io.queue.filter (fun x => x.out == o)).length

/-- The PWM outputs that take duties of problem p: enabled, and not the odd one of a pair, whose CFG is ignored (R242). -/
def State.pwmOf (s : State) (p : Nat) : List Nat :=
  (List.range 12).filter (fun w => s.pwmLead w == w && s.flag (F.IO_PWM_CFG_EN w) && s.get (F.IO_PWM_CFG_PROBLEM w) == p)

/-- The outputs that follow those of problem p, the odd ones of pairs among them (R242). -/
def State.pwmFollow (s : State) (p : Nat) : List Nat := (List.range 12).filter (fun w => (s.pwmOf p).contains (s.pwmLead w))

/-- Runs of stale and fresh records: outputs at SAFE after SAFE_N, back after as many fresh ones (R241). -/
def State.judgeSafe (s : State) (p : Nat) (stale : Bool) : State :=
  let x := s.prob p
  let n := s.get (F.SV_P_CFG_SAFE_N p)
  let x := if stale then { x with staleRun := x.staleRun + 1, freshRun := 0 } else { x with staleRun := 0, freshRun := x.freshRun + 1 }
  let s := s.putProb p x
  let ws := s.pwmFollow p
  if ws.isEmpty then s
  else if stale && decide (n ≤ x.staleRun) && !s.flag (F.SV_P_STAT_SAFE p) then
    ((ws.foldl (fun s w => s.setFlag (F.IO_PWM_STAT_SAFE w) true) s).setFlag (F.SV_P_STAT_SAFE p) true).raise 0x139
  else if !stale && decide (n ≤ x.freshRun) && s.flag (F.SV_P_STAT_SAFE p) then
    let s := s.setFlag (F.SV_P_STAT_SAFE p) false
    if s.flag F.SF_STATUS_FAULT then s else ws.foldl (fun s w => s.setFlag (F.IO_PWM_STAT_SAFE w) false) s
  else s

/-- What control outputs take from a record: duties, and trigger times of a completed solve (R241, R243). -/
def State.feedOutputs (s : State) (p j : Nat) (out : Bytes) (solved : Bool) : State :=
  let s := (s.pwmOf p).foldl (fun s w =>
    if j < s.io.due.getD w 0 then s
    else { s with io := { s.io with duties := s.io.duties ++ [(w, (j, Config.duty w (leNat out) % 2 ^ 16))] } }) s
  if solved then
    ((List.range 16).filter (fun o => s.flag (F.IO_TRG_CFG_EN o) && s.flag (F.IO_TRG_CFG_SRC o) && s.get (F.IO_TRG_CFG_PROBLEM o) == p)).foldl
      (fun s o => (Config.triggerTimes o (leNat out)).foldl (fun s t => s.pushTrigger o (t % 2 ^ 64)) s) s
  else s

/-- The pose record and the body ring of a tick of the trajectory problem (R104, R240). -/
def State.publishPose (s : State) (p : Nat) (k : SvTick) (stale solved : Bool) (out : Bytes) : State :=
  if s.flag (F.SV_P_CFG_PUB_POSE p) && p == s.get F.FU_POSE_CFG_PROBLEM then
    let record := posePatch k.t stale (sliceB out 0 48)
    let n := if k.struct == 0 then s.get (F.SV_P_SHAPE_NB0 p) else s.get (F.SV_P_SHAPE_NB1 p)
    let fresh := (List.range n).map (fun b => (List.range 48).map (fun i => Config.solution k.known (2 ^ 20 + 48 * b + i)))
    let last := if s.sv.bodies.isEmpty then List.replicate n (patchB (zerosB 48) 20 (leBytes 4 0x40000000)) else s.sv.bodies.headD []
    let bodies := (if solved then fresh else last).map (posePatch k.t stale)
    let depth := s.get F.FU_POSE_CFG_DEPTH
    let s := { s with fu := { s.fu with poses := (record :: s.fu.poses).take depth }, sv := { s.sv with bodies := (bodies :: s.sv.bodies).take depth } }
    s.set64 F.FU_POSE_WM_LO F.FU_POSE_WM_HI k.t
  else s

/-- A tick leaves its problem: the next one, if any, waits (R234). -/
def State.leaveTick (s : State) (p : Nat) : State :=
  let x := s.prob p
  let s := s.putProb p { x with ticks := x.ticks.drop 1 }
  let s := s.set (F.SV_P_STAT_STATE p) (match (x.ticks.drop 1).head? with
    | none => 0
    | some k => if k.ready then 2 else 1)
  let s := if s.sv.cur == some p then ({ s with sv := { s.sv with cur := none } }).setFlag F.SV_STATUS_BUSY false else s
  s.pickTick

/-- The outputs of the cold state (R238): rotations the identity quaternion, at byte 20 of a pose record and where the image places them, every other output zero. -/
def State.coldOutputs (s : State) (p size : Nat) : Bytes :=
  let at_ := (if s.flag (F.SV_P_CFG_PUB_POSE p) then [20] else []) ++ Config.rotationOutputs s.sv.image p
  (at_.foldl (fun out o => patchB out o (leBytes 4 0x40000000)) (zerosB size)).take size

/-- A record published for a tick: solved, or repeating the last solution (R237, R238, R240, R317). -/
def State.publish (s : State) (p : Nat) (k : SvTick) (stopped : Bool) : State :=
  let x := s.prob p
  let size := s.recordSize p - 64
  let pose := s.flag (F.SV_P_CFG_PUB_POSE p)
  let (out, solved) := if stopped then x.lastOut.getD (s.coldOutputs p size, 0) else ((List.range size).map (Config.solution k.known), k.t)
  let flags := tickFlags k stopped
  let stale := flags % 2 == 1
  let out := if pose then sliceB (posePatch k.t stale out) 0 size else out
  let slot := x.pubs % max 1 (s.get (F.SV_P_OUT_DEPTH p))
  let s := match s.ringSlot p slot with
    | some a => s.dramWrite a ((recordHeader k flags solved ++ out).take (s.slotRoom p slot))
    | none => s
  let x := { x with pubs := x.pubs + 1, wm := some k.t }
  let x := if stopped then x else { x with lastOut := some (out, k.t), warm := { k.work.sol with other := Config.warmState k.known } }
  let s := s.putProb p x
  let s := if stopped then s else s.set (F.SV_P_WARM_HASH p) (s.structHash p k.struct)
  let s := (s.set (F.SV_P_LAST p) k.cycles).set (F.SV_P_AGE p) (satNat 32 (k.t - solved))
  let s := if stopped || k.short then s.setFlag (F.SV_P_STAT_TAINT p) true else s
  let s := (s.incWrap F.SV_STATUS_TICKS).incWrap (F.RC_PROGRESS 3)
  let s := ((s.publishPose p k stale (!stopped) out).judgeSafe p stale).feedOutputs p k.j out (!stopped)
  (s.leaveTick p).raise (0x140 + p)

/-- A budget stop of the tick that solves (R238, R300). -/
def State.stopTick (s : State) (p : Nat) (k : SvTick) : State :=
  let b := s.get (F.SV_P_BUDGET p)
  let k := { k with cycles := b, sats := k.sats + (Config.stepSats k.known (2 ^ 20 + k.pos)).length }
  let s := (Config.stepSats k.known (2 ^ 20 + k.pos)).foldl (fun s v => s.saturate p v) s
  let s := ((s.incSat (F.SV_P_STOPS_BUDGET p)).incSat F.SV_STOPS).raise 0x138
  let s := s.safetyLog { SafetyRec.of 0x02 1 with object := p, ctx := (s.probCtx p).getD 0xFF, seqNo := k.j % 2 ^ 32, detail := b, limit := b }
  s.publish p k true

/-! ### SOLVE (R233, R239) -/

/-- The record of problem p with the largest tick time at or before t: its slot's address. -/
def State.recordAt (s : State) (p t : Nat) : Option Nat :=
  let x := s.prob p
  let depth := max 1 (s.get (F.SV_P_OUT_DEPTH p))
  let slots := (List.range (min x.pubs depth)).filterMap (fun i => s.ringSlot p ((x.pubs - 1 - i) % depth))
  slots.find? (fun a => decide (s.dramNat a 8 ≤ t))

/-- Bytes of a record put into a tensor from its first byte on, within its extent. -/
def State.putBytes (s : State) (d : Desc) (bs : Bytes) : State := s.dramWrite d.base (bs.take d.extent)

/-- SOLVE in run mode: tick k of the problem, whose publishing completes the command (R233). -/
def State.solveRun (s : State) (i : Inst) (record : Bytes) : State × CmdEnd :=
  let p := fieldB record 9 1 % 32
  if ((s.prob p).ticks.any (fun k => k.list == some i.list)) then (s, .busy)
  else match i.bound[bitsOf (fieldB record 11 1) 0 4]? with
    | none => (s, .done)
    | some b => (s.addTick p (b.2 % 2 ^ 32) (s.instant b.1 b.2) (fieldB record 10 1 % 2) (some i.list), .busy)

/-- SOLVE in read mode: a wait for the watermark, or the record copied; STALE marks the result (R239). -/
def State.solveRead (s : State) (i : Inst) (record : Bytes) : State × CmdEnd :=
  s.withDesc i (fieldB record 12 2) fun s d =>
    let p := fieldB record 9 1 % 32
    match i.bound[bitsOf (fieldB record 11 1) 0 4]? with
    | none => (s, .done)
    | some b =>
      let t := s.instant b.1 b.2
      let past := match (s.prob p).wm with
        | some w => decide (t ≤ w)
        | none => false
      if !past then (s, .wait (.solveRead p t))
      else match s.recordAt p t with
        | none => (s.putBytes d ((List.range (s.recordSize p)).map (Config.noRecord p)), .done)
        | some a =>
          let r := s.dramRead a (s.recordSize p)
          let s := s.putBytes d r
          (if bitOf (fieldB r 12 4) 0 then s.mapResult b.1 b.2 (fun r => if r.emitted then r else { r with stale := true }) else s, .done)

/-- SOLVE (R233, R239). -/
def State.solveBody (s : State) (i : Inst) (record : Bytes) : State × CmdEnd :=
  if bitOf (fieldB record 8 1) 0 then s.solveRead i record else s.solveRun i record

/-! ### Recovery (R325) -/

/-- The ticks of problem p discarded; its next tick starts cold (R325). -/
def State.discardTicks (s : State) (p : Nat) : State :=
  let s := s.putProb p { s.prob p with ticks := [], seed := true }
  let s := s.set (F.SV_P_STAT_STATE p) 0
  if s.sv.cur == some p then (({ s with sv := { s.sv with cur := none } }).setFlag F.SV_STATUS_BUSY false).pickTick else s

/-- The ticks of a context's problems discarded. -/
def State.discardCtxTicks (s : State) (ctx : Nat) : State :=
  (List.range 32).foldl (fun s p => if s.flag (F.SV_P_CFG_EN p) && s.probCtx p == some ctx then s.discardTicks p else s) s

/-- A removed instance's SOLVE tick discarded. -/
def State.discardListTicks (s : State) (list : Nat) : State :=
  (List.range 32).foldl (fun s p => if (s.prob p).ticks.any (fun k => k.list == some list) then
    let mine := s.headTick p
    let s := s.putProb p { s.prob p with ticks := (s.prob p).ticks.filter (fun k => k.list != some list) }
    let s := s.set (F.SV_P_STAT_STATE p) (if (s.prob p).ticks.isEmpty then 0 else 1)
    let headGone := match mine with
      | some k => k.list == some list
      | none => false
    if headGone && s.sv.cur == some p then (({ s with sv := { s.sv with cur := none } }).setFlag F.SV_STATUS_BUSY false).pickTick else s
  else s) s

end Sys2Proof.Machine
end

