-- ==== Sys2Proof/Machine/ListCheck.lean ====
section
/-! DEFINITION. The configuration check of descriptor slots (R183), of list headers, triggers and variants (R250 to R252), and of command records (R256 to R258, R261, R264, R139, R209). -/

namespace Sys2Proof.Machine

/-! ### Descriptor slots as the image stores them (R183) -/

/-- The 64 bytes of a slot. -/
def State.slotBytes (s : State) (slot : Nat) : Bytes := s.dramRead (s.descAddr slot) 64

/-- What boot finds wrong with a slot: code and dimension; an all-zero slot is free. -/
def State.slotFault (s : State) (slot : Nat) : Option (Nat × Nat) :=
  let b := s.slotBytes slot
  if b.all (fun x => x == 0) then none
  else if slot == 0 then some (0x03, 7)
  else match s.checkDesc b with
    | some e => some e
    | none =>
      let owner := (Desc.ofBytes b).owner
      if owner == noList || decide (owner < s.get F.CL_LIST_COUNT) then none else some (0x0C, 7)

/-- The descriptor a slot holds at configuration. -/
def State.cfgDesc? (s : State) (slot : Nat) : Option Desc :=
  if slot == 0 || decide (s.get F.DS_TBL_SLOTS ≤ slot) || (s.slotBytes slot).all (fun x => x == 0) || (s.slotFault slot).isSome then none
  else some (Desc.ofBytes (s.slotBytes slot))

/-- A descriptor no list can replace while running. -/
def State.staticDesc? (s : State) (slot : Nat) : Option Desc := (s.cfgDesc? slot).filter (fun d => d.owner == noList)

/-- The first faulty slot of the table from `slot` on, of `n` slots. -/
def State.firstBadSlot (s : State) (slot : Nat) : Nat → Option (Nat × (Nat × Nat))
  | 0 => none
  | n + 1 => match s.slotFault slot with
    | some e => some (slot, e)
    | none => s.firstBadSlot (slot + 1) n

/-! ### Reserved bits of headers and records -/

/-- Bytes `a` to `b` with every bit assigned. -/
def wholeBytes (a b : Nat) : List (Nat × Nat) := (List.range (b + 1 - a)).map (fun i => (a + i, 0xFF))

/-- No bit is set outside the assigned ones, given by (byte, mask). -/
def zeroElse (b : Bytes) (assigned : List (Nat × Nat)) : Bool :=
  (List.range 64).all (fun i => fieldB b i 1 &&& (0xFF - (assocGet i assigned).getD 0) == 0)

/-- Assigned bits of a transform block at byte 48 of a record (R188). -/
def transformBits : List (Nat × Nat) :=
  [(48, 0x07), (49, 0xFF), (50, 0xFF), (51, 0xFF), (52, 0x03), (53, 0xFF), (54, 0xFF), (55, 0xFF), (56, 0x0F), (57, 0x0F), (58, 0x01)]

/-- Assigned operand bits of a record (R256). -/
def Opcode.bits : Opcode → List (Nat × Nat)
  | .load => wholeBytes 8 47 ++ transformBits
  | .store => wholeBytes 8 55
  | .matmul => wholeBytes 8 32 ++ [(33, 0x01)] ++ wholeBytes 34 35
  | .vector => wholeBytes 8 31 ++ [(32, 0x01)]
  | .attend => [(8, 0xF7), (9, 0xFF), (10, 0xFF)] ++ wholeBytes 12 33
  | .pointBuild => [(8, 0x0F)]
  | .query => [(8, 0x0F), (9, 0xFF)] ++ wholeBytes 12 14 ++ wholeBytes 16 23
  | .fuse => [(8, 0x0F), (9, 0x01)] ++ wholeBytes 12 19
  | .solve => [(8, 0x01), (9, 0x1F), (10, 0x01), (11, 0x0F), (12, 0xFF), (13, 0xFF)]
  | .copy => wholeBytes 8 11 ++ wholeBytes 16 47 ++ transformBits
  | .collect => [(8, 0x03), (9, 0x07), (10, 0x01)] ++ wholeBytes 12 15
  | .createDesc => wholeBytes 8 9 ++ wholeBytes 12 17
  | .waitFence => [(8, 0xFF), (9, 0x0F)] ++ wholeBytes 16 31
  | .signalFence => [(8, 0xFF), (9, 0x0F), (10, 0x01)] ++ wholeBytes 16 31
  | .semAcquire => [(8, 0xFF), (10, 0xFF), (11, 0xFF)]
  | .semRelease => [(8, 0xFF), (10, 0xFF), (11, 0xFF)]
  | .branchVariant => [(8, 0xFF), (9, 0xFF), (10, 0x01), (11, 0xFF), (12, 0x0F)]
  | .end_ => [(8, 0x01)]

/-- The engine an opcode belongs to; none for any (R256). -/
def Opcode.engine : Opcode → Option Nat
  | .load => some 0
  | .store => some 0
  | .matmul => some 0
  | .vector => some 0
  | .attend => some 0
  | .pointBuild => some 1
  | .query => some 1
  | .fuse => some 2
  | .solve => some 3
  | .copy => some 4
  | .collect => some 5
  | _ => none

/-! ### Headers and triggers (R250 to R252) -/

/-- The trigger block of a list (R252). -/
def State.triggerOk (s : State) (h : ListHdr) : Bool :=
  let t := h.trig
  let zero := fun (ofs n : Nat) => fieldB t ofs n == 0
  decide (fieldB t 0 1 < 8) &&
  (match h.kind with
   | 0 => zero 1 15
   | 1 => decide (fieldB t 1 1 < 4) && decide (1 ≤ h.batch) && decide (h.batch ≤ 16) && zero 3 1 && zero 8 8
   | 2 => decide (fieldB t 1 1 < 48) && zero 2 14
   | 3 => zero 1 3 && decide (10000 ≤ h.period) && decide (h.period ≤ 1000000000) && decide (h.phase < h.period) && zero 12 4
   | 4 => zero 1 1 && decide (fieldB t 2 2 < 4096) && decide (1 ≤ h.fenceStep)
   | 5 => zero 1 1 && decide (fieldB t 2 2 < s.get F.CL_LIST_COUNT) && zero 4 12
   | _ => false)

/-- The header and the pointer entry of list n hold no reserved field or encoding (R250). -/
def State.headerOk (s : State) (n : Nat) : Bool :=
  let p := s.dramRead (s.get64 F.CL_LIST_BASE_LO F.CL_LIST_BASE_HI + 64 * n) 64
  let b := s.dramRead (s.listAddr n) 64
  let h := s.listHdr n
  zeroElse p (wholeBytes 0 4) && s.listAddr n % 64 == 0 &&
  zeroElse b ([(0, 0x7F), (1, 0xF7), (2, 0x3F), (3, if h.engine == 0 then 0x0F else 0), (4, 0xFF), (5, 0x0F), (6, 0xFF), (7, 0x1F)] ++
    wholeBytes 8 32 ++ [(34, 0xFF), (35, 0x0F)]) &&
  h.cls != 3 && decide (h.engine < 6) && decide (1 ≤ h.count) && decide (h.count ≤ 4096) &&
  (h.varlink == noList || decide (h.varlink < s.get F.CL_LIST_COUNT)) && s.triggerOk h

/-- The degradation rules of R251, and the queue's context (R249). -/
def State.linksOk (s : State) (n : Nat) : Bool :=
  let h := s.listHdr n
  let q := queueNo h.engine h.queue
  s.flag (F.CL_Q_CFG_EN q) && s.get (F.CL_Q_CFG_CTX q) == h.ctx && (h.degr == (h.varlink != noList)) &&
  (if h.varlink == noList then true
   else
    let v := s.listHdr h.varlink
    v.cls == h.cls && v.engine == h.engine && v.queue == h.queue && v.ctx == h.ctx && v.part == h.part &&
      v.kind == 0 && !v.degr && v.variantCode != 0) &&
  (h.kind == 0 || h.variantCode == 0) &&
  (h.kind != 0 || s.lists.any (fun m => (s.listHdr m).varlink == n))

/-- Results an instance of list n binds: those of the seal trigger it goes back to, through at most as many lists as there are; a variant binds what the least of the lists that link it does (R253, R257, R263). -/
def State.boundMax (s : State) (n : Nat) : Nat → Nat
  | 0 => 0
  | f + 1 =>
    let h := s.listHdr n
    match h.kind with
    | 1 => h.batch
    | 5 => s.boundMax h.trigRef f
    | 0 => match (s.lists.filter (fun m => (s.listHdr m).varlink == n)).map (fun m => s.boundMax m f) with
      | [] => 0
      | b :: bs => bs.foldl min b
    | _ => 0

/-- The result set whose seals a list goes back to. -/
def State.sealSet (s : State) (n : Nat) : Nat → Option Nat
  | 0 => none
  | f + 1 =>
    let h := s.listHdr n
    match h.kind with
    | 1 => some h.trigSet
    | 5 => s.sealSet h.trigRef f
    | _ => none

/-! ### Records (R256 to R258) -/

/-- The records of list n. -/
def State.records (s : State) (n : Nat) : List Bytes := (List.range (s.listHdr n).count).map (s.listCmd n)

/-- Logical tiles from `first`, `count` of them, exist. -/
def State.tilesOk (s : State) (record : Bytes) (ofs : Nat) : Bool :=
  let count := fieldB record (ofs + 1) 1
  decide (1 ≤ count) && decide (fieldB record ofs 1 + count ≤ s.tiles)

/-- The tiles a record names lie in partition p (R170). -/
def State.onePart (s : State) (record : Bytes) (ofs p : Nat) : Bool :=
  (tileRange (fieldB record ofs 1) (fieldB record (ofs + 1) 1)).all (fun l => s.partOfTile l == p)

/-- A transform block's parameters are in range, TYPE_OUT is one of its KIND's, and KIND takes the source's type and rank, where the source is fixed (R188, R189). -/
def State.transformOk (s : State) (record : Bytes) : Bool :=
  let tr := Transform.ofBytes (sliceB record 48 16)
  let d := s.staticDesc? (fieldB record 8 2)
  decide (tr.kind < 5) &&
  (tr.kind != 4 || (decide (1 ≤ tr.sy) && decide (1 ≤ tr.sx) && decide (1 ≤ tr.dy) && decide (1 ≤ tr.dx))) &&
  tr.typeOk &&
  (match d with
   | none => true
   | some d => (tr.outType d.elem).isSome && (tr.kind != 4 || d.rank == 3) && tr.permOk d.rank)

/-- ATTEND (R192): what is fixed of its operands, each by itself and with the others that are. -/
def State.attendOk (s : State) (record : Bytes) : Bool :=
  let d := fun (o : Nat) => s.staticDesc? (fieldB record o 2)
  let s := s.set F.AT_STATUS_HL s.headRange.2
  let weights := (d 30).all (fun w => (s.weightFault w).isNone) && (d 32).all (fun w => (s.weightFault w).isNone)
  match bitsOf (fieldB record 8 1) 0 2 with
  | 0 => (s.attendFaultOf (d 12) (d 14) (d 16) (d 18) (d 20) (d 22)).isNone
  | 1 => weights && (d 28).all (fun t => (s.tokenFault t).isNone)
  | 2 => weights
  | _ => false

/-- SOLVE names a bound result (R257); in run mode its list is of the problem's context (R227). -/
def State.solveOk (s : State) (ctx bound : Nat) (record : Bytes) : Bool :=
  decide (fieldB record 11 1 < bound) &&
  (bitOf (fieldB record 8 1) 0 || ((s.cfgDesc? (s.get (F.SV_P_OUT_DESC (bitsOf (fieldB record 9 1) 0 5)))).map s.descCtx) == some ctx)

/-- The operands of one record, beside its reserved bits (R151, R170, R183, R188, R192, R257, R261; that R170 is checked here is DEDUCED, log entry 97). -/
def State.operandsOk (s : State) (n : Nat) (h : ListHdr) (i : Nat) (op : Opcode) (record : Bytes) : Bool :=
  let bound := s.boundMax n (s.get F.CL_LIST_COUNT)
  let aligned := fun (l : List Nat) => l.all (fun o => fieldB record o 4 % 64 == 0)
  match op with
  | .load => s.tilesOk record 10 && aligned [12] && s.transformOk record
  | .store => s.tilesOk record 10 && aligned [12]
  | .matmul =>
    s.tilesOk record 34 && s.onePart record 34 h.part && aligned [8, 12, 20] && (fieldB record 16 4 == 0xFFFFFFFF || fieldB record 16 4 % 64 == 0) &&
    (match ElemType.ofCode (fieldB record 30 1), ElemType.ofCode (fieldB record 31 1) with
     | some a, some b => matmulTypes a b && (ElemType.ofCode (fieldB record 32 1)).isSome
     | _, _ => false)
  | .vector => decide (fieldB record 8 1 < 16) && (ElemType.ofCode (fieldB record 9 1)).isSome && s.tilesOk record 10 && s.onePart record 10 h.part && aligned [12, 16, 20, 24]
  | .attend => s.tilesOk record 9 && s.attendOk record
  | .pointBuild => decide (fieldB record 8 1 < bound)
  | .query => (match bitsOf (fieldB record 8 1) 0 2 with
    | 0 => decide (1 ≤ fieldB record 12 3) && decide (1 ≤ fieldB record 9 1) && decide (fieldB record 9 1 ≤ 64)
    | 1 => decide (1 ≤ fieldB record 9 1) && decide (fieldB record 9 1 ≤ 32)
    | 2 => true
    | _ => false)
  | .fuse => decide (fieldB record 8 1 < bound)
  | .solve => s.solveOk h.ctx bound record
  | .copy => s.transformOk record
  | .collect => bitsOf (fieldB record 8 1) 0 2 != 3
  | .createDesc =>
    let t := fieldB record 16 2
    fieldB record 12 4 % 64 == 0 && t != 0 && decide (t < s.get F.DS_TBL_SLOTS)
  | .semAcquire => decide (1 ≤ fieldB record 10 2)
  | .branchVariant => decide (i < fieldB record 8 2) && decide (fieldB record 8 2 < h.count) && decide (fieldB record 12 1 < bound)
  | _ => true

/-- Record i of list n (R249, R251, R256, R257). -/
def State.recordOk (s : State) (n : Nat) (h : ListHdr) (i : Nat) (record : Bytes) : Bool :=
  match opcodeOf record with
  | none => false
  | some op =>
    zeroElse record ((0, 0xFF) :: op.bits) && (op.engine == none || op.engine == some h.engine) &&
    (op.slots record).all (fun sl => match s.cfgDesc? sl with
      | some d => s.descCtx d == h.ctx
      | none => true) &&
    s.operandsOk n h i op record

/-- The list hands its build on: its END has KEEP_BUILD (R264). -/
def State.keepsBuild (s : State) (n : Nat) : Bool :=
  (s.records n).any (fun r => opcodeOf r == some .end_ && bitOf (fieldB r 8 1) 0)

/-- The lists that a list's completion triggers. -/
def State.successors (s : State) (n : Nat) : List Nat := s.lists.filter (fun m => (s.listHdr m).kind == 5 && (s.listHdr m).trigRef == n)

/-- Builds and queries of list n (R139, R264). -/
def State.buildsOk (s : State) (n : Nat) : Bool :=
  let h := s.listHdr n
  let heir := h.kind == 5 && s.keepsBuild h.trigRef
  let ops := (s.records n).map opcodeOf
  let before := ops.takeWhile (fun o => o != some .pointBuild)
  (if heir then !ops.contains (some .pointBuild) else !before.contains (some .query)) &&
  (!s.keepsBuild n || (match s.successors n with
    | [m] => (s.listHdr m).engine == 1
    | _ => false))

/-- List n passes (R249 to R252, R256, R257). -/
def State.listOk (s : State) (n : Nat) : Bool :=
  let h := s.listHdr n
  s.headerOk n && s.linksOk n && opcodeOf (s.listCmd n (h.count - 1)) == some .end_ &&
  (List.range h.count).all (fun i => s.recordOk n h i (s.listCmd n i)) && s.buildsOk n

/-- Every record of every list. -/
def State.allRecords (s : State) : List Bytes := s.lists.flatMap s.records

/-- Fences signalled in set mode, and in add mode; the engines' own among them (R261). -/
def State.setFences (s : State) : List Nat :=
  ((s.allRecords.filter (fun r => opcodeOf r == some .signalFence && bitOf (fieldB r 10 1) 0)).map (fun r => bitsOf (fieldB r 8 2) 0 12)) ++
  [s.get F.AT_FENCE_DONE] ++ (if s.get F.CB_CFG_MODE != 0 then [s.get F.CB_FENCE_DONE] else [])
def State.addFences (s : State) : List Nat :=
  ((s.allRecords.filter (fun r => opcodeOf r == some .signalFence && !bitOf (fieldB r 10 1) 0)).map (fun r => bitsOf (fieldB r 8 2) 0 12)) ++
  [s.get F.AT_FENCE_MISS] ++ (if s.get F.CB_CFG_MODE != 0 then [s.get F.CB_FENCE_READY] else [])

/-- No fence is signalled in both modes (R261). -/
def State.fencesOk (s : State) : Bool :=
  let add := s.addFences
  s.setFences.all (fun f => !add.contains f)

/-- Head-output collectives of the full lists of result set rs (R209). -/
def State.headGathers (s : State) (rs : Nat) : Nat :=
  ((s.lists.filter (fun n => s.sealSet n (s.get F.CL_LIST_COUNT) == some rs)).map (fun n =>
    ((s.records n).filter (fun r => opcodeOf r == some .collect && bitOf (fieldB r 10 1) 0)).length)).sum

/-- A list holds a record with an opcode. -/
def State.usesOp (s : State) (op : Opcode) : Bool := s.allRecords.any (fun r => opcodeOf r == some op)

end Sys2Proof.Machine
end

