-- ==== Sys2Proof/Machine/ScanOps.lean ====
section
/-! DEFINITION. Scanner datagrams: the field-extraction program, blocks, and the drops of R64 (R64, R72, R73, R83). -/

namespace Sys2Proof.Machine

/-! ### The extraction program (R64) -/

/-- A step, 64 bits. -/
structure ScanStep where
  op : Nat
  slot : Nat
  ofs : Nat
  bit : Nat
  width : Nat
  sgn : Bool
  be : Bool
  imm : Int
  deriving DecidableEq, Repr

/-- A step read from its 64 bits. -/
def ScanStep.ofNat (n : Nat) : ScanStep :=
  ⟨bitsOf n 60 4, bitsOf n 56 4, bitsOf n 40 16, bitsOf n 35 5, bitsOf n 30 5 + 1, bitOf n 29, bitOf n 28, signedOf 28 (bitsOf n 0 28)⟩

/-- Step i of stream n's program; beyond the 64 steps it reads END. -/
def State.scanStep (s : State) (n i : Nat) : ScanStep :=
  if i < 64 then .ofNat (s.get64 (F.IG_PROG n (2 * i)) (F.IG_PROG n (2 * i + 1))) else .ofNat 0

/-- A running extraction: slots, cursor, what the datagram has given so far. -/
structure ScanRun where
  slots : List Int
  cursor : Nat
  points : List ScanPoint
  bstart : Bool
  lock : Option Bool
  time : Option Nat
  deriving DecidableEq, Repr

/-- How an extraction ends. -/
inductive ScanEnd where
  | done (r : ScanRun)
  /-- dropped: the code and the detail after the stream number. -/
  | dropped (code : Nat) (detail : Bytes)
  deriving DecidableEq, Repr

/-- The field of a step, and whether its bytes lie inside the datagram. -/
def ScanStep.field (t : ScanStep) (data : Bytes) (cursor : Nat) : Nat × Bool :=
  let a := cursor + t.ofs
  let last := if t.be then a + 3 - t.bit / 8 else a + (t.bit + t.width - 1) / 8
  let w := if t.be then beNat (sliceB data a 4) else fieldB data a 4
  (bitsOf w t.bit t.width, decide (last < data.length))

/-- A value kept in a slot: 32 bits, two's complement. -/
def wrap32 (i : Int) : Int := signedOf 32 (patternOf 32 i)

/-- The field compares equal to the immediate on its low bits (R64). -/
def ScanStep.matches (t : ScanStep) (field : Nat) : Bool := field == patternOf 32 t.imm % 2 ^ t.width

/-- The IEEE 802.3 CRC-32. -/
def crc32 (bs : Bytes) : Nat := Nat.xor (crcR 0xEDB88320 0xFFFFFFFF bs) 0xFFFFFFFF

/-- The point of slots S0 to S4 (R64). -/
def ScanRun.point (r : ScanRun) (step : Nat) : ScanPoint :=
  let v := fun i => leBytes 4 (patternOf 32 (r.slots.getD i 0))
  ⟨v 0 ++ v 1 ++ v 2 ++ (v 3).take 2, r.slots.getD 4 0, step⟩

/-- The extraction from step `pc`, at most `fuel` steps: `prog` gives the steps (R64). -/
def scanFrom (prog : Nat → ScanStep) (data : Bytes) : Nat → Nat → ScanRun → ScanEnd
  | 0, _, _ => .dropped 0x26 []
  | fuel + 1, pc, r =>
    let t := prog pc
    let (f, inside) := t.field data r.cursor
    let cur := r.slots.getD t.slot 0
    let go := fun (r : ScanRun) => scanFrom prog data fuel (pc + 1) r
    let needField := t.op == 1 || t.op == 2 || t.op == 3 || t.op == 8 || t.op == 9 || t.op == 10
    if needField && !inside then .dropped 0x24 (BitVec.ofNat 8 pc :: leBytes 2 data.length)
    else match t.op with
      | 0 => .done r
      | 1 => if t.matches f then go r else .dropped 0x22 [BitVec.ofNat 8 pc]
      | 2 => go { r with bstart := r.bstart || t.matches f }
      | 3 => go { r with slots := setAt r.slots t.slot (wrap32 (if t.sgn then signedOf t.width f else f)) }
      | 4 => go { r with slots := setAt r.slots t.slot (wrap32 (cur * t.imm / ((2 ^ t.bit : Nat) : Int))) }
      | 5 => go { r with slots := setAt r.slots t.slot (wrap32 (cur + t.imm)) }
      | 6 => go { r with points := r.points ++ [r.point pc] }
      | 7 =>
        let v := wrap32 (cur - 1)
        let r := { r with slots := setAt r.slots t.slot v }
        if v == 0 then go r
        else scanFrom prog data fuel (patternOf 32 t.imm % 64) { r with cursor := r.cursor + t.ofs }
      | 8 => go { r with lock := some (bitOf f 0) }
      | 9 => go { r with time := some f }
      | 10 =>
        if f == crc32 (data.take (r.cursor + t.ofs)) % 2 ^ t.width then go r else .dropped 0x23 (leBytes 4 f)
      | _ => .done r

/-- Stream n's program on a datagram. -/
def State.extract (s : State) (n : Nat) (data : Bytes) : ScanEnd :=
  scanFrom (s.scanStep n) data 4096 0 ⟨List.replicate 16 0, 0, [], false, none, none⟩

/-! ### Blocks (R64, R72, R73) -/

/-- The open block of a stream truncated by an input error that has its own record (R72). -/
def State.truncateOpen (s : State) (n : Nat) : State :=
  match (s.stream n).open_ with
  | some _ => s.truncate n 0 []
  | none => s

/-- The points of a datagram written one by one, until one is lost. -/
def State.writePoints (s : State) (n : Nat) : List ScanPoint → State
  | [] => s
  | p :: ps =>
    let (s, w) := s.writePacket n (p.head ++ [0, 0]) true
    match w with
    | .stored =>
      let x := s.stream n
      (match x.open_ with
        | some o => s.setStream n { x with open_ := some { o with count := o.count + 1 } }
        | none => s).writePoints n ps
    | .lost => if (s.stream n).ovrPend then s.lose n (16 * ps.length) else s.discard n (16 * ps.length)

/-- A datagram joins the open block; the block closes when it holds UNITS datagrams (R64). -/
def State.joinBlock (s : State) (n : Nat) (r : ScanRun) (len : Nat) : State :=
  let x := s.stream n
  match x.open_ with
  | none => s
  | some o =>
    let g : ScanGram := { src := ⟨r.time, r.lock, s.now⟩, len := len, points := r.points }
    let s := (s.setStream n { x with open_ := some { o with grams := o.grams ++ [g] } }).touch n
    let s := s.writePoints n r.points
    match (s.stream n).open_ with
    | some o => if !(s.stream n).ovrPend && decide (s.unitsOf n ≤ o.grams.length) then s.closeBlock n else s
    | none => s

/-- A datagram the program did not drop (R64, R73, R83 code 0x25). -/
def State.takeGram (s : State) (n : Nat) (r : ScanRun) (len : Nat) : State :=
  let starts := s.unitsOf n == 1 || r.bstart
  match (s.stream n).open_ with
  | some o =>
    if (s.stream n).ovrPend then s.lose n (16 * r.points.length)
    else if starts then
      let s := s.truncate n 0x25 [BitVec.ofNat 8 o.grams.length]
      let (s, ok) := s.openPacket n 0 len
      if ok then s.joinBlock n r len else s
    else s.joinBlock n r len
  | none =>
    if starts then
      let (s, ok) := s.openPacket n 0 len
      if ok then s.joinBlock n r len else s
    else
      let s := if s.inResync n then s else s.enterResync n
      s.discard n len

/-- A datagram of stream n (R64): extracted, then stored, dropped or discarded. -/
def State.scanGram (s : State) (n : Nat) (data : Bytes) : State :=
  match s.extract n data with
  | .done r => s.takeGram n r data.length
  | .dropped code detail =>
    let s := if (s.stream n).ovrPend then s else s.streamViol n code detail
    if code == 0x22 then s
    else
      let s := if s.inResync n then s.discard n data.length else s
      s.truncateOpen n

end Sys2Proof.Machine
end

