-- ==== Sys2Proof/Machine/VoteOps.lean ====
section
/-! DEFINITION. The vote, the result packet and its emission into the host ring and the egress queue (R110 to R126, R301, R303, R336, R382, R397). -/

namespace Sys2Proof.Machine

/-! ### Sources (R110, R111, R424) -/

/-- The declared measurands of set rs, ascending. -/
def State.measurands (s : State) (rs : Nat) : List Nat :=
  (List.range 64).filter (fun i => s.flag (F.FU_MS_CFG_EN i) && bitOf (s.get (F.FU_MS_CFG_RS_MASK i)) rs)

/-- The stream of source j of measurand i. -/
def State.srcStream (s : State) (i j : Nat) : Nat :=
  if j < 4 then bitsOf (s.get (F.FU_MS_SRC0 i)) (8 * j) 6 else bitsOf (s.get (F.FU_MS_SRC1 i)) (8 * (j - 4)) 6

/-- The tolerance of source j of measurand i. -/
def State.srcTol (s : State) (i j : Nat) : Nat := bitsOf (s.get (F.FU_MS_TOL i (j / 2))) (16 * (j % 2)) 16

/-- Bytes `ofs` to `ofs + n - 1` of a tensor by byte offset from BASE; beyond the extent, and through an invalid slot, they read zero (R424). -/
def State.tensorBytes (s : State) (slot ofs n : Nat) : Bytes :=
  match s.desc? slot with
  | some d => (List.range n).map (fun i => if ofs + i < d.extent then s.dramByte (d.base + ofs + i) else 0)
  | none => zerosB n

/-- A source's entry: its value and VALID (R111). -/
structure Entry where
  value : Int
  valid : Bool
  deriving DecidableEq, Repr

/-- Entry number j of a set's source array. -/
def State.entry (s : State) (rs j : Nat) : Entry :=
  let b := s.tensorBytes (s.get (F.FU_RS_SRC_DESC rs)) (8 * j) 8
  ⟨signedOf 32 (fieldB b 0 4), bitOf (fieldB b 4 1) 0⟩

/-! ### The vote of one measurand (R113 to R116) -/

/-- The vote state of a measurand: admitted sources, and each source's run (R127). -/
structure VoteState where
  admitted : Nat
  runs : List Nat
  deriving DecidableEq, Repr

/-- The configuration of a vote: source count, K, M, tolerances. -/
structure VoteCfg where
  nsrc : Nat
  k : Nat
  m : Nat
  tol : List Nat
  deriving DecidableEq, Repr

/-- The outcome of a vote, as the measurand record shows it (R120). -/
structure Vote where
  value : Int
  state : Nat
  taken : Nat
  spread : Nat
  voteOut : Option Nat
  readmitted : List Nat
  deviating : Nat
  next : VoteState
  deriving DecidableEq, Repr

/-- Sources ordered by value, equal values by index (R113). -/
def sortByValue (v : Nat → Int) (xs : List Nat) : List Nat := sortByKey (fun j => (v j + 2 ^ 32).toNat) xs

/-- The median of the values of sources (R113). -/
def medianOf (v : Nat → Int) (xs : List Nat) : Int :=
  let o := sortByValue v xs
  let n := o.length
  if n % 2 == 1 then v (o.getD (n / 2) 0)
  else (v (o.getD (n / 2 - 1) 0) + v (o.getD (n / 2) 0)) / 2

/-- The largest distance of the sources' values from a value. -/
def spreadOf (v : Nat → Int) (x : Int) (xs : List Nat) : Nat := xs.foldl (fun m j => max m (v j - x).natAbs) 0

/-- The run of source j after the test against m1 (R114). A source has one run, the one FU_MS_RUN0 and FU_MS_RUN1 show (R127): a deviation run while it is admitted, an agreement run while it is voted out, so its deviation run starts at 0 after a readmission (DESIGN CHOICE, log entry 107: the rules reset only the agreement run there). -/
def runAfter (c : VoteCfg) (st : VoteState) (present : Nat) (dev : Nat → Bool) (j : Nat) : Nat :=
  let r := st.runs.getD j 0
  if !bitOf present j then r
  else if bitOf st.admitted j then (if dev j then min (r + 1) c.k else 0)
  else if dev j then 0
  else if r + 1 == c.m then 0 else r + 1

/-- The candidate with the largest deviation, the lower index on a tie (R115). -/
def worstOf (v : Nat → Int) (m1 : Int) (xs : List Nat) : Option Nat :=
  xs.foldl (fun best j => match best with
    | none => some j
    | some b => if (v b - m1).natAbs < (v j - m1).natAbs then some j else some b) none

/-- The vote with at least three admitted present sources `a` (R114, R115). -/
def voteFull (c : VoteCfg) (st : VoteState) (v : Nat → Int) (present : Nat) (a : List Nat) : Vote :=
  let m1 := medianOf v a
  let dev := fun j => bitOf present j && decide (c.tol.getD j 0 < (v j - m1).natAbs)
  let runs := (List.range 8).map (runAfter c st present dev)
  let cand := a.filter (fun j => dev j && runs.getD j 0 == c.k)
  let out := worstOf v m1 cand
  let readmitted := (List.range c.nsrc).filter (fun j => bitOf present j && !bitOf st.admitted j && !dev j && st.runs.getD j 0 + 1 == c.m)
  let rest := a.filter (fun j => out != some j)
  let value := medianOf v rest
  let adm := readmitted.foldl (fun m j => putBit m j true) st.admitted
  let adm := match out with
    | some j => putBit adm j false
    | none => adm
  let runs := match out with
    | some j => setAt runs j 0
    | none => runs
  { value := value, state := 0, taken := rest.length, spread := spreadOf v value rest, voteOut := out, readmitted := readmitted,
    deviating := (List.range c.nsrc).foldl (fun m j => putBit m j (dev j)) 0, next := ⟨adm, runs⟩ }

/-- The vote of a measurand (R113). -/
def voteOne (c : VoteCfg) (st : VoteState) (v : Nat → Int) (present : Nat) : Vote :=
  let a := (List.range c.nsrc).filter (fun j => bitOf present j && bitOf st.admitted j)
  match a with
  | [] => ⟨0, 3, 0, 0, none, [], 0, st⟩
  | [x] => ⟨v x, 2, 1, 0, none, [], 0, st⟩
  | [x, y] =>
    let value := (v x + v y) / 2
    ⟨value, if c.tol.getD x 0 + c.tol.getD y 0 < (v x - v y).natAbs then 1 else 0, 2, spreadOf v value [x, y], none, [], 0, st⟩
  | _ => voteFull c st v present a

/-- The record of a result with SEAL = 2 (R116). -/
def votePartial (st : VoteState) : Vote := ⟨0, 4, 0, 0, none, [], 0, st⟩

/-! ### Votes on registers (R112, R127, R303) -/

/-- The vote configuration of measurand i. -/
def State.voteCfg (s : State) (i : Nat) : VoteCfg :=
  ⟨s.get (F.FU_MS_CFG_NSRC i), s.get (F.FU_MS_CFG_K i), s.get (F.FU_MS_CFG_M i), (List.range 8).map (s.srcTol i)⟩

/-- The vote state of measurand i in set rs. -/
def State.voteState (s : State) (rs i : Nat) : VoteState :=
  ⟨s.get (F.FU_MS_STAT_ADMITTED rs i), (List.range 8).map (fun j =>
    if j < 4 then bitsOf (s.get (F.FU_MS_RUN0 rs i)) (8 * j) 8 else bitsOf (s.get (F.FU_MS_RUN1 rs i)) (8 * (j - 4)) 8)⟩

/-- A vote state written to its registers. -/
def State.setVoteState (s : State) (rs i : Nat) (st : VoteState) : State :=
  let word := fun (xs : List Nat) => leNat (xs.map (fun r => BitVec.ofNat 8 r))
  ((s.set (F.FU_MS_STAT_ADMITTED rs i) st.admitted).set (F.FU_MS_RUN0 rs i) (word (st.runs.take 4))).set (F.FU_MS_RUN1 rs i) (word (st.runs.drop 4))

/-- The tag of a vote-out verdict: set, measurand, source. -/
def voteTag (rs i j : Nat) : Nat := (rs * 64 + i) * 8 + j

/-- The run of records with state other than 0 of a safety-relevant measurand (R303 input 0x24). -/
def State.measureRun (s : State) (rs i k state : Nat) : State :=
  let x := s.fuSet rs
  let (n, told) := (assocGet i x.msRuns).getD (0, false)
  if state == 0 then s.putSet rs { x with msRuns := assocPut i (0, false) x.msRuns }
  else
    let due := s.flag (F.FU_MS_CFG_SAFETY i) && !told && s.get F.SF_CFG_MS_RUN != 0 && decide (s.get F.SF_CFG_MS_RUN ≤ n + 1)
    let s := s.putSet rs { x with msRuns := assocPut i (n + 1, told || due) x.msRuns }
    if due then (s.safetyLog { SafetyRec.of 0x24 1 with object := s.get (F.FU_MS_ID i), rs := rs, seqNo := k % 2 ^ 32 }).raise 0x173 else s

/-- The registers and verdicts of a measurand after its record (R115, R127, R303). -/
def State.recordVote (s : State) (rs i k present : Nat) (v : Vote) : State :=
  let s := s.set (F.FU_MS_STAT_STATE rs i) v.state
  let s := if v.state == 4 then s
    else ((s.setVoteState rs i v.next).set (F.FU_MS_STAT_PRESENT rs i) present).set (F.FU_MS_STAT_DEVIATING rs i) v.deviating
  let s := if v.state == 1 then s.incSat (F.FU_MS_UNRES rs i) else s
  let s := if v.state == 2 || v.state == 3 then s.incSat (F.FU_MS_UNCHK rs i) else s
  let s := match v.voteOut with
    | some j => (s.incSat (F.FU_MS_OUTS_VOTEOUTS rs i)).health 0x23 (s.srcStream i j) (voteTag rs i j) true
    | none => s
  let s := v.readmitted.foldl (fun s j => (s.incSat (F.FU_MS_OUTS_READMITS rs i)).health 0x23 (s.srcStream i j) (voteTag rs i j) false) s
  s.measureRun rs i k v.state

/-- A measurand record (R120). -/
def voteRecord (ident : Nat) (safety : Bool) (present : Nat) (v : Vote) : Bytes :=
  leBytes 2 ident ++
    [BitVec.ofNat 8 v.state, BitVec.ofNat 8 (v.taken + 16 * b2n v.voteOut.isSome + 32 * b2n (!v.readmitted.isEmpty) + 64 * b2n safety)] ++
    leBytes 4 (patternOf 32 v.value) ++ leBytes 4 v.spread ++
    [BitVec.ofNat 8 present, BitVec.ofNat 8 v.next.admitted, BitVec.ofNat 8 v.deviating, 0]

/-- What the votes of a result give its packet. -/
structure VoteSum where
  records : Bytes
  count : Nat
  votedOut : Nat
  unresolved : Bool
  unchecked : Bool
  summary : Nat
  deriving DecidableEq, Repr

/-- The votes of the measurands in turn; `j` counts source entries (R111, R112, R117). -/
def State.voteAll (s : State) (r : Result) : List Nat → Nat → VoteSum → State × VoteSum
  | [], _, acc => (s, acc)
  | i :: rest, j, acc =>
    let n := s.get (F.FU_MS_CFG_NSRC i)
    let es := (List.range n).map (fun q => s.entry r.rs (j + q))
    let present := (List.range n).foldl (fun m q => putBit m q ((es.getD q ⟨0, false⟩).valid && !bitOf r.absent (s.srcStream i q))) 0
    let st := s.voteState r.rs i
    let v := if r.sealCode == 2 then votePartial st else voteOne (s.voteCfg i) st (fun q => (es.getD q ⟨0, false⟩).value) present
    let outs := (List.range n).foldl (fun m q => if bitOf v.next.admitted q then m else putBit m (s.srcStream i q) true) acc.votedOut
    let marks := v.state == 1 || v.state == 2 || v.state == 3 || v.voteOut.isSome || !v.readmitted.isEmpty
    let acc' : VoteSum :=
      { records := acc.records ++ voteRecord (s.get (F.FU_MS_ID i)) (s.flag (F.FU_MS_CFG_SAFETY i)) present v, count := acc.count + 1,
        votedOut := outs, unresolved := acc.unresolved || v.state == 1, unchecked := acc.unchecked || v.state == 2,
        summary := satNat 8 (acc.summary + b2n marks) }
    (s.recordVote r.rs i r.k present v).voteAll r rest (j + n) acc'

/-! ### The packet (R118 to R123) -/

/-- The order of detections: descending score, ascending class, x, y, z (R122). -/
def detectionKey (d : Bytes) : Nat :=
  let pos := fun o => (sfieldB d o + 2 ^ 31).toNat
  ((((65535 - fieldB d 2 2) * 2 ^ 16 + fieldB d 0 2) * 2 ^ 32 + pos 4) * 2 ^ 32 + pos 8) * 2 ^ 32 + pos 12

/-- The detections of a set's array, sorted (R122); their number is a free value of the array's content, within its extent (log entry 20). Detections equal in all the order names keep their order in the array (DESIGN CHOICE, log entry 108). -/
def State.detections (s : State) (rs : Nat) : List Bytes :=
  match s.desc? (s.get (F.FU_RS_DET_DESC rs)) with
  | none => []
  | some d =>
    let n := min (Config.detections (s.dramRead d.base d.extent)) (d.extent / 32)
    sortByKey detectionKey ((List.range n).map (fun i => s.dramRead (d.base + 32 * i) 32))

/-- The body after the vote, and the detections dropped (R120, R122, R123). -/
def State.resultBody (s : State) (r : Result) (v : VoteSum) : Bytes × Nat :=
  let dets := s.detections r.rs
  let kept := dets.take (s.get (F.FU_RS_BODY_DET_MAX r.rs))
  let dropped := dets.length - kept.length
  let grid := if r.sealCode == 2 then 0 else s.get (F.FU_RS_GRID r.rs)
  (leBytes 2 v.count ++ leBytes 2 kept.length ++ leBytes 4 grid ++ leBytes 2 (satNat 16 dropped) ++ zerosB 6 ++ v.records ++
    kept.flatMap (fun d => d) ++ s.tensorBytes (s.get (F.FU_RS_GRID_DESC r.rs)) 0 grid, dropped)

/-- The packet of a result (R118, R119). -/
def resultPacket (r : Result) (v : VoteSum) (body : Bytes) : Bytes :=
  let mid := [1, BitVec.ofNat 8 r.rs, 0, 0] ++ leBytes 4 r.k ++ leBytes 4 (r.flags + 256 * b2n v.unchecked + 512 * b2n v.unresolved) ++
    leBytes 8 r.t ++ leBytes 4 r.age ++ (leBytes 2 r.epoch ++ [BitVec.ofNat 8 r.variantCode, BitVec.ofNat 8 v.summary]) ++
    leBytes 8 r.contributing ++ leBytes 8 v.votedOut ++ leBytes 8 r.absent ++ leBytes 4 body.length
  leBytes 4 (2 ^ 31 + 60 + body.length) ++ mid ++ leBytes 4 (crc32c (mid ++ body)) ++ body

/-! ### Emission (R124 to R126, R382, R397) -/

/-- A 16-bit one's complement sum of big-endian words. -/
def onesSum : Bytes → Nat → Nat
  | [], acc => acc
  | [a], acc => acc + a.toNat * 256
  | a :: b :: rest, acc => onesSum rest (acc + a.toNat * 256 + b.toNat)

/-- Carries folded back. -/
def foldSum (n : Nat) : Nat := let m := n / 65536 + n % 65536; m / 65536 + m % 65536

/-- The UDP checksum over the IPv4 pseudo-header, the UDP header and the payload (R124); an IPv4 address stands in its register with its first octet in bits [31:24] (DESIGN CHOICE, log entry 120). -/
def udpChecksum (srcIp dstIp srcPort dstPort : Nat) (payload : Bytes) : Nat :=
  let len := payload.length + 8
  let head := beBytes 4 srcIp ++ beBytes 4 dstIp ++ [0, 17] ++ beBytes 2 len ++ beBytes 2 srcPort ++ beBytes 2 dstPort ++ beBytes 2 len ++ [0, 0]
  let c := 65535 - foldSum (onesSum (head ++ payload) 0)
  if c == 0 then 65535 else c

/-- The datagram of fragment i of n (R124). -/
def State.fragment (s : State) (rs k : Nat) (packet : Bytes) (n i : Nat) : EgFrame :=
  let mac := s.get F.FU_EG_CFG_MAC
  let piece := s.get F.FU_EG_CFG_MTU - 16
  let payload := [1, BitVec.ofNat 8 rs, BitVec.ofNat 8 i, BitVec.ofNat 8 n] ++ leBytes 4 k ++ leBytes 4 (i * piece) ++ leBytes 4 packet.length ++
    (packet.drop (i * piece)).take piece
  let srcIp := s.get F.FU_EG_SRC_IP
  let dstIp := s.get (F.FU_RS_EG_IP rs)
  let sp := s.get (F.FU_RS_EG_PORT_SRC rs)
  let dp := s.get (F.FU_RS_EG_PORT_DST rs)
  { mac := mac, dstMac := s.get64 (F.EN_M_DMAC_LO mac) (F.EN_M_DMAC_HI mac), srcMac := s.get64 (F.EN_M_MAC_LO mac) (F.EN_M_MAC_HI mac),
    tag := if s.flag (F.EN_M_CFG_TAG mac) then some (s.get (F.EN_M_CFG_PCP mac), s.get (F.EN_M_CFG_VID mac)) else none,
    srcIp := srcIp, dstIp := dstIp, srcPort := sp, dstPort := dp, df := true, checksum := udpChecksum srcIp dstIp sp dp payload, payload := payload }

/-- The datagrams of a packet, in order (R124). -/
def State.fragments (s : State) (rs k : Nat) (packet : Bytes) : List EgFrame :=
  let n := cdiv packet.length (s.get F.FU_EG_CFG_MTU - 16)
  (List.range n).map (s.fragment rs k packet n)

/-- The slot of result k in its ring (R381). -/
def State.slotOf (s : State) (rs k : Nat) : Nat := k % s.get (F.HP_RING_CFG_SLOTS rs)

/-- A packet written into its slot, an unreleased one there lost (R382). -/
def State.ringWrite (s : State) (rs k : Nat) (packet : Bytes) : State :=
  let slot := s.slotOf rs k
  let s := if (s.slotSeq rs slot).isSome then (s.incSat (F.HP_RING_LOST rs)).raise 0x190 else s
  let s := s.emptySlot rs slot
  let s := match s.slotAddr rs slot with
    | some a => (s.dramWrite (a + 4) (packet.drop 4)).dramWrite a (packet.take 4)
    | none => s
  let s := { s with hp := { s.hp with slots := (rs, slot, k % 2 ^ 32) :: s.hp.slots } }
  (s.set (F.HP_RING_NEWEST rs) k).refreshUnrel rs

/-- The MAC link of result egress is up (R124). -/
def State.egressUp (s : State) : Bool := bitOf (s.get F.EN_STATUS) (s.get F.FU_EG_CFG_MAC)

/-- The credit of MAC m's shaper brought up to now (R397, IEEE 802.1Qav; log entry 89): it grows by IDLE_MBPS while a datagram waits or it is negative, and is 0 at most when none waits. -/
def State.shaperTick (s : State) (m : Nat) : State :=
  let idle := s.get (F.EN_M_CBS m)
  let (c, t) := s.en.shaper.getD m (0, 0)
  let grown := c + (idle : Int) * ((s.now - t : Nat) : Int)
  let c' := if s.en.queue.any (fun f => f.mac == m) then grown else if c < 0 then min 0 grown else 0
  { s with en := { s.en with shaper := setAt s.en.shaper m (c', max t s.now) } }

/-- Datagrams entering the egress queue while it has room; the rest stays (R397). A datagram is counted in FU_EG_FRAGS here, as it is handed to the MAC's queue (log entry 90). -/
def State.enqueueFrames (s : State) (rs : Nat) : List EgFrame → State × List EgFrame
  | [] => (s, [])
  | f :: fs =>
    if s.en.queue.length < Config.egressDepth then
      let s := s.shaperTick f.mac
      (({ s with en := { s.en with queue := s.en.queue ++ [f] } }).incWrap (F.FU_EG_FRAGS rs)).enqueueFrames rs fs
    else (s, f :: fs)

/-- A result forced partial by the job: before the resume sequence, or while a rank is absent that no standby covers: the first to leave is covered where there is one (R336, R394). -/
def State.jobPartial (s : State) (rs k : Nat) : Bool :=
  rs == s.get F.RC_CFG_JOB_RS &&
  ((s.rc.resumeSet && serialLater 32 (s.get F.RC_JOB_RESUME) (k % 2 ^ 32)) || decide (b2n (s.flag F.LK_JOB_CFG_STANDBY_EN) < s.rc.absent.length))

/-- Result k of set rs has left: the next one may be voted. -/
def State.resultLeft (s : State) (rs k : Nat) : State :=
  let s := s.mapResult rs k (fun r => { r with emitted := true })
  let x := s.fuSet rs
  (s.putSet rs { x with next := k + 1 }).dropResults

/-- The registers and events of a finished emission (R98, R126, R292, R317). -/
def State.finishEmission (s : State) (rs k : Nat) : State :=
  let slack := satSigned 32 (((s.instant rs k + s.get (F.FU_RS_L rs) : Nat) : Int) - (s.now : Int))
  let s := s.setI (F.FU_SLACK rs) slack
  let s := if slack < s.getI (F.FU_SLACK_MIN rs) then s.setI (F.FU_SLACK_MIN rs) slack else s
  let s := (s.set64 (F.FU_EMIT_LO rs) (F.FU_EMIT_HI rs) s.now).set (F.FU_EMIT_SEQ rs) k
  let s := (s.incWrap (F.RC_PROGRESS 2)).raise (0x104 + rs)
  let code := (s.result? rs k).map (fun r => r.sealCode)
  let s := if code == some 2 then (s.incWrap (F.FU_RS_SEAL2 rs)).raise 0x10C else s
  (s.resultLeft rs k).settle false

/-- The datagrams of an emission whose ring slot is written; `told` tells that its present stall has been reported. -/
def State.sendFrames (s : State) (e : Emission) (told : Bool) : State :=
  let (s, rest) :=
    if e.frames.isEmpty then (s, [])
    else if s.egressUp then s.enqueueFrames e.rs e.frames
    else (s.incSat F.FU_EG_DROP, [])
  if rest.isEmpty then ({ s with fu := { s.fu with emit := none } }).finishEmission e.rs e.k
  else
    let s := if told && rest.length == e.frames.length then s else (s.incSat (F.EN_M_STALL (s.get F.FU_EG_CFG_MAC))).raise 0x1B1
    { s with fu := { s.fu with emit := some { e with frames := rest } } }

/-- The emission in progress goes as far as it can: the ring slot once no host read is on it, then the datagrams while the queue has room; without a link they are dropped (R124, R382, R383, R397). `told` tells that its present stall has been reported. -/
def State.advanceEmission (s : State) (told : Bool) : State :=
  match s.fu.emit with
  | none => s
  | some e =>
    match e.ring with
    | some packet =>
      if s.hp.reading == some (e.rs, s.slotOf e.rs e.k) then s
      else
        let s := s.ringWrite e.rs e.k packet
        s.sendFrames { e with ring := none } told
    | none => s.sendFrames e told

/-- Work of a partial result that has not begun is discarded: occurrences and instances not yet on a queue that bind nothing else (R98). -/
def State.discardWork (s : State) (rs k : Nat) : State :=
  let only := fun (b : List (Nat × Nat)) => !b.isEmpty && b.all (fun x => x == (rs, k))
  let s := (s.cl.occs.filter (fun o => only o.bound)).foldl (fun s o => s.setListState o.list 0 4 (s.pendingOf o.list - 1)) s
  let s := { s with cl := { s.cl with occs := s.cl.occs.filter (fun o => !only o.bound) } }
  (s.cl.insts.filter (fun i => !i.onQueue && only i.bound)).foldl State.dropInst s

/-- The vote and the emission of a result (R112, R124, R296). -/
def State.voteResult (s : State) (r0 : Result) : State :=
  let r := if s.jobPartial r0.rs r0.k then { r0 with sealCode := 2 } else r0
  let s := s.mapResult r.rs r.k (fun _ => r)
  let s := s.cbJudge r
  let s := if r.sealCode == 2 then s.discardWork r.rs r.k else s
  let (s, v) := s.voteAll r (s.measurands r.rs) 0 ⟨[], 0, 0, false, false, 0⟩
  let s := s.clearEntries r.rs
  match s.sf.phase with
  | .fault => ((s.incSat F.SF_SUPPRESSED).resultLeft r.rs r.k).settle false
  | _ =>
    let (body, dropped) := s.resultBody r v
    let s := s.addSat (F.FU_DET_DROP r.rs) dropped
    let packet := resultPacket r v body
    let e : Emission :=
      { rs := r.rs, k := r.k, ring := if s.flag (F.FU_RS_BODY_RING_EN r.rs) then some packet else none,
        frames := if s.flag (F.FU_RS_BODY_ETH_EN r.rs) then s.fragments r.rs r.k packet else [] }
    ({ s with fu := { s.fu with emit := some e } }).advanceEmission false

/-- The result of set rs that is voted next, once its lists are complete or it is partial (R98, R112). -/
def State.voteHead (s : State) (rs : Nat) : Option Result :=
  match s.result? rs (s.fuSet rs).next with
  | some r => if !r.emitted && (r.sealCode == 2 || s.listsDone rs r.k) then some r else none
  | none => none

/-- Across result sets emission follows completion, in one cycle the lower set first (R125). -/
def State.voteTurn (s : State) (rs : Nat) (r : Result) : Bool :=
  let at_ := fun (x : Result) => x.done.getD s.thy.counter
  (List.range 4).all (fun q => q == rs || (match s.voteHead q with
    | some x => decide (at_ r < at_ x) || (at_ r == at_ x && decide (rs < q))
    | none => true))

/-- The next result of set rs is voted when it is complete, its turn has come and no emission is under way (R98, R112, R125). -/
def State.tryVote (s : State) (rs : Nat) : State :=
  match s.voteHead rs, s.fu.emit with
  | some r, none => if s.voteTurn rs r then s.voteResult r else s
  | _, _ => s

end Sys2Proof.Machine
end

