-- ==== Sys2Proof/Machine/CheckSensor.lean ====
section
/-! DEFINITION. The configuration check of boot step 7 (R343) on the blocks GLB, TB, IG, FU and PT: each check answers the control addresses at which it fails (log entry 55 says which, and which units are checked). -/

namespace Sys2Proof.Machine

/-- A check that fails at a register. -/
def chk (ok : Bool) (f : Field) : List Nat := if ok then [] else [f.addr]

/-- A number within a range, ends included. -/
def within (a x b : Nat) : Bool := decide (a ≤ x) && decide (x ≤ b)

/-! ### GLB and TB (R11, R43, R51, R55, R58, R59) -/

/-- Partition numbers of columns rise from 0 by at most one (R11). -/
def risingBy1 : List Nat → Bool
  | a :: b :: rest => (b == a || b == a + 1) && risingBy1 (b :: rest)
  | _ => true

/-- GLB: the partitions of the enabled columns (R11). -/
def State.checkGlb (s : State) : List Nat :=
  let parts := (List.range (s.get F.GLB_STATUS_COLS)).map (fun c => s.partOfTile (12 * c))
  chk (parts.headD 0 == 0 && risingBy1 parts) F.GLB_PART_LO

/-- TB: Thyme's own settings. -/
def State.checkTb (s : State) : List Nat :=
  let jump := s.get F.TB_JUMP_NS
  chk (s.get F.TB_CFG_POLICY != 3 && (s.get F.TB_CFG_POLICY != 1 || s.get F.TB_STILL_MASK != 0) && decide (s.get F.TB_CFG_START_TIMEOUT ≤ 60)) F.TB_CFG_POLICY ++
  chk (within 100 jump 10000000) F.TB_JUMP_NS ++
  chk (decide (s.get F.TB_LOCK_NS ≤ jump)) F.TB_LOCK_NS ++
  chk (within 10 (s.get F.TB_CONSIST_NS) 100000) F.TB_CONSIST_NS ++
  chk (within 10 (s.get F.TB_MEAS_TIMEOUT) 10000) F.TB_MEAS_TIMEOUT ++
  chk (decide (s.get F.TB_RATE_MAX ≤ 1953125)) F.TB_RATE_MAX ++
  chk (within 100 (s.get F.TB_STILL_MS) 60000) F.TB_STILL_MASK ++
  (List.range 48).flatMap (fun n =>
    chk (s.get (F.TB_SC_CFG_SOURCE n) != 3) (F.TB_SC_CFG_SOURCE n) ++
    chk (s.get (F.TB_SC_CFG_SOURCE n) != 0 || s.get (F.TB_SC_MOD n) == 0) (F.TB_SC_MOD n) ++
    chk (decide (s.get (F.TB_SC_GAIN_A n) ≤ 8)) (F.TB_SC_GAIN_A n))

/-! ### IG (R60 to R65, R68, R84) -/

/-- Streams configured. -/
def State.streamsOn (s : State) : List Nat := (List.range 48).filter (fun n => s.flag (F.IG_SCFG_EN n))

/-- Ports of a kind (R60). -/
def portCount (kind : Nat) : Nat :=
  match kind with
  | 0 => 8
  | 1 => 8
  | 2 => 4
  | 3 => 12
  | 4 => 4
  | 5 => 2
  | _ => 0

/-- Assigned bits of the kind-specific words (R84). -/
def kindMask (kind i : Nat) : Nat :=
  match kind, i with
  | 0, 0 => 0x3FFFF
  | 1, 0 => 0x3FFFF
  | 2, 0 => 0xFFFF
  | 2, 1 => 0xFFFFFFFF
  | 2, 2 => 1
  | 3, 0 => 1
  | 4, 0 => 0xFFFFFF03
  | 4, 1 => 0x3FFFFF
  | 5, 0 => 0x3FFFFFFF
  | 5, 1 => 0x1FFFFFFF
  | _, _ => 0

/-- A step of an extraction program is of an assigned operation (R6, R64). -/
def ScanStep.assigned (x : ScanStep) : Bool := decide (x.op ≤ 10)

/-- Its BIT + width is at most 32, whatever its operation (R64). -/
def ScanStep.fits (x : ScanStep) : Bool := decide (x.bit + x.width ≤ 32)

/-- IG_SCFG: kind, port, data type (R60, R62). -/
def State.scfgOk (s : State) (n : Nat) : Bool :=
  let kind := s.get (F.IG_SCFG_KIND n)
  let port := s.get (F.IG_SCFG_PORT n)
  decide (port < portCount kind) &&
  (decide (2 ≤ kind) || (s.flag (F.IG_CSI_CFG_EN port) && [0x1E, 0x2A, 0x2B, 0x2C, 0x2D].contains (s.get (F.IG_SCFG_DT n))))

/-- A stream's FIFO: 4 KiB to 16 MiB, inside ingress SRAM, meeting no other (R68). -/
def State.fifoOk (s : State) (n : Nat) : Bool :=
  let base := s.get (F.IG_FIFO_BASE n)
  let size := s.get (F.IG_FIFO_SIZE n)
  decide (base + size ≤ 16384) &&
  s.streamsOn.all (fun m => m == n || !meets base (base + size) (s.get (F.IG_FIFO_BASE m)) (s.get (F.IG_FIFO_BASE m) + s.get (F.IG_FIFO_SIZE m)))

/-- Embedded-data bytes a band must hold besides its lines: no register gives the length of the embedded data, and the frame counter's place says how long its first line is at least (R68, R78, R84; DEDUCED, log entry 105). -/
def State.embeddedBytes (s : State) (n : Nat) : Nat :=
  let k := s.get (igKind n 0)
  match bitsOf k 16 2 with
  | 0 => 0
  | 1 => bitsOf k 0 16 + 1
  | 2 => bitsOf k 0 16 + 2
  | _ => bitsOf k 0 16 + 4

/-- IG_PKT_MAX: 64 bytes or more, fits half the FIFO with its header, holds a band (R68). -/
def State.pktMaxOk (s : State) (n : Nat) : Bool :=
  let m := s.get (F.IG_PKT_MAX n)
  decide (64 ≤ m) && decide (2 * (m + 64) ≤ s.get (F.IG_FIFO_SIZE n) * 1024) &&
  (s.get (F.IG_SCFG_KIND n) != 0 || decide (60 + s.embeddedBytes n + s.unitsOf n * s.get (F.IG_PKT_SHAPE_LINE_BYTES n) ≤ m))

/-- The kind-specific word i of a stream. -/
def State.kindWord (s : State) (n i : Nat) : Nat := s.get (igKind n i)

/-- IG_KIND0 and IG_KIND1 of an IMU: divider, read length, CRC position (R65). -/
def State.imuOk (s : State) (n : Nat) : Bool × Bool :=
  let k0 := s.kindWord n 0
  let len := bitsOf k0 16 7
  let at_ := bitsOf (s.kindWord n 1) 16 6
  (decide (2 ≤ bitsOf k0 8 8) && within 1 len 64, !bitOf k0 23 || (decide (1 ≤ at_) && decide (at_ < len)))

/-- The kind-specific word i of a stream holds no reserved bit of its kind (R6, R84). -/
def State.kindOk (s : State) (n i : Nat) : Bool := s.kindWord n i &&& (0xFFFFFFFF - kindMask (s.get (F.IG_SCFG_KIND n)) i) == 0

/-- Any stream, configured or not: its kind, its frozen test, no reserved bit in its kind-specific words, no reserved operation in its program (R6, R60, R64, R84). -/
def State.checkAnyStream (s : State) (n : Nat) : List Nat :=
  chk (decide (s.get (F.IG_SCFG_KIND n) ≤ 5)) (F.IG_SCFG_KIND n) ++
  chk (decide (2 ≤ s.get (F.IG_FRZ_CFG_FRZ_N n)) && decide (1 ≤ s.get (F.IG_FRZ_CFG_FRZ_CLEAR n))) (F.IG_FRZ_CFG_FRZ_N n) ++
  (List.range 3).flatMap (fun i => chk (s.kindOk n i) (igKind n i)) ++
  (List.range 64).flatMap (fun i => chk (s.scanStep n i).assigned (F.IG_PROG n (2 * i)))

/-- One configured stream. -/
def State.checkStream (s : State) (n : Nat) : List Nat :=
  let kind := s.get (F.IG_SCFG_KIND n)
  chk (s.scfgOk n) (F.IG_SCFG_KIND n) ++
  chk (s.fifoOk n) (F.IG_FIFO_BASE n) ++
  chk (within 4 (s.get (F.IG_FIFO_SIZE n)) 16384) (F.IG_FIFO_SIZE n) ++
  chk (s.pktMaxOk n) (F.IG_PKT_MAX n) ++
  chk (within 1 (s.get (F.IG_TIMEOUT n)) 100000) (F.IG_TIMEOUT n) ++
  chk (kind != 2 || within 1 (s.get (F.IG_PKT_SHAPE_UNITS n)) 256) (F.IG_PKT_SHAPE_UNITS n) ++
  chk (kind != 4 || (s.imuOk n).1) (igKind n 0) ++
  chk (kind != 4 || (s.imuOk n).2) (igKind n 1) ++
  (if kind == 2 then (List.range 64).flatMap (fun i => chk (s.scanStep n i).fits (F.IG_PROG n (2 * i))) else [])

/-- IG: ports, streams. -/
def State.checkIg (s : State) : List Nat :=
  (List.range 8).flatMap (fun p =>
    chk (s.get (F.IG_CSI_CFG_LANES p) != 3 && (!s.flag (F.IG_CSI_CFG_EN p) || within 8 (s.get (F.IG_CSI_CFG_RATE p)) 450)) (F.IG_CSI_CFG_EN p)) ++
  (List.range 48).flatMap s.checkAnyStream ++
  s.streamsOn.flatMap s.checkStream

/-! ### FU (R85, R88, R90, R108, R110, R123, R124, R127, R424) -/

/-- Result sets enabled. -/
def State.setsOn (s : State) : List Nat := (List.range 4).filter (fun n => s.flag (F.FU_RS_CFG n))

/-- The streams of a set's mask. -/
def State.setMask (s : State) (rs : Nat) : Nat := s.get64 (F.FU_RS_STREAMS_LO rs) (F.FU_RS_STREAMS_HI rs)

/-- The set's largest packet (R123). -/
def State.largestPacket (s : State) (rs : Nat) : Nat :=
  64 + 16 + 16 * (s.measurands rs).length + 32 * s.get (F.FU_RS_BODY_DET_MAX rs) + s.get (F.FU_RS_GRID rs)

/-- Sources of a set's measurands. -/
def State.sourceCount (s : State) (rs : Nat) : Nat := ((s.measurands rs).map (fun i => s.get (F.FU_MS_CFG_NSRC i))).sum

/-- The extent of a slot that is valid at configuration is at least n bytes (R424). -/
def State.extentAt (s : State) (slot n : Nat) : Bool :=
  match s.cfgDesc? slot with
  | some d => decide (n ≤ d.extent)
  | none => true

/-- One enabled result set (R85, R88, R123, R424). DEPTH records of the trajectory count as covering DEPTH periods (DESIGN CHOICE, log entry 109: R88 says no more than that they cover WIN + H). -/
def State.checkSet (s : State) (rs : Nat) : List Nat :=
  let p := s.get (F.FU_RS_PERIOD rs)
  let win := s.get (F.FU_RS_WIN rs)
  let la := s.get (F.FU_RS_LA rs)
  let h := s.get (F.FU_RS_H rs)
  let l := s.get (F.FU_RS_L rs)
  let mask := s.setMask rs
  chk (within 250000 p 1000000000) (F.FU_RS_PERIOD rs) ++
  chk (decide (s.get (F.FU_RS_PHASE rs) < p)) (F.FU_RS_PHASE rs) ++
  chk (decide (s.get (F.FU_RS_LEAD rs) ≤ 1000000000)) (F.FU_RS_LEAD rs) ++
  chk (decide (win ≤ 100000000)) (F.FU_RS_WIN rs) ++
  chk (decide (la ≤ 40000000) && decide (la < h)) (F.FU_RS_LA rs) ++
  chk (within 500000 h 50000000) (F.FU_RS_H rs) ++
  chk (within h l 100000000) (F.FU_RS_L rs) ++
  chk (mask != 0 && (List.range 48).all (fun n => !bitOf mask n || s.flag (F.IG_SCFG_EN n))) (F.FU_RS_STREAMS_LO rs) ++
  chk (decide (win + h ≤ s.get F.FU_POSE_CFG_DEPTH * s.get (F.SV_P_PERIOD (s.get F.FU_POSE_CFG_PROBLEM)))) F.FU_POSE_CFG_PROBLEM ++
  chk (decide (cdiv (s.largestPacket rs) (s.get F.FU_EG_CFG_MTU - 16) ≤ 255)) F.FU_EG_CFG_MAC ++
  chk (s.extentAt (s.get (F.FU_RS_SRC_DESC rs)) (8 * s.sourceCount rs)) (F.FU_RS_SRC_DESC rs) ++
  chk (s.extentAt (s.get (F.FU_RS_GRID_DESC rs)) (s.get (F.FU_RS_GRID rs))) (F.FU_RS_GRID_DESC rs)

/-- The longest delivery of a stream from stamp to FIFO, in ns (R90). -/
def State.deliveryNs (s : State) (n : Nat) : Nat :=
  match s.get (F.IG_SCFG_KIND n) with
  | 5 => 2000
  | 4 => 8 * (bitsOf (s.kindWord n 0) 16 7 + 1) * bitsOf (s.kindWord n 0) 8 8 * 10 + 2000
  | _ => 0

/-- A stream's device-time watermark (R90). -/
def State.devWmOk (s : State) (n : Nat) : Bool :=
  !s.flag (F.FU_WM_CFG_DEV_WM n) ||
  (s.get (F.TB_SC_CFG_SOURCE n) == 0 && decide (s.deliveryNs n < 1000 * s.get (F.FU_WM_CFG_LAG_US n)))

/-- One declared measurand (R110). -/
def State.measurandOk (s : State) (i : Nat) : Bool :=
  let n := s.get (F.FU_MS_CFG_NSRC i)
  let streams := (List.range n).map (s.srcStream i)
  within 1 n 8 && streams.Nodup &&
  (List.range 4).all (fun rs => !bitOf (s.get (F.FU_MS_CFG_RS_MASK i)) rs || streams.all (fun m => bitOf (s.setMask rs) m)) &&
  (!s.flag (F.FU_MS_CFG_SAFETY i) || decide (3 ≤ n)) && s.get (F.FU_MS_CFG_K i) != 0 && s.get (F.FU_MS_CFG_M i) != 0

/-- FU: sets, watermarks, measurands. -/
def State.checkFu (s : State) : List Nat :=
  chk (within 512 (s.get F.FU_EG_CFG_MTU) 8972) F.FU_EG_CFG_MAC ++
  chk (decide (64 ≤ s.get F.FU_POSE_CFG_DEPTH)) F.FU_POSE_CFG_PROBLEM ++
  (List.range 4).flatMap (fun rs =>
    chk (decide (s.get (F.FU_RS_BODY_DET_MAX rs) ≤ 1024)) (F.FU_RS_BODY_DET_MAX rs) ++
    chk (decide (s.get (F.FU_RS_GRID rs) ≤ 262144) && s.get (F.FU_RS_GRID rs) % 64 == 0) (F.FU_RS_GRID rs)) ++
  s.setsOn.flatMap s.checkSet ++
  (List.range 48).flatMap (fun n => chk (within 2 (s.get (F.FU_WM_CFG_LAG_US n)) 10000 && s.devWmOk n) (F.FU_WM_CFG_DEV_WM n)) ++
  ((List.range 64).filter (fun i => s.flag (F.FU_MS_CFG_EN i))).flatMap (fun i => chk (s.measurandOk i) (F.FU_MS_CFG_EN i))

/-! ### PT (R130, R131, R133, R145, R146) -/

/-- A corridor box: low not above high, inside the extent (R131). -/
def State.boxOk (s : State) (b : Nat) : List Nat :=
  let axis := fun (lo hi ext : Field) => chk (decide (s.get lo ≤ s.get hi) && decide (s.get hi < s.get ext)) lo
  axis (F.PT_ZONE_BOX_XLO b) (F.PT_ZONE_BOX_XHI b) F.PT_ROI_EXT_X ++ axis (F.PT_ZONE_BOX_YLO b) (F.PT_ZONE_BOX_YHI b) F.PT_ROI_EXT_Y ++
    axis (F.PT_ZONE_BOX_ZLO b) (F.PT_ZONE_BOX_ZHI b) F.PT_ROI_EXT_Z

/-- The image holds a dense query, whose output the BEV registers shape (R144). -/
def State.denseUsed (s : State) : Bool :=
  s.allRecords.any (fun r => opcodeOf r == some .query && bitsOf (fieldB r 8 1) 0 2 == 2)

/-- PT: the point engine. The areas of R133 are measured where their slot is valid at configuration; a slot that is not holds no area, which fails an image that builds (DEDUCED, log entry 110). -/
def State.checkPt (s : State) : List Nat :=
  let ext := fun (f : Field) => chk (within 1 (s.get f) 2097152) f
  let need := fun (k : Nat) (slot : Field) =>
    match s.cfgDesc? (s.get slot) with
    | some d => chk (decide (k * s.get F.PT_PTS_MAX ≤ d.extent)) slot
    | none => chk (!s.usesOp .pointBuild) slot
  let nch := s.get F.PT_BEV_CFG_NCH
  chk (within 1 (s.get F.PT_QCFG) 20) F.PT_QCFG ++ ext F.PT_ROI_EXT_X ++ ext F.PT_ROI_EXT_Y ++ ext F.PT_ROI_EXT_Z ++
  chk (within 1024 (s.get F.PT_PTS_MAX) 1048576) F.PT_PTS_MAX ++
  chk (within 1024 (s.get F.PT_LEAF_MAX) 262144) F.PT_LEAF_MAX ++
  chk (within 1 (s.get F.PT_OCT_CFG) 20) F.PT_OCT_CFG ++
  chk (decide (s.get F.PT_ZONE_CFG ≤ 8)) F.PT_ZONE_CFG ++
  need 32 F.PT_ATTR_DESC ++ need 24 F.PT_SCR_DESC ++
  (if s.denseUsed then chk (within 1 (s.get F.PT_BEV_SIZE_NX) 1024 && within 1 (s.get F.PT_BEV_SIZE_NY) 512) F.PT_BEV_SIZE_NX ++
     chk (within 1 nch 256) F.PT_BEV_CFG_SHIFT else []) ++
  chk (decide (s.get F.PT_BEV_CFG_SHIFT ≤ 10)) F.PT_BEV_CFG_SHIFT ++
  (List.range (min 8 (s.get F.PT_ZONE_CFG))).flatMap s.boxOk ++
  (List.range 256).flatMap (fun c =>
    chk (decide (s.get (F.PT_CH_OP_OP c) ≤ 4) && s.get (F.PT_CH_OP_ATTR c) != 3) (F.PT_CH_OP_OP c) ++
    chk (decide (nch ≤ c) || s.get (F.PT_CH_OP_OP c) != 4 || decide (s.get (F.PT_CH_BAND_BAND_LO c) < s.get (F.PT_CH_BAND_BAND_HI c))) (F.PT_CH_BAND_BAND_LO c))

end Sys2Proof.Machine
end

