-- ==== Sys2Proof/Machine/CheckEngine.lean ====
section
/-! DEFINITION. The configuration check of boot step 7 (R343) on the blocks TL, DS, AT, CB, SV and CL (log entry 55). -/

namespace Sys2Proof.Machine

/-! ### TL (R160, R170, R171, R179) -/

/-- The spill areas in use. -/
def State.spillTiles (s : State) : List Nat := (List.range s.tiles).filter (fun l => s.get (F.TL_T_SPILL_SIZE l) != 0)

/-- TL: marks, limits, spill areas. -/
def State.checkTl (s : State) : List Nat :=
  let high := s.get F.TL_SPILL_CFG_HIGH
  let t := [s.get F.TL_OP_TEMP_T1050, s.get F.TL_OP_TEMP_T900, s.get F.TL_OP_TEMP_T750, s.get F.TL_OP_TEMP_T600]
  chk (within 2 high 48 && decide (s.get F.TL_SPILL_CFG_LOW < high)) F.TL_SPILL_CFG_HIGH ++
  chk (s.get F.TL_CE_LIMIT != 0) F.TL_CE_LIMIT ++
  chk (decide (t.getD 0 0 < t.getD 1 0) && decide (t.getD 1 0 < t.getD 2 0) && decide (t.getD 2 0 < t.getD 3 0)) F.TL_OP_TEMP_T1050 ++
  s.spillTiles.flatMap (fun l =>
    chk (decide (s.get (F.TL_T_SPILL_OFS l) + s.get (F.TL_T_SPILL_SIZE l) ≤ 4096) && s.clearOfAllocs (s.spillRegion l)) (F.TL_T_SPILL_OFS l))

/-! ### DS (R28, R179, R180, R183) -/

/-- A record of the allocation table: zero bytes, and for a valid one multiples of 256 and the mapped part of its view (R179). -/
def State.allocOk (s : State) (i : Nat) : Bool :=
  let b := s.dramRead (s.get64 F.DS_ALLOC_BASE_LO F.DS_ALLOC_BASE_HI + 16 * i) 16
  let a := s.alloc i
  fieldB b 6 2 == 0 && fieldB b 13 3 == 0 &&
  (!a.valid || (a.base % 256 == 0 && a.size % 256 == 0 && a.size != 0 && a.region.striped == (a.view == 1) && s.mappedRegion a.region))

/-- System region i of R28 is inside its view and meets nothing. -/
def State.systemOk (s : State) (i : Nat) : Bool :=
  match s.systemRegions[i]? with
  | some r => s.regionOk r (butAt s.systemRegions i)
  | none => true

/-- Spill areas and the two tables (R179). -/
def State.clearOfSpills (s : State) (r : Region) : Bool := s.spillTiles.all (fun l => !s.overlap r (s.spillRegion l))

/-- DS: tables, allocations, slots. -/
def State.checkDs (s : State) : List Nat :=
  let slots := s.get F.DS_TBL_SLOTS
  chk (s.get F.DS_TBL_BASE_LO % 64 == 0 && s.systemOk 0) F.DS_TBL_BASE_LO ++
  chk (within 2 slots 65536) F.DS_TBL_SLOTS ++
  chk (s.get F.DS_ALLOC_BASE_LO % 64 == 0 && s.systemOk 1 && (List.range (s.get F.DS_ALLOC_COUNT)).all s.allocOk &&
    !s.anyOverlap (s.allocs.map Alloc.region)) F.DS_ALLOC_BASE_LO ++
  chk (within 1 (s.get F.DS_ALLOC_COUNT) 4096) F.DS_ALLOC_COUNT ++
  chk (s.firstBadSlot 0 slots).isNone F.DS_ERR_LAST_CODE

/-- What a failed slot leaves: DS_ERR_LAST and DS_ERR_CTX.BOOT (R183). -/
def State.noteBadSlot (s : State) : State :=
  match s.firstBadSlot 0 (s.get F.DS_TBL_SLOTS) with
  | some (slot, code, dim) =>
    (((s.set F.DS_ERR_LAST_CODE code).set F.DS_ERR_LAST_DIM dim).set F.DS_ERR_LAST_SLOT slot).setFlag F.DS_ERR_CTX_BOOT true
  | none => s

/-- VALID set in a slot that passed; an all-zero slot stays free (R183). -/
def State.validateSlot (s : State) (slot : Nat) : State :=
  match s.cfgDesc? slot with
  | some _ => s.dramPut (s.descAddr slot) (BitVec.ofNat 8 (fieldB (s.slotBytes slot) 0 1 + 128))
  | none => s

/-- VALID set in every slot that passed. -/
def State.validateSlots (s : State) : State := (List.range (s.get F.DS_TBL_SLOTS)).foldl State.validateSlot s

/-! ### AT (R206, R208, R211) -/

/-- Bytes from a slot's base to the end of its allocation; 0 where the slot holds no valid descriptor. -/
def State.roomAt (s : State) (slot : Nat) : Nat :=
  match s.cfgDesc? slot with
  | some d => (s.alloc d.allocId).base + (s.alloc d.allocId).size - d.base
  | none => 0

/-- Bytes of a row of DH keys in the pool's type. -/
def State.poolRow (s : State) : Nat :=
  match s.cfgDesc? (s.get F.AT_KV_DESC) with
  | some d => d.elem.rowBytes (s.get F.AT_DIM_DH)
  | none => 0

/-- The lists of the corridor's context that its miss fence triggers (R205). -/
def State.recomputeLists (s : State) : List Nat :=
  s.lists.filter (fun n => (s.listHdr n).kind == 4 && (s.listHdr n).trigRef == s.get F.AT_FENCE_MISS && (s.listHdr n).ctx == s.get F.AT_CFG_CTX)

/-- The recompute list is there, and its class is that of every list of the context with an attend-mode ATTEND (R206, R208). -/
def State.recomputeOk (s : State) : Bool :=
  let readers := s.lists.filter (fun n => (s.listHdr n).ctx == s.get F.AT_CFG_CTX &&
    (s.records n).any (fun r => opcodeOf r == some .attend && bitsOf (fieldB r 8 1) 0 2 == 0))
  match s.recomputeLists with
  | m :: _ => readers.all (fun n => (s.listHdr n).cls == (s.listHdr m).cls)
  | [] => false

/-- A dimension: a multiple of 32 from 32 on. -/
def dimOk (n top : Nat) : Bool := n % 32 == 0 && within 32 n top

/-- AT: corridor memory, which every image configures (R208). -/
def State.checkAt (s : State) : List Nat :=
  let hl := s.headRange.2
  let ring := s.get F.AT_RING
  let nb := s.get F.AT_CFG_NB
  let pages := s.get F.AT_KV_PAGES
  chk (s.get F.AT_CFG_LAG != 0) F.AT_CFG_HEADS ++
  chk (within 1 (s.get F.AT_CFG_HEADS) 64 && decide (1 ≤ nb) && s.recomputeOk) F.AT_CFG_HEADS ++
  chk (within 16 (s.get F.AT_SPAN) 1000000) F.AT_SPAN ++
  chk (within 2 ring 65536 && decide (hl * ring ≤ 65536)) F.AT_RING ++
  chk (decide (2 * nb * hl ≤ pages)) F.AT_KV_PAGES ++
  chk (dimOk (s.get F.AT_DIM_DH) 256 && dimOk (s.get F.AT_DIM_DMODEL) 1024) F.AT_DIM_DH ++
  chk (s.get F.AT_PT_BASE_LO % 64 == 0 && s.systemOk 4) F.AT_PT_BASE_LO ++
  chk (decide (ring * 256 * ElemType.mxfp4.rowBytes (s.get F.AT_DIM_DMODEL) ≤ s.roomAt (s.get F.AT_SRC_DESC))) F.AT_SRC_DESC ++
  chk (s.poolRow != 0 && decide (pages * 512 * s.poolRow ≤ s.roomAt (s.get F.AT_KV_DESC))) F.AT_KV_DESC ++
  chk (decide (16 + 8 * nb * hl ≤ s.roomAt (s.get F.AT_MISS_DESC))) F.AT_MISS_DESC

/-! ### CB (R215, R225) -/

/-- The slots in use. -/
def State.cbSlotsOn (s : State) : List Nat := (List.range (min 24 (s.get F.CB_SLOTS))).filter (fun c => s.flag (F.CB_C_CFG_EN c))

/-- A slot's stream: in the set's mask, named by no lower slot (R225). -/
def State.cbSlotOk (s : State) (c : Nat) : Bool :=
  let n := s.get (F.CB_C_CFG_STREAM c)
  bitOf (s.setMask (s.get F.CB_CFG_RS)) n && s.cbSlotsOn.all (fun d => decide (c ≤ d) || s.get (F.CB_C_CFG_STREAM d) != n)

/-- CB (R225): every test but the last in every mode. A ring or update slot that is not valid at configuration holds nothing to measure, which fails a learning mode only, and in fixed mode the state region, which nothing writes, need only be clear of allocations (DEDUCED, log entry 111). -/
def State.checkCb (s : State) : List Nat :=
  chk (s.get F.CB_CFG_MODE != 3) F.CB_CFG_MODE ++
  chk (decide (s.get F.CB_SLOTS ≤ 24)) F.CB_SLOTS ++
  s.cbSlotsOn.flatMap (fun c => chk (s.cbSlotOk c) (F.CB_C_CFG_STREAM c)) ++
  chk (decide (s.get F.CB_CFG_LOG2N ≤ 12) && s.get F.CB_CFG_K != 0) F.CB_CFG_MODE ++
  chk (s.get F.CB_FIRST % s.cbN == 0) F.CB_FIRST ++
  chk (match s.cfgDesc? (s.get F.CB_ACT_DESC) with
    | some d => decide (s.cbB ≤ d.size (d.rank - 1))
    | none => s.get F.CB_CFG_MODE == 0) F.CB_ACT_DESC ++
  chk (match s.cfgDesc? (s.get F.CB_UPD_DESC) with
    | some d => decide (784 ≤ d.extent)
    | none => s.get F.CB_CFG_MODE == 0) F.CB_UPD_DESC ++
  chk (s.get F.CB_STATE_BASE_LO % 4096 == 0 && s.clearOfAllocs ⟨s.cbStateBase, 4096⟩ && s.systemOk 5) F.CB_STATE_BASE_LO ++
  chk (s.get F.CB_CFG_MODE == 0 || s.lists.any (fun n => (s.listHdr n).kind == 4 && (s.listHdr n).trigRef == s.get F.CB_FENCE_READY)) F.CB_FENCE_READY

/-! ### SV (R227, R228, R231, R232, R236, R246) -/

/-- The structure hash of R228. -/
def State.bodyHash (s : State) (p st : Nat) : Nat :=
  crc32c ((List.range (s.bodies p st)).flatMap (fun b => [BitVec.ofNat 8 (s.bodyField p st b 0), BitVec.ofNat 8 (s.bodyField p st b 1 % 16)]))

/-- A body record: its parent, its joint type, its zero fields (R227, R228). -/
def State.bodyOk (s : State) (p st b : Nat) : Bool :=
  let f := s.bodyField p st b
  (if b == 0 then f 0 == 0xFF else decide (f 0 < b)) && decide (f 1 ≤ 4) && f 3 == 0 && (List.range 8).all (fun i => f (72 + i) == 0)

/-- They begin at 0, leave no gap, do not overlap, and stay below DOF (R228). -/
def State.dofsOk (s : State) (p st : Nat) : Bool :=
  let d := s.dofs p st
  decide (d.length ≤ s.get (F.SV_P_SHAPE_DOF p)) && (List.range d.length).all (fun i => d.contains i)

/-- The structures of a problem (R227, R228). -/
def State.shapeOk (s : State) (p : Nat) : Bool :=
  within 1 (s.get (F.SV_P_SHAPE_NB0 p)) 64 && decide (s.get (F.SV_P_SHAPE_NB1 p) ≤ 64) && within 1 (s.get (F.SV_P_SHAPE_DOF p)) 48 &&
  (s.structs p).all (fun st => (List.range (s.bodies p st)).all (s.bodyOk p st) && s.dofsOk p st) &&
  (s.structs p == [0] || s.bodyHash p 0 != s.bodyHash p 1)

/-- The program's lengths, its first and its last step (R231). -/
def State.progOk (s : State) (p : Nat) : Bool :=
  let pro := s.get (F.SV_P_PROG_PRO p)
  let itb := s.get (F.SV_P_PROG_ITB p)
  let epi := s.get (F.SV_P_PROG_EPI p)
  pro != 0 && itb != 0 && epi != 0 && decide (pro + itb + epi ≤ 24) && s.kernelAt p 0 == 0 && s.kernelAt p (pro + itb + epi - 1) == 7

/-- The stall-free cost of a problem's program for a structure, at SMAX (R232). -/
def State.progCost (s : State) (p st : Nat) : Nat := ((List.range (s.stepCount p)).map (s.stepCost p st (s.get (F.SV_P_SMAX p)))).sum

/-- The budget covers the cost, and a periodic problem's wait and budget fit its period: budget / 0.6 ns with a margin of 2,000 ns (R232). -/
def State.budgetOk (s : State) (p : Nat) : Bool :=
  (s.structs p).all (fun st => decide (s.progCost p st ≤ s.get (F.SV_P_BUDGET p))) &&
  (s.flag (F.SV_P_CFG_MODE p) || decide (3 * (s.get (F.SV_P_WAIT p) + 2000) + 5 * s.get (F.SV_P_BUDGET p) ≤ 3 * s.get (F.SV_P_PERIOD p)))

/-- One enabled problem; `v` is the state with VALID set in the slots. -/
def State.checkProblem (s v : State) (p : Nat) : List Nat :=
  let periodic := !s.flag (F.SV_P_CFG_MODE p)
  chk (s.get (F.SV_P_CFG_SAFE_N p) != 0 && (!s.flag (F.SV_P_CFG_CARRY p) || s.get (F.SV_P_CFG_RESEED p) == 0)) (F.SV_P_CFG_EN p) ++
  chk (s.shapeOk p) (F.SV_P_SHAPE_NB0 p) ++
  chk (!periodic || within 125000 (s.get (F.SV_P_PERIOD p)) 1000000000) (F.SV_P_PERIOD p) ++
  chk (!periodic || decide (s.get (F.SV_P_PHASE p) < s.get (F.SV_P_PERIOD p))) (F.SV_P_PHASE p) ++
  chk (v.budgetOk p) (F.SV_P_BUDGET p) ++
  chk (decide (2 ≤ s.get (F.SV_P_OUT_DEPTH p))) (F.SV_P_OUT_DESC p) ++
  chk (s.progOk p) (F.SV_P_PROG_PRO p)

/-- The enabled problems. -/
def State.problemsOn (s : State) : List Nat := (List.range 32).filter (fun p => s.flag (F.SV_P_CFG_EN p))

/-- SV: iterations of every problem, the rest of the enabled ones. -/
def State.checkSv (s v : State) : List Nat :=
  (List.range 32).flatMap (fun p => chk (within 1 (s.get (F.SV_P_CFG_ITER p)) 64) (F.SV_P_CFG_EN p)) ++ s.problemsOn.flatMap (s.checkProblem v)

/-! ### CL (R28, R250 to R266, R209) -/

/-- CL: the tables and the lists. -/
def State.checkCl (s : State) : List Nat :=
  let sets := (List.range 4).all (fun rs => decide (s.headGathers rs ≤ 1))
  chk (s.get F.CL_LIST_BASE_LO % 64 == 0 && s.systemOk 2 && s.lists.all s.listOk && s.fencesOk && sets) F.CL_LIST_BASE_LO ++
  chk (within 1 (s.get F.CL_LIST_COUNT) 4095) F.CL_LIST_COUNT ++
  chk (s.get F.CL_STATE_BASE_LO % 64 == 0 && s.systemOk 3) F.CL_STATE_BASE_LO

end Sys2Proof.Machine
end

