-- ==== Sys2Proof/Machine/EgressOps.lean ====
section
/-! DEFINITION. Gate lists and the egress of result datagrams (R397). -/

namespace Sys2Proof.Machine

/-- The interval of entry i of MAC m's gate list in ns. -/
def State.gateNs (s : State) (m i : Nat) : Nat := s.get (F.EN_GCL m (2 * i))

/-- The gate of class c is open in entry i. -/
def State.gateBit (s : State) (m i c : Nat) : Bool := bitOf (s.get (F.EN_GCL m (2 * i + 1))) c

/-- The entry at a position in the cycle, and the ns it still lasts; `n` entries are left from `i`. -/
def State.gateAt (s : State) (m pos i : Nat) : Nat → Nat × Nat
  | 0 => (0, 0)
  | n + 1 => if pos < s.gateNs m i then (i, s.gateNs m i - pos) else s.gateAt m (pos - s.gateNs m i) (i + 1) n

/-- The entry device time puts in force on MAC m, and the ns it still lasts (R397). -/
def State.gateNow (s : State) (m : Nat) : Nat × Nat :=
  let cycle := s.get (F.EN_M_CYCLE m)
  let base := s.get64 (F.EN_M_BASE_LO m) (F.EN_M_BASE_HI m)
  s.gateAt m (((s.now : Int) - (base : Int)) % (cycle : Int)).toNat 0 (s.get (F.EN_M_GCL m))

/-- The ns class c stays open through the entries after i, `n` of them. -/
def State.openAfter (s : State) (m c i : Nat) : Nat → Nat
  | 0 => 0
  | n + 1 =>
    let j := (i + 1) % s.get (F.EN_M_GCL m)
    if s.gateBit m j c then s.gateNs m j + s.openAfter m c j n else 0

/-- Bytes of a frame on the wire: Ethernet header and tag, IPv4, UDP, payload, FCS. -/
def EgFrame.length (f : EgFrame) : Nat := 14 + (if f.tag.isSome then 4 else 0) + 28 + f.payload.length + 4

/-- ns a frame takes on the wire at 10 Gb/s (R395). -/
def EgFrame.wireNs (f : EgFrame) : Nat := cdiv (f.length * 8) 10

/-- A frame may start now: its class's gate is open in the entry in force, and stays open until it has ended at 10 Gb/s (R395, R397). -/
def State.mayStart (s : State) (m : Nat) (f : EgFrame) : Bool :=
  let n := s.get (F.EN_M_GCL m)
  if n == 0 then true
  else
    let c := s.get (F.EN_M_CFG_PCP m)
    let i := s.en.gates.getD m 0
    s.gateBit m i c && decide (f.wireNs ≤ (s.gateNow m).2 + s.openAfter m c i (n - 1))

/-- The shaper of MAC m lets a frame start at credit `c` (R397): there is none, or the credit is not negative. -/
def State.shaperOpen (s : State) (m : Nat) (c : Int) : Bool := s.get (F.EN_M_CBS m) == 0 || decide (0 ≤ c)

/-- The credit a frame on the wire uses up, in 10^-3 bits (R397): it falls by the port's 10,000 Mb/s less IDLE_MBPS. -/
def State.shaperCost (s : State) (m : Nat) (f : EgFrame) : Int := (10000 - (s.get (F.EN_M_CBS m) : Int)) * (f.wireNs : Int)

/-- The first `k` frames of MAC m that may start, from the shaper's credit `c` on, leave a queue. -/
def State.dequeueFrames (s : State) (m : Nat) : Nat → Int → List EgFrame → List EgFrame × List EgFrame
  | _, _, [] => ([], [])
  | k, c, f :: fs =>
    if f.mac == m && decide (0 < k) && s.mayStart m f && s.shaperOpen m c then
      let (out, rest) := s.dequeueFrames m (k - 1) (c - s.shaperCost m f) fs
      (f :: out, rest)
    else
      let (out, rest) := s.dequeueFrames m (if f.mac == m then 0 else k) c fs
      (out, f :: rest)

/-- MAC m's shaper after frames have started now (R397): their credit is used up, and it grows again from their end. -/
def State.shaperSent (s : State) (m : Nat) (out : List EgFrame) : State :=
  let (c, t) := s.en.shaper.getD m (0, 0)
  let used := (out.map (s.shaperCost m)).sum
  { s with en := { s.en with shaper := setAt s.en.shaper m (c - used, t + (out.map EgFrame.wireNs).sum) } }

/-- Up to `k` frames of MAC m sent while its link is up (R397). -/
def State.transmit (s : State) (m k : Nat) : State :=
  if bitOf (s.get F.EN_STATUS) m then
    let s := s.shaperTick m
    let (out, rest) := s.dequeueFrames m k (s.en.shaper.getD m (0, 0)).1 s.en.queue
    let s := if s.get (F.EN_M_CBS m) == 0 then s else s.shaperSent m out
    let s := { s with en := { s.en with queue := rest, sent := out.reverse ++ s.en.sent } }
    s.set (F.EN_M_TX_FRAMES m) (s.get (F.EN_M_TX_FRAMES m) + out.length)
  else s

end Sys2Proof.Machine
end

