-- ==== Sys2Proof/Machine/CheckSystem.lean ====
section
/-! DEFINITION. The configuration check of boot step 7 (R343) on the blocks MJ, EV, SF, RC, PW, HP, LK, EN and IO, and the check as a whole: the lowest address that fails (R341, R343; log entry 55). -/

namespace Sys2Proof.Machine

/-! ### MJ (R269, R280) -/

/-- MJ: shares, base, limits. -/
def State.checkMj (s : State) : List Nat :=
  let s0 := s.get F.MJ_SHARE_S0
  let s2 := s.get F.MJ_SHARE_S2
  let base := s.get F.MJ_BASE_MW
  chk (decide (base + 10000 ≤ s.get F.MJ_CAP_MW)) F.MJ_CAP_MW ++
  chk (decide (base ≤ 50000)) F.MJ_BASE_MW ++
  chk (s0 + s.get F.MJ_SHARE_S1 + s2 == 1000 && decide (600 ≤ s0) && decide (s2 ≤ 150)) F.MJ_SHARE_S0 ++
  chk (within 1 (s.get F.MJ_WINDOW) 100) F.MJ_WINDOW ++
  chk (within 1 (s.get F.MJ_C0_SLACK) 1000) F.MJ_C0_SLACK ++
  chk (s.get F.MJ_STARVE != 0) F.MJ_STARVE ++
  (List.range 12).flatMap (fun z => chk (within 60 (s.get (F.MJ_ZONE_LIMIT z)) 110) (F.MJ_ZONE_LIMIT z))

/-! ### EV (R281, R284, R292, R371) -/

/-- Source numbers assigned (R292). -/
def sourceAssigned (n : Nat) : Bool :=
  [(0, 0x2E), (0x40, 0xE8), (0xF0, 0xF3), (0x100, 0x10C), (0x110, 0x111), (0x118, 0x119), (0x120, 0x121), (0x130, 0x132), (0x138, 0x15F),
   (0x160, 0x160), (0x168, 0x16A), (0x170, 0x1B7), (0x200, 0x23F), (0x300, 0x37F)].any (fun r => within r.1 n r.2)

/-- What a source in use must have: MODE = 2 as an event source, one occurrence and no time limit when level-sensed (R281, R283). That the configuration check tests it is DEDUCED (log entry 117). -/
def State.sourceModeOk (s : State) (n : Nat) : Bool :=
  (isStatusSource n || s.get (F.EV_S_CFG_MODE n) == 2) &&
  (!s.levelSensed n || (s.get (F.EV_S_COAL_COUNT n) == 1 && s.get (F.EV_S_COAL_TIME_US n) == 0))

/-- A source's settings (R281, R284). -/
def State.checkSource (s : State) (n : Nat) : List Nat :=
  let host := s.get (F.EV_S_CFG_HOST n)
  let routed := (s.get (F.EV_S_CFG_TARGET n) != 0) != (host != 0)
  chk (decide (s.get (F.EV_S_CFG_MODE n) ≤ 4) && host != 3 && (!s.flag (F.EV_S_CFG_EN n) || (sourceAssigned n && routed && s.sourceModeOk n))) (F.EV_S_CFG_EN n) ++
  chk (s.get (F.EV_S_COAL_COUNT n) != 0) (F.EV_S_COAL_COUNT n)

/-- EV: wake enables (R371) and sources. -/
def State.checkEv (s : State) : List Nat :=
  chk (s.get F.EV_WAKE_EN_LO % 2 ^ 28 == 0) F.EV_WAKE_EN_LO ++
  chk (decide (s.get F.EV_WAKE_EN_HI < 32)) F.EV_WAKE_EN_HI ++
  (List.range 1024).flatMap s.checkSource

/-! ### SF (R311, R316) -/

/-- A class-0 matrix-engine list whose trigger hides the slack (R311). -/
def State.hidesSlack (s : State) (n : Nat) : Bool :=
  let h := s.listHdr n
  let low := fun (m : Nat) => (s.listHdr m).cls == 1 || (s.listHdr m).cls == 2
  h.cls == 0 && h.engine == 0 &&
  (h.kind == 2 || (h.kind == 5 && low h.trigRef) ||
   (h.kind == 4 && s.lists.any (fun m => low m &&
     (s.records m).any (fun r => opcodeOf r == some .signalFence && bitsOf (fieldB r 8 2) 0 12 == h.trigRef))))

/-- SF: Chervil's settings. -/
def State.checkSf (s : State) : List Nat :=
  chk (s.get F.SF_CFG_MS_RUN != 0) F.SF_CFG_SHADOW_EN ++
  chk (within 10 (s.get F.SF_ST_PERIOD) 10000 && !s.lists.any s.hidesSlack) F.SF_ST_PERIOD ++
  chk (within 10 (s.get F.SF_ST_SLICE) 50) F.SF_ST_SLICE ++
  chk (within 5 (s.get F.SF_CLK_TOL) 100) F.SF_CLK_TOL ++
  chk (within 90 (s.get F.SF_TJ_MAX) 110) F.SF_TJ_MAX

/-! ### RC (R319, R320, R335, R338) -/

/-- The rules of job aborts (R335), where the part has a job. -/
def State.jobTimesOk (s : State) : Bool :=
  let gap := s.get F.RC_CFG_JOB_GAP * s.get (F.FU_RS_PERIOD (s.get F.RC_CFG_JOB_RS))
  let part := s.get F.RC_PART_WINDOW
  s.get F.LK_JOB_CFG_SIZE == 0 ||
  (decide (s.get F.RC_CTX_WINDOW * 1000 < gap) &&
    (!s.flag F.RC_CFG_PART_EN || (decide (part * 1000000 < gap) && decide (part < s.get F.RC_BACKSTOP_MS))))

/-- The longest budget of any list, in island cycles. -/
def State.maxBudget (s : State) : Nat := (s.lists.map (fun n => (s.listHdr n).budget)).foldl max 0

/-- RC: recovery times and the crash region. -/
def State.checkRc (s : State) : List Nat :=
  let hang := s.get F.RC_HANG_MS
  chk (s.get F.RC_CFG_JOB_GAP != 0 && s.jobTimesOk) F.RC_CFG_PROFILE ++
  chk (within 1 hang 100 && decide (s.maxBudget * 10 < hang * 3000000)) F.RC_HANG_MS ++
  chk (within 250 (s.get F.RC_CTX_WINDOW) 5000) F.RC_CTX_WINDOW ++
  chk (within 5 (s.get F.RC_PART_WINDOW) 100) F.RC_PART_WINDOW ++
  chk (within 5 (s.get F.RC_BACKSTOP_MS) 100) F.RC_BACKSTOP_MS ++
  chk (s.systemOk 6 && s.clearOfSpills s.crashRegion) F.RC_CRASH_BASE

/-! ### PW (R360, R374) -/

/-- A list runs on engine e. -/
def State.engineUsed (s : State) (e : Nat) : Bool := s.lists.any (fun n => (s.listHdr n).engine == e)

/-- Optional domain 48 + i holds something the image uses (R360). -/
def State.optUsed (s : State) (i : Nat) : Bool :=
  let ports := fun (a : Nat) => (List.range 4).any (fun p => s.flag (F.IG_CSI_CFG_EN (a + p)))
  let kinds := fun (ks : List Nat) => s.streamsOn.any (fun n => ks.contains (s.get (F.IG_SCFG_KIND n)))
  match i with
  | 0 => ports 0
  | 1 => ports 4
  | 2 => (List.range 4).any (fun m => s.flag (F.EN_M_CFG_EN m)) || kinds [2]
  | 3 => kinds [3, 4, 5] || (List.range 16).any (fun o => s.flag (F.IO_TRG_CFG_EN o) || s.get (F.IO_CAP_CFG_EDGE o) != 0) ||
      (List.range 12).any (fun w => s.flag (F.IO_PWM_CFG_EN w)) || (List.range 2).any (fun c => s.flag (F.IO_CAN_CTRL_EN c))
  | 4 => s.engineUsed 2 || !s.setsOn.isEmpty
  | 5 => s.engineUsed 1
  | 6 => s.engineUsed 3 || s.engineUsed 4 || !s.problemsOn.isEmpty
  | _ => s.engineUsed 5 || s.get F.LK_JOB_CFG_SIZE != 0

/-- PW: drain limit, domains, comparators. -/
def State.checkPw (s : State) : List Nat :=
  chk (within 1 (s.get F.PW_DRAIN) 1000) F.PW_DRAIN ++
  chk ((List.range 8).all (fun i => bitOf (s.get F.PW_DOM_EN) i || !s.optUsed i)) F.PW_DOM_EN ++
  (List.range 4).flatMap (fun c => chk (decide (s.get (F.PW_CMP_CFG_THRESH c) ≤ 1000)) (F.PW_CMP_CFG_THRESH c))

/-! ### HP (R381, R385) -/

/-- The ring of an enabled result set (R381). -/
def State.ringOk (s : State) (rs : Nat) : Bool :=
  let slots := s.get (F.HP_RING_CFG_SLOTS rs)
  let z := s.get (F.HP_RING_CFG_SLOT_4K rs)
  within 1 slots 4096 && within 1 z 80 && decide (slots * z ≤ 65536) && decide (s.largestPacket rs ≤ z * 4096) &&
  (match s.cfgDesc? (s.get (F.HP_RING_DESC rs)) with
   | some d => decide (slots * z * 4096 ≤ d.extent)
   | none => false)

/-- HP: turnaround and rings. -/
def State.checkHp (s : State) : List Nat :=
  chk (decide (8 ≤ s.get F.HP_CFG)) F.HP_CFG ++
  (s.setsOn.filter (fun rs => s.flag (F.FU_RS_BODY_RING_EN rs))).flatMap (fun rs => chk (s.ringOk rs) (F.HP_RING_CFG_SLOTS rs))

/-! ### LK (R391, R393, R399) -/

/-- LK: the job's shape, the links' settings. -/
def State.checkLk (s : State) : List Nat :=
  let n := s.get F.LK_JOB_CFG_SIZE + 1
  let x := s.get F.LK_JOB_CFG_X + 2
  let shape := if s.flag F.LK_JOB_CFG_TOPO then decide (x ≤ 4) && n == 2 * x else true
  chk (decide (s.get F.LK_JOB_CFG_RANK < n) && shape && (!s.flag F.LK_JOB_CFG_STANDBY_EN || decide (3 ≤ n))) F.LK_JOB_CFG_SIZE ++
  chk (within 100 (s.get F.LK_START_MS) 10000) F.LK_START_MS ++
  chk (within 4 (s.get F.LK_CREDITS_ABORT) 16) F.LK_CREDITS_DATA

/-! ### EN (R397, R400) -/

/-- The gate list of a MAC (R397). -/
def State.checkGates (s : State) (m : Nat) : List Nat :=
  let n := s.get (F.EN_M_GCL m)
  let ents := List.range (min n 64)
  let ptp := s.get F.TB_CFG_PTP_MAC == m || (s.flag F.TB_CFG_ALT_EN && s.get F.TB_CFG_ALT_MAC == m)
  if !s.flag (F.EN_M_CFG_EN m) || n == 0 then []
  else
    chk (decide (n ≤ 64) && (ents.map (s.gateNs m)).sum == s.get (F.EN_M_CYCLE m) && (!ptp || ents.any (fun i => s.gateBit m i 7))) (F.EN_M_GCL m) ++
    chk (within 10000 (s.get (F.EN_M_CYCLE m)) 1000000000) (F.EN_M_CYCLE m)

/-- EN: every MAC. -/
def State.checkEn (s : State) : List Nat := (List.range 4).flatMap s.checkGates

/-! ### IO (R242, R245, R247) -/

/-- A CAN controller's bit times (R245). -/
def State.checkCan (s : State) (c : Nat) : List Nat :=
  let n1 := s.get (F.IO_CAN_NBT_TSEG1 c)
  let n2 := s.get (F.IO_CAN_NBT_TSEG2 c)
  let d1 := s.get (F.IO_CAN_DBT_TSEG1 c)
  let d2 := s.get (F.IO_CAN_DBT_TSEG2 c)
  let db := s.get (F.IO_CAN_DBT_BRP c)
  chk (decide (2 ≤ n1) && decide (1 ≤ n2) && within 1 (s.get (F.IO_CAN_NBT_SJW c)) n2 &&
    decide (200 ≤ (s.get (F.IO_CAN_NBT_BRP c) + 1) * (1 + n1 + n2))) (F.IO_CAN_NBT_BRP c) ++
  chk (decide (1 ≤ db) && decide (1 ≤ d1) && decide (1 ≤ d2) && s.get (F.IO_CAN_DBT_SJW c) != 0 &&
    decide (25 ≤ db * (1 + d1 + d2))) (F.IO_CAN_DBT_BRP c)

/-- IO: triggers, PWM, CAN. -/
def State.checkIo (s : State) : List Nat :=
  (List.range 16).flatMap (fun o =>
    chk (within 4 (s.get (F.IO_TRG_WIDTH o)) 10000000) (F.IO_TRG_WIDTH o) ++
    chk (!(s.flag (F.IO_TRG_CFG_EN o) && s.flag (F.IO_TRG_CFG_PERIODIC o)) || decide (s.get (F.IO_TRG_PHASE o) < s.get (F.IO_TRG_PERIOD o))) (F.IO_TRG_PHASE o)) ++
  (List.range 12).flatMap (fun w => chk (!s.flag (F.IO_PWM_CFG_EN w) || decide (2 ≤ s.get (F.IO_PWM_PERIOD w))) (F.IO_PWM_PERIOD w)) ++
  ((List.range 2).filter (fun c => s.flag (F.IO_CAN_CTRL_EN c))).flatMap s.checkCan

/-! ### The whole check -/

/-- The least of a list of addresses. -/
def lowestOf : List Nat → Option Nat
  | [] => none
  | a :: as => match lowestOf as with
    | some b => some (min a b)
    | none => some a

/-- Failures in the blocks up to DS (the blocks 0 to 6), with the bad type-6 records there (R341). -/
def State.checkLow (s : State) : List Nat :=
  s.checkGlb ++ s.checkTb ++ s.checkIg ++ s.checkFu ++ s.checkPt ++ s.checkTl ++ s.checkDs ++ s.bt.badRecs.filter (fun a => decide (a < 0x70000))

/-- Failures in the blocks after DS; `v` is the state with VALID set in the slots. -/
def State.checkHigh (s v : State) : List Nat :=
  s.checkAt ++ s.checkCb ++ s.checkSv v ++ s.checkCl ++ s.checkMj ++ s.checkEv ++ s.checkSf ++ s.checkRc ++ s.checkPw ++ s.checkHp ++
    s.checkLk ++ s.checkEn ++ s.checkIo ++ s.bt.badRecs.filter (fun a => decide (0x70000 ≤ a))

/-- The configuration check (R343 step 7): the state it leaves, and the address of the first failing check in base order. -/
def State.checkConfig (s : State) : State × Option Nat :=
  match lowestOf s.checkLow with
  | some a => (if a == F.DS_ERR_LAST_CODE.addr then s.noteBadSlot else s, some a)
  | none =>
    let v := s.validateSlots
    (v, lowestOf (s.checkHigh v))

end Sys2Proof.Machine
end

