-- ==== Sys2Proof/Machine/Crypto.lean ====
section
/-! DEFINITION. The digest SM3 and the verification of SM2 signatures that boot uses (R339, R340), as the Chinese national standards GB/T 32905 and GB/T 32918 define them (log entry 13: the manual names them and does not print them). -/

namespace Sys2Proof.Machine

/-! ### SM3 -/

/-- A word rotated left. -/
def rotl (w : BitVec 32) (n : Nat) : BitVec 32 := w.rotateLeft n

/-- P0 of SM3. -/
def sm3P0 (x : BitVec 32) : BitVec 32 := x ^^^ rotl x 9 ^^^ rotl x 17

/-- P1 of SM3. -/
def sm3P1 (x : BitVec 32) : BitVec 32 := x ^^^ rotl x 15 ^^^ rotl x 23

/-- Big-endian words of a run of bytes (`k` words). -/
def beWords : Nat → Bytes → List (BitVec 32)
  | 0, _ => []
  | k + 1, bs => BitVec.ofNat 32 (beNat (bs.take 4)) :: beWords k (bs.drop 4)

/-- The message expansion: `w` holds the words so far, newest first; `k` words are added. -/
def sm3Expand : Nat → List (BitVec 32) → List (BitVec 32)
  | 0, w => w
  | k + 1, w =>
    let at_ (j : Nat) : BitVec 32 := w.getD (j - 1) 0
    let v := sm3P1 (at_ 16 ^^^ at_ 9 ^^^ rotl (at_ 3) 15) ^^^ rotl (at_ 13) 7 ^^^ at_ 6
    sm3Expand k (v :: w)

/-- The eight chaining words. -/
structure Sm3 where
  a : BitVec 32
  b : BitVec 32
  c : BitVec 32
  d : BitVec 32
  e : BitVec 32
  f : BitVec 32
  g : BitVec 32
  h : BitVec 32
  deriving DecidableEq, Repr

/-- The initial value. -/
def Sm3.iv : Sm3 := ⟨0x7380166f, 0x4914b2b9, 0x172442d7, 0xda8a0600, 0xa96f30bc, 0x163138aa, 0xe38dee4d, 0xb0fb0e4e⟩

/-- Round j of the compression. -/
def Sm3.round (j : Nat) (w w4 : BitVec 32) (v : Sm3) : Sm3 :=
  let t : BitVec 32 := if j < 16 then 0x79cc4519 else 0x7a879d8a
  let ss1 := rotl (rotl v.a 12 + v.e + rotl t (j % 32)) 7
  let ss2 := ss1 ^^^ rotl v.a 12
  let ff := if j < 16 then v.a ^^^ v.b ^^^ v.c else (v.a &&& v.b) ||| (v.a &&& v.c) ||| (v.b &&& v.c)
  let gg := if j < 16 then v.e ^^^ v.f ^^^ v.g else (v.e &&& v.f) ||| (~~~v.e &&& v.g)
  let tt1 := ff + v.d + ss2 + (w ^^^ w4)
  let tt2 := gg + v.h + ss1 + w
  ⟨tt1, v.a, rotl v.b 9, v.c, sm3P0 tt2, v.e, rotl v.f 19, v.g⟩

/-- `k` rounds over the expanded words, from round j on. -/
def Sm3.rounds : Nat → Nat → List (BitVec 32) → Sm3 → Sm3
  | 0, _, _, v => v
  | k + 1, j, ws, v => Sm3.rounds k (j + 1) ws.tail (v.round j (ws.headD 0) (ws.getD 4 0))

/-- One 64-byte block. -/
def Sm3.block (v : Sm3) (bs : Bytes) : Sm3 :=
  let ws := (sm3Expand 52 (beWords 16 bs).reverse).reverse
  let r := v.rounds 64 0 ws
  ⟨v.a ^^^ r.a, v.b ^^^ r.b, v.c ^^^ r.c, v.d ^^^ r.d, v.e ^^^ r.e, v.f ^^^ r.f, v.g ^^^ r.g, v.h ^^^ r.h⟩

/-- `k` blocks. -/
def Sm3.blocks : Nat → Bytes → Sm3 → Sm3
  | 0, _, v => v
  | k + 1, bs, v => Sm3.blocks k (bs.drop 64) (v.block (bs.take 64))

/-- The SM3 digest, most significant byte first. -/
def sm3 (bs : Bytes) : Bytes :=
  let n := bs.length
  let padded := bs ++ [0x80] ++ zerosB ((64 - (n + 9) % 64) % 64) ++ beBytes 8 (8 * n)
  let v := Sm3.iv.blocks (padded.length / 64) padded
  [v.a, v.b, v.c, v.d, v.e, v.f, v.g, v.h].flatMap (fun w => beBytes 4 w.toNat)

/-! ### SM2 -/

/-- The prime of the curve. -/
def sm2P : Nat := 0xFFFFFFFEFFFFFFFFFFFFFFFFFFFFFFFFFFFFFFFF00000000FFFFFFFFFFFFFFFF
/-- Coefficient a. -/
def sm2A : Nat := 0xFFFFFFFEFFFFFFFFFFFFFFFFFFFFFFFFFFFFFFFF00000000FFFFFFFFFFFFFFFC
/-- Coefficient b. -/
def sm2B : Nat := 0x28E9FA9E9D9F5E344D5A9E4BCF6509A7F39789F515AB8F92DDBCBD414D940E93
/-- The order of the base point. -/
def sm2N : Nat := 0xFFFFFFFEFFFFFFFFFFFFFFFFFFFFFFFF7203DF6B21C6052B53BBF40939D54123
/-- The base point. -/
def sm2Gx : Nat := 0x32C4AE2C1F1981195F9904466A39C9948FE30BBFF2660BE1715A4589334C74C7
/-- The base point. -/
def sm2Gy : Nat := 0xBC3736A2F4F6779C59BDCEE36B692153D0A9877CC62A474002DF32E52139F0A0

/-- A point in Jacobian coordinates; z = 0 is the point at infinity. -/
structure EcPoint where
  x : Nat
  y : Nat
  z : Nat
  deriving DecidableEq, Repr

/-- Difference modulo the prime. -/
def subP (a b : Nat) : Nat := (a + sm2P - b % sm2P) % sm2P

/-- Twice a point. -/
def EcPoint.dbl (p : EcPoint) : EcPoint :=
  if p.z == 0 || p.y == 0 then ⟨1, 1, 0⟩
  else
    let yy := p.y * p.y % sm2P
    let s := 4 * p.x * yy % sm2P
    let zz := p.z * p.z % sm2P
    let m := (3 * p.x * p.x + sm2A * (zz * zz % sm2P)) % sm2P
    let x := subP (m * m % sm2P) (2 * s)
    ⟨x, subP (m * subP s x % sm2P) (8 * (yy * yy % sm2P)), 2 * p.y * p.z % sm2P⟩

/-- The sum of two points. -/
def EcPoint.add (p q : EcPoint) : EcPoint :=
  if p.z == 0 then q
  else if q.z == 0 then p
  else
    let z1 := p.z * p.z % sm2P
    let z2 := q.z * q.z % sm2P
    let u1 := p.x * z2 % sm2P
    let u2 := q.x * z1 % sm2P
    let s1 := p.y * (z2 * q.z % sm2P) % sm2P
    let s2 := q.y * (z1 * p.z % sm2P) % sm2P
    if u1 == u2 then (if s1 == s2 then p.dbl else ⟨1, 1, 0⟩)
    else
      let h := subP u2 u1
      let r := subP s2 s1
      let hh := h * h % sm2P
      let hhh := hh * h % sm2P
      let v := u1 * hh % sm2P
      let x := subP (subP (r * r % sm2P) hhh) (2 * v)
      ⟨x, subP (r * subP v x % sm2P) (s1 * hhh), h * (p.z * q.z % sm2P) % sm2P⟩

/-- A multiple of a point by the lowest `k` bits of n. -/
def EcPoint.mul (p : EcPoint) (n : Nat) : Nat → EcPoint
  | 0 => ⟨1, 1, 0⟩
  | k + 1 =>
    let q := (EcPoint.mul p (n / 2) k).dbl
    if n % 2 = 1 then q.add p else q

/-- b to the power e modulo m, over the lowest `k` bits of e. -/
def powMod (m b e : Nat) : Nat → Nat
  | 0 => 1 % m
  | k + 1 =>
    let h := powMod m b (e / 2) k
    let hh := h * h % m
    if e % 2 = 1 then hh * b % m else hh

/-- The affine x coordinate. -/
def EcPoint.affineX (p : EcPoint) : Nat := p.x * powMod sm2P (p.z * p.z % sm2P) (sm2P - 2) 256 % sm2P

/-- The identifier an SM2 signature is made under (R339). -/
def sm2Id : Bytes := [0x45, 0x47, 0x4D, 0x2D, 0x32, 0x34, 0x34, 0x30]

/-- Z_A of SM2: the digest of the identifier, the curve and the key. -/
def sm2Za (x y : Nat) : Bytes :=
  sm3 (beBytes 2 (8 * sm2Id.length) ++ sm2Id ++ beBytes 32 sm2A ++ beBytes 32 sm2B ++ beBytes 32 sm2Gx ++ beBytes 32 sm2Gy ++ beBytes 32 x ++ beBytes 32 y)

/-- The SM2 signature (r, s) over a message verifies under the key (x, y). -/
def sm2Verify (x y r s : Nat) (message : Bytes) : Bool :=
  let onCurve := decide (x < sm2P) && decide (y < sm2P) && y * y % sm2P == (x * x % sm2P * x + sm2A * x + sm2B) % sm2P
  let inRange := decide (1 ≤ r) && decide (r < sm2N) && decide (1 ≤ s) && decide (s < sm2N)
  let e := beNat (sm3 (sm2Za x y ++ message))
  let t := (r + s) % sm2N
  let g : EcPoint := ⟨sm2Gx, sm2Gy, 1⟩
  let q := (g.mul s 256).add (EcPoint.mul ⟨x, y, 1⟩ t 256)
  onCurve && inRange && t != 0 && q.z != 0 && (e + q.affineX) % sm2N == r

end Sys2Proof.Machine
end

