-- ==== Sys2Proof/Machine/ImageOps.lean ====
section
/-! DEFINITION. The configuration image in NVM: header, manifest, entries, sections, type-6 records (R339 to R342), and what goes into the shadow area (R354). -/

namespace Sys2Proof.Machine

/-- An unlisted NVM byte reads as erased flash (log entry 9). -/
def nvmDefault (_ : Nat) : Byte := 0xFF

/-- `n` bytes of NVM from byte `a`. -/
def State.nvmRead (s : State) (a n : Nat) : Bytes := (List.range n).map (fun i => Memory.read nvmDefault s.nvm (a + i))

/-- Boot's own state changed. -/
def State.setBt (s : State) (f : BtState → BtState) : State := { s with bt := f s.bt }

/-! ### Header and manifest head (R339, R340, R342) -/

/-- The offset of the first failing field of a list of (passes, offset). -/
def firstFail : List (Bool × Nat) → Option Nat
  | [] => none
  | (ok, ofs) :: rest => if ok then firstFail rest else some ofs

/-- Bytes are all zero. -/
def allZero (bs : Bytes) : Bool := bs.all (fun b => b == 0)

/-- The header's fields in order (R339, R342). -/
def headerFault (h : Bytes) : Option Nat :=
  let ofs := fieldB h 8 4
  let len := fieldB h 0x0C 4
  firstFail [(fieldB h 0 4 == 0x4D495952, 0x00), (fieldB h 4 1 == 1, 0x04), (fieldB h 5 3 == 0, 0x05),
    (ofs % 256 == 0 && decide (ofs + len ≤ 2 ^ 29), 0x08), (len % 64 == 0 && within 128 len (64 + 64 * 1023), 0x0C),
    (allZero (sliceB h 0x90 0x70), 0x90)]

/-- The manifest head's fields in order (R340, R342); `len` is the manifest's length by the header. -/
def manifestFault (m : Bytes) (len : Nat) : Option Nat :=
  let n := fieldB m 4 2
  firstFail [(decide (fieldB m 0 1 ≤ 63), 0x00), (within 1 (fieldB m 1 1) 12, 0x01), (decide (fieldB m 2 1 < 2), 0x02), (fieldB m 3 1 == 0, 0x03),
    (within 1 n 1023 && len == 64 + 64 * n, 0x04), (fieldB m 6 2 == 0, 0x06), (allZero (sliceB m 0x10 0x30), 0x10)]

/-- The section entries of a manifest. -/
def entries (m : Bytes) : List Bytes := (List.range (fieldB m 4 2)).map (fun i => sliceB m (64 + 64 * i) 64)

/-- The limit of a section type that does not depend on the array (R340). -/
def sectionLimit (t : Nat) : Nat :=
  match t with
  | 1 => 2 ^ 18
  | 2 => 2 ^ 17
  | 3 => 2 ^ 21
  | 6 => 8 * 65536
  | _ => 2 ^ 32

/-- The fields of a manifest entry in order (R340, R342); `image` is the image's length. -/
def entryFault (image : Nat) (e : Bytes) : Option Nat :=
  let t := fieldB e 0 1
  let target := fieldB e 0x10 8
  firstFail [(within 1 t 6, 0x00), (t == 4 || fieldB e 1 1 == 0, 0x01), (fieldB e 2 2 == 0, 0x02), (fieldB e 4 4 % 256 == 0, 0x04),
    (decide (fieldB e 4 4 + fieldB e 8 4 ≤ image) && decide (fieldB e 8 4 ≤ sectionLimit t), 0x08), (fieldB e 0x0C 4 == 0, 0x0C),
    (t == 4 || t == 5 || (if t == 1 then decide (target < 8) else target == 0), 0x10), (allZero (sliceB e 0x38 8), 0x38)]

/-- The first failing entry field, as an offset in the manifest. -/
def entriesFault (image : Nat) : Nat → List Bytes → Option Nat
  | _, [] => none
  | i, e :: rest => match entryFault image e with
    | some ofs => some (64 + 64 * i + ofs)
    | none => entriesFault image (i + 1) rest

/-! ### Sections (R340, R341) -/

/-- A section is loaded when the array has c logical columns. -/
def loaded (c : Nat) (e : Bytes) : Bool := fieldB e 0 1 != 4 || fieldB e 1 1 == c

/-- The manifest entries with layouts for c columns. -/
def layouts (c : Nat) (es : List Bytes) : List Nat :=
  (List.range es.length).filter (fun i => fieldB (es.getD i []) 0 1 == 4 && fieldB (es.getD i []) 1 1 == c)

/-- A type-6 record applied (R341): the LK bits of the register it names; a record of another register, or with other bits, is kept for the configuration check. -/
def State.applySetting (s : State) (a v : Nat) : State :=
  match regRow? a with
  | some row =>
    let mask := row.lockedMask
    if mask != 0 && v &&& (0xFFFFFFFF - mask) == 0 then
      s.writeReg a (BitVec.ofNat 32 ((s.readReg a).toNat &&& (0xFFFFFFFF - mask) ||| v))
    else s.setBt (fun b => { b with badRecs := a :: b.badRecs })
  | none => s.setBt (fun b => { b with badRecs := a :: b.badRecs })

/-- The records of a type-6 section in order (`n` of them). -/
def State.applySettings (s : State) : Nat → Bytes → State
  | 0, _ => s
  | n + 1, bs => (s.applySetting (fieldB bs 0 4) (fieldB bs 4 4)).applySettings n (bs.drop 8)

/-- A section's bytes put where its type says (R340). -/
def State.placeSection (s : State) (e data : Bytes) : State :=
  match fieldB e 0 1 with
  | 1 => s.setBt (fun b => { b with code := assocPut (fieldB e 0x10 1) data b.code })
  | 2 => s.setBt (fun b => { b with code := assocPut 8 data b.code })
  | 3 => { s with sv := { s.sv with image := data } }
  | 6 => s.applySettings (data.length / 8) data
  | _ => s.dramWrite (fieldB e 0x10 8) data

/-- Types whose sections the shadow area keeps (R354). -/
def shadowed (e : Bytes) : Bool := [1, 2, 3, 6].contains (fieldB e 0 1)

/-- A DRAM section lies in the mapped local view (R150, R340). -/
def State.targetOk (s : State) (e : Bytes) : Bool :=
  !(fieldB e 0 1 == 4 || fieldB e 0 1 == 5) || decide (fieldB e 0x10 8 + fieldB e 8 4 ≤ s.tiles * 2 ^ 28)

end Sys2Proof.Machine
end

