-- ==== Sys2Proof/Machine/PointOps.lean ====
section
/-! DEFINITION. The point engine: decimation, keys, the leaf table, the octree interior, and the queries over a build (R128 to R145). -/

namespace Sys2Proof.Machine

/-- A result's points: the merged samples of its kind-2 streams, in the order of R99 (R128). -/
def State.resultPoints (s : State) (r : Result) : List Sample := r.samples.filter (fun x => s.kindOf x.stream == 2)

/-! ### Motion compensation (R105, R106, R213) -/

/-- T(t), Q(r) and E_nom of the extrinsic E = T(t)·Q(r)·E_nom of stream n under corrections c (R213); a stream without a slot has none. -/
def State.extrinsic (s : State) (n : Nat) (c : CbCommit) : List Int :=
  match (List.range (s.get F.CB_SLOTS)).find? (fun i => s.flag (F.CB_C_CFG_EN i) && s.get (F.CB_C_CFG_STREAM i) == n) with
  | some i =>
    let cor := fun p => (c.cor.getD i []).getD p 0
    (List.range 3).map cor ++ normalise [2 ^ 30, cor 3 / 2, cor 4 / 2, cor 5 / 2] ++
      (List.range 3).map (fun j => s.getI (F.CB_C_NOM_T i j)) ++ (List.range 4).map (fun j => s.getI (F.CB_C_NOM_Q i j))
  | none => []

/-- The records of body b in the body ring a result holds, newest first (R240). -/
def Result.bodyRing (r : Result) (b : Nat) : List Bytes := r.bodies.filterMap (fun l => l[b]?)

/-- What pose(t_k)⁻¹ · pose_b(s) · E of a sample of stream n is composed of, in a result with corrections c: pose(t_k), the trajectory's pose and the body's published pose at s + τ, and E (R105, R106, R213). -/
def State.poseOperands (s : State) (r : Result) (n time : Nat) (c : CbCommit) : List Nat :=
  let at_ : Int := (time : Int) + s.tauOf c n
  (poseAt r.poses r.t ++ poseAt r.poses at_ ++ poseAt (r.bodyRing (Config.bodyOf n)) at_ ++ s.extrinsic n c).map (patternOf 64)

/-- The relative pose of a camera frame or of a line of a line-scan band: translation and quaternion (R106; the order of its integer operations is not given, log entry 35). -/
def State.relativePose (s : State) (r : Result) (n time : Nat) (c : CbCommit) : List Nat :=
  (List.range 7).map (fun j => Config.relativePose j (s.poseOperands r n time c) % 2 ^ 32)

/-- The corrections a sealed result uses: those of its epoch (R214). -/
def State.cbOfResult (s : State) (r : Result) : CbCommit := (s.cb.commits.find? (fun c => c.epoch == r.epoch)).getD (s.cbInForce r.rs r.t)

/-- A point's three coordinates in the grid frame (R106, R128): functions of its record and its pose operands. -/
def State.gridPoint (s : State) (r : Result) (x : Sample) (c : CbCommit) : List Int :=
  let ops := leNat (x.data.take 12) :: s.poseOperands r x.stream x.time c
  (List.range 3).map (fun a => signedOf 32 (Config.gridCoord a ops))

/-! ### Decimation (R129) -/

/-- The points a stride keeps of streams with counts `ns`. -/
def keptBy (ns : List Nat) (stride : Nat) : Nat := (ns.map (fun n => cdiv n stride)).sum

/-- The smallest stride from `a` upwards, of `n` tried, that keeps at most `most` points. -/
def strideFrom (ns : List Nat) (most a : Nat) : Nat → Nat
  | 0 => a
  | n + 1 => if keptBy ns a ≤ most then a else strideFrom ns most (a + 1) n

/-- Points of each stream present. -/
def streamCounts (xs : List Sample) : List Nat := (List.range 48).map (fun n => (xs.filter (fun x => x.stream == n)).length)

/-- The stride of R129. -/
def strideOf (xs : List Sample) (most : Nat) : Nat :=
  if xs.length ≤ most then 1 else strideFrom (streamCounts xs) most 2 xs.length

/-- Each point with its index within its stream, in the order given (R128). -/
def withIndex (xs : List Sample) : List (Sample × Nat) :=
  (List.range 48).flatMap (fun n => (xs.filter (fun x => x.stream == n)).zipIdx)

/-! ### Keys (R130 to R132) -/

/-- Bits 0 to 20 of a coordinate spread to every third bit. -/
def spread3 : Nat → Nat → Nat
  | 0, _ => 0
  | n + 1, x => x % 2 + 8 * spread3 n (x / 2)

/-- The Morton code of a voxel (R132). -/
def morton (v : List Nat) : Nat := spread3 21 (v.getD 0 0) + 2 * spread3 21 (v.getD 1 0) + 4 * spread3 21 (v.getD 2 0)

/-- The region's origin along an axis. -/
def State.roiMin (s : State) (a : Nat) : Int :=
  match a with
  | 0 => s.getI F.PT_ROI_MIN_X
  | 1 => s.getI F.PT_ROI_MIN_Y
  | _ => s.getI F.PT_ROI_MIN_Z

/-- The region's extent along an axis, voxels. -/
def State.roiExt (s : State) (a : Nat) : Nat :=
  match a with
  | 0 => s.get F.PT_ROI_EXT_X
  | 1 => s.get F.PT_ROI_EXT_Y
  | _ => s.get F.PT_ROI_EXT_Z

/-- The position q of a coordinate along an axis; none outside the region (R130). -/
def State.axisPos (s : State) (a : Nat) (x : Int) : Option Nat :=
  let d := x - s.roiMin a
  let q := d / ((s.get F.PT_QCFG * 16 : Nat) : Int)
  if d < 0 || decide ((s.roiExt a : Int) ≤ q / 16) then none else some q.toNat

/-- A voxel lies in corridor box b (R131). -/
def State.inBox (s : State) (v : List Nat) (b : Nat) : Bool :=
  decide (s.get (F.PT_ZONE_BOX_XLO b) ≤ v.getD 0 0) && decide (v.getD 0 0 ≤ s.get (F.PT_ZONE_BOX_XHI b)) &&
  decide (s.get (F.PT_ZONE_BOX_YLO b) ≤ v.getD 1 0) && decide (v.getD 1 0 ≤ s.get (F.PT_ZONE_BOX_YHI b)) &&
  decide (s.get (F.PT_ZONE_BOX_ZLO b) ≤ v.getD 2 0) && decide (v.getD 2 0 ≤ s.get (F.PT_ZONE_BOX_ZHI b))

/-- The zone of a voxel (R131). -/
def State.zoneOf (s : State) (v : List Nat) : Nat := if (List.range (s.get F.PT_ZONE_CFG)).any (s.inBox v) then 0 else 1

/-- The key of a voxel (R132). -/
def State.keyOf (s : State) (v : List Nat) : Nat := s.zoneOf v * 2 ^ 63 + morton v

/-- A kept point at its grid coordinates (R130 to R132). -/
def State.pointAt (s : State) (x : Sample) (p : List Int) : PtPoint :=
  match s.axisPos 0 (p.getD 0 0), s.axisPos 1 (p.getD 1 0), s.axisPos 2 (p.getD 2 0) with
  | some qx, some qy, some qz =>
    let v := [qx / 16, qy / 16, qz / 16]
    ⟨x.stream, x.time, some (s.keyOf v), v, [qx % 16, qy % 16, qz % 16]⟩
  | _, _, _ => ⟨x.stream, x.time, none, [], []⟩

/-- The attribute record of a kept point (R128). -/
def attrRecord (x : Sample) (idx tk : Nat) (p : List Int) : Bytes :=
  (p.flatMap (fun c => leBytes 4 (patternOf 32 c))) ++ leBytes 4 (patternOf 32 ((x.time : Int) - tk)) ++ sliceB x.data 12 2 ++
    [BitVec.ofNat 8 x.stream, BitVec.ofNat 8 (b2n x.fallback)] ++ leBytes 4 idx ++ zerosB 8

/-! ### Stages (R133 to R139) -/

/-- A build's state changed. -/
def State.setPt (s : State) (b : PtBuild) : State := { s with pt := some b }

/-- The build begins: the stride is fixed from the counts (R129, R139). -/
def State.startBuild (s : State) (owner : Nat) (attr scr : Desc) (r : Result) : State :=
  let xs := s.resultPoints r
  let stride := strideOf xs (s.get F.PT_PTS_MAX)
  let s := s.setPt ⟨owner, r.rs, r.k, r.t, stride, attr, scr, [], [], 0, [], []⟩
  let s := ((s.set F.PT_STATUS_STAGE 1).set F.PT_LAST_RAW xs.length).set F.PT_LAST_STRIDE stride
  let s := (s.set F.PT_LAST_RESULT (r.k % 2 ^ 32)).set F.PT_LAST_SET r.rs
  if 1 < stride then s.incSat F.PT_DECIM_CNT else s

/-- Every kept point read: attribute records written, keys formed (R128, R130, R139). -/
def State.ingestBuild (s : State) (b : PtBuild) : State :=
  match s.result? b.rs b.k with
  | none => (s.setPt b).set F.PT_STATUS_STAGE 2
  | some r =>
    let c := s.cbOfResult r
    let kept := (withIndex (s.resultPoints r)).filter (fun x => x.2 % b.stride == 0)
    let placed := kept.map (fun x => (x, s.gridPoint r x.1 c))
    let points := placed.map (fun x => s.pointAt x.1.1 x.2)
    let s := (List.range placed.length).foldl (fun s i =>
      match placed[i]? with
      | some x => s.dramWrite (b.attr.base + 32 * i) (attrRecord x.1.1 x.1.2 b.tk x.2)
      | none => s) s
    let pairs := points.zipIdx.filterMap (fun x => x.1.key.map (fun k => (k, x.2)))
    let s := s.setPt { b with points := points, pairs := pairs }
    let s := (s.set F.PT_LAST_IN points.length).set F.PT_LAST_ROI_OUT (points.length - pairs.length)
    (s.set F.PT_LAST_KEYS pairs.length).set F.PT_STATUS_STAGE 2

/-- Sorrel is done: the pairs in ascending key, equal keys in ascending point index (R133); its working area holds open values. -/
def State.sortBuild (s : State) (b : PtBuild) : State :=
  let s := (List.range (24 * b.pairs.length)).foldl (fun s i => s.dramPut (b.scr.base + i) (Config.sorrelByte s.freeCtr i)) s
  ((s.nextFree).setPt { b with pairs := sortByKey (fun p => p.1) b.pairs }).set F.PT_STATUS_STAGE 3

/-- e of R135. -/
def centreError (f : List Nat) : Nat :=
  (f.map (fun (x : Nat) => let d : Int := 2 * Int.ofNat x - 15; (d * d).toNat)).sum

/-- Point a beats point b in their cell (R135). -/
def beats (tk : Nat) (a b : Nat × PtPoint) : Bool :=
  let ea := centreError a.2.frac
  let eb := centreError b.2.frac
  let ta := ((a.2.time : Int) - tk).natAbs
  let tb := ((b.2.time : Int) - tk).natAbs
  if ea != eb then decide (ea < eb) else if ta != tb then decide (ta < tb)
  else if a.2.stream != b.2.stream then decide (a.2.stream < b.2.stream) else decide (a.1 < b.1)

/-- Runs of pairs with one key, as (key, point indices). -/
def cellsOf (pairs : List (Nat × Nat)) : List (Nat × List Nat) :=
  pairs.foldr (fun p acc => match acc with
    | (k, is) :: rest => if k == p.1 then (k, p.2 :: is) :: rest else (p.1, [p.2]) :: acc
    | [] => [(p.1, [p.2])]) []

/-- The leaf of a cell (R134, R135). -/
def leafOf (tk : Nat) (points : List PtPoint) (cell : Nat × List Nat) : PtLeaf :=
  let none_ : PtPoint := ⟨0, 0, none, [], []⟩
  let cand := cell.2.map (fun i => (i, points.getD i none_))
  match cand with
  | [] => ⟨cell.1, 0, 0, 0, [], []⟩
  | c :: cs =>
    let w := cs.foldl (fun w x => if beats tk x w then x else w) c
    ⟨cell.1, w.1, w.2.stream, cell.2.length, w.2.voxel, w.2.frac⟩

/-- The 16 bytes of a leaf entry (R134). -/
def PtLeaf.bytes (l : PtLeaf) : Bytes :=
  leBytes 8 l.key ++ leBytes 4 (l.point % 2 ^ 20 + 2 ^ 20 * l.stream) ++ leBytes 2 (satNat 16 l.count) ++
    leBytes 2 (l.frac.getD 0 0 + 16 * l.frac.getD 1 0 + 256 * l.frac.getD 2 0 + 4096 * b2n (decide (65535 < l.count)))

/-- The last pair is read: leaves, and what was dropped (R134, R136). -/
def State.leafBuild (s : State) (b : PtBuild) : State :=
  let cells := cellsOf b.pairs
  let most := s.get F.PT_LEAF_MAX
  let leaves := (cells.take most).map (leafOf b.tk b.points)
  let lost := cells.drop most
  let s := s.setPt { b with cells := cells.length, leaves := leaves }
  let s := (s.set F.PT_LAST_CELLS cells.length).set F.PT_LAST_LEAVES leaves.length
  let s := s.set F.PT_LAST_ZONE0 (leaves.filter (fun l => decide (l.key < 2 ^ 63))).length
  let s := (s.set F.PT_LAST_DROP_CELLS lost.length).set F.PT_LAST_DROP_PTS ((lost.map (fun c => c.2.length)).sum)
  s.set F.PT_STATUS_STAGE 4

/-- A key's prefix at level l: bits below 3(21 - l) zero (R138). -/
def prefixAt (l key : Nat) : Nat := key / 2 ^ (3 * (21 - l)) * 2 ^ (3 * (21 - l))

/-- A rising list without repeats. -/
def dedupSorted : List Nat → List Nat
  | [] => []
  | x :: xs => match dedupSorted xs with
    | [] => [x]
    | y :: ys => if x == y then y :: ys else x :: y :: ys

/-- The nodes of level l by their keys, ascending (R138). -/
def levelKeys (keys : List Nat) (l : Nat) : List Nat := dedupSorted (keys.map (prefixAt l))

/-- Nodes on levels 0 to l. -/
def nodesTo (keys : List Nat) (l : Nat) : Nat := ((List.range (l + 1)).map (fun j => (levelKeys keys j).length)).sum

/-- The base the interior ends at (R138): one level toward the root while the nodes exceed 131,072. -/
def finalBase (keys : List Nat) : Nat → Nat
  | 0 => 0
  | l + 1 => if 131072 < nodesTo keys (l + 1) && l != 0 then finalBase keys l else l + 1

/-- The octant of a key below level l. -/
def octantAt (l key : Nat) : Nat := key / 2 ^ (3 * (20 - l)) % 8

/-- The 24 bytes of an interior node (R138). -/
def nodeBytes (keys : List Nat) (base l key : Nat) : Bytes :=
  let under := (keys.zipIdx).filter (fun x => prefixAt l x.1 == key)
  let mask := (List.range 8).foldl (fun m o => putBit m o (under.any (fun x => octantAt l x.1 == o))) 0
  let child := if l == base then 0xFFFFFFFF
    else nodesTo keys l + ((levelKeys keys (l + 1)).filter (fun c => decide (c < key))).length
  leBytes 8 key ++ [BitVec.ofNat 8 l, BitVec.ofNat 8 mask, 0, 0] ++
    leBytes 4 ((under.map (fun x => x.2)).headD 0) ++ leBytes 4 under.length ++ leBytes 4 child

/-- The interior is done: nodes, base, PT_OVF passed to the result (R137, R138). -/
def State.interiorBuild (s : State) (b : PtBuild) : State :=
  let keys := b.leaves.map (fun l => l.key)
  let start := s.get F.PT_OCT_CFG
  let base := finalBase keys start
  let nodes := (List.range (base + 1)).flatMap (fun l => (levelKeys keys l).map (nodeBytes keys base l))
  let s := s.setPt { b with nodes := nodes }
  let s := (s.set F.PT_LAST_NODES nodes.length).set F.PT_LAST_BASE base
  let s := s.addSat F.PT_BASE_RAISE (start - base)
  let ovf := decide (1 < b.stride) || decide (b.leaves.length < b.cells)
  let s := (s.setFlag F.PT_STATUS_OVF_LAST ovf).set F.PT_STATUS_STAGE 5
  let counted := match s.result? b.rs b.k with
    | some r => r.ptOvf
    | none => false
  if ovf && !counted then ((s.mapResult b.rs b.k (fun r => { r with ptOvf := true })).incSat F.PT_OVF_CNT).raise 0x111 else s

/-- The build released (R139): stage 0, BUILDS, event 0x110. -/
def State.releaseBuild (s : State) : State :=
  let s := { s with pt := none }
  ((s.set F.PT_STATUS_STAGE 0).incWrap F.PT_STATUS_BUILDS).raise 0x110

/-- The build of a list discarded: its result leaves partial (R139). -/
def State.discardBuild (s : State) (owner : Nat) : State :=
  match s.pt with
  | some b => if b.owner == owner then (({ s with pt := none }).set F.PT_STATUS_STAGE 0).markPartial [(b.rs, b.k)] else s
  | none => s

/-- The list that takes a passed build over: the one whose trigger is the completion of `n` (R264). -/
def State.heirOf (s : State) (n : Nat) : Option Nat :=
  s.lists.find? (fun m => (s.listHdr m).kind == 5 && (s.listHdr m).trigRef == n)

/-- END of a list that holds the build: released, or passed on (R139, R264). -/
def State.endBuild (s : State) (owner : Nat) (keep : Bool) : State :=
  match s.pt with
  | some b =>
    if b.owner != owner then s
    else if keep then (match s.heirOf owner with
      | some m => s.setPt { b with owner := m }
      | none => s)
    else s.releaseBuild
  | none => s

/-! ### POINT_BUILD (R128, R139) -/

/-- Descriptors and result at hand, the build begins. -/
def State.beginBuild (s : State) (i : Inst) (record : Bytes) : State × CmdEnd :=
  s.withDesc i (s.get F.PT_ATTR_DESC) fun s attr => s.withDesc i (s.get F.PT_SCR_DESC) fun s scr =>
    match i.bound[bitsOf (fieldB record 8 1) 0 4]? with
    | none => (s, .done)
    | some b => match s.result? b.1 b.2 with
      | none => (s, .done)
      | some r => (s.startBuild i.list attr scr r, .busy)

/-- POINT_BUILD of an instance: it starts, waits for another list's build, counted once (R139), or has no result to build from. -/
def State.pointBuildBody (s : State) (i : Inst) (record : Bytes) : State × CmdEnd :=
  match s.pt with
  | some b =>
    if b.owner == i.list && s.get F.PT_STATUS_STAGE != 5 then (s, .busy)
    else if b.owner != i.list then (if i.waited then s else s.incSat F.PT_WAIT, .wait .build)
    else s.beginBuild i record
  | none => s.beginBuild i record

/-! ### QUERY (R140 to R145) -/

/-- A leaf's position: 25 bits on each axis (R140). -/
def PtLeaf.pos (l : PtLeaf) : List Int := (List.range 3).map (fun a => ((16 * l.voxel.getD a 0 + l.frac.getD a 0 : Nat) : Int))

/-- d² between two positions (R140). -/
def dist2 (p q : List Int) : Nat :=
  ((List.range 3).map (fun a => let d := p.getD a 0 - q.getD a 0; (d * d).toNat)).sum

/-- A query point: its position, and the leaf left out of its own answer. -/
structure QueryPoint where
  pos : List Int
  skip : Option Nat
  deriving DecidableEq, Repr

/-- Leaves with their distance to a query point, in ascending leaf index. -/
def distances (leaves : List PtLeaf) (q : QueryPoint) : List (Nat × Nat) :=
  (leaves.zipIdx).filterMap (fun x => if q.skip == some x.2 then none else some (x.2, dist2 x.1.pos q.pos))

/-- A query's answer: slots (leaf index, d²) and the count (R141, R142). -/
def answerQuery (leaves : List PtLeaf) (knn : Bool) (n radius : Nat) (q : QueryPoint) : List (Nat × Nat) × Nat :=
  let ds := distances leaves q
  if knn then
    let near := (sortByKey (fun x => x.2) ds).take n
    (near, near.length)
  else
    let hit := ds.filter (fun x => decide (x.2 ≤ radius * radius))
    (hit.take n, hit.length)

/-- Query j of a query tensor; none when it is invalid (R143). -/
def State.queryPoint (s : State) (leaves : List PtLeaf) (qd : Desc) (form exclSelf : Bool) (j : Nat) : Option QueryPoint :=
  if form then
    let p := (List.range 3).map (fun a => signedOf 32 (s.elAt qd [a, j]).code)
    if p.all (fun c => decide (0 ≤ c) && decide (c < 2 ^ 25)) then some ⟨p, none⟩ else none
  else
    let i := (s.elAt qd [j]).code
    match leaves[i]? with
    | some l => some ⟨l.pos, if exclSelf then some i else none⟩
    | none => none

/-- One query answered into the three tensors (R143). -/
def State.putAnswer (s : State) (ix dist cnt : Desc) (n j : Nat) (a : List (Nat × Nat) × Nat) : State :=
  let s := (List.range n).foldl (fun s i =>
    let e := a.1[i]?
    let s := s.elPut ix [i, j] ⟨match e with
      | some x => x.1
      | none => 0xFFFFFFFF, 0⟩
    s.elPut dist [i, j] ⟨match e with
      | some x => toFp32 (.fin false x.2 (-8))
      | none => 0x7F800000, 0⟩) s
  s.elPut cnt [j] ⟨a.2, 0⟩

/-- Ball and k-nearest queries (R141 to R143). Of a shape [queries, slots] the slots are dimension 0 and the queries dimension 1, and of a position tensor the coordinate is dimension 0 (DESIGN CHOICE, log entry 113). -/
def State.dillQuery (s : State) (i : Inst) (b : PtBuild) (record : Bytes) (knn : Bool) : State × CmdEnd :=
  s.withDesc i (fieldB record 16 2) fun s qd => s.withDesc i (fieldB record 18 2) fun s ix =>
  s.withDesc i (fieldB record 20 2) fun s dist => s.withDesc i (fieldB record 22 2) fun s cnt =>
    let form := bitOf (fieldB record 8 1) 2
    let n := fieldB record 9 1
    let isInt := fun (d : Desc) => d.elem == .q32 && d.qfrac == 0
    let nq := if form then qd.range 1 else qd.range 0
    if !(isInt qd && isInt ix && isInt cnt && dist.elem == .fp32) then (s, .error 0x06)
    else if (form && qd.size 0 != 3) || ix.size 0 != n || ix.range 1 != nq || dist.size 0 != n || dist.range 1 != nq || cnt.size 0 != nq then (s, .error 0x04)
    else
      let s := (List.range nq).foldl (fun s j =>
        match s.queryPoint b.leaves qd form (bitOf (fieldB record 8 1) 3) j with
        | some q => s.putAnswer ix dist cnt n j (answerQuery b.leaves knn n (fieldB record 12 3) q)
        | none => (s.incSat F.PT_QBAD).putAnswer ix dist cnt n j ([], 0)) s
      (s, .done)

/-- The column of a leaf in the map; none outside it (R144). -/
def State.column (s : State) (l : PtLeaf) : Option (Nat × Nat) :=
  let sh := 2 ^ s.get F.PT_BEV_CFG_SHIFT
  let dx : Int := (l.voxel.getD 0 0 : Int) - s.get F.PT_BEV_ORG_X
  let dy : Int := (l.voxel.getD 1 0 : Int) - s.get F.PT_BEV_ORG_Y
  let u := (dx / (sh : Int)).toNat
  let v := (dy / (sh : Int)).toNat
  if dx < 0 || dy < 0 || s.get F.PT_BEV_SIZE_NX ≤ u || s.get F.PT_BEV_SIZE_NY ≤ v then none else some (u, v)

/-- The attribute of a channel for a leaf (R145); intensity is that of the winner's attribute record. -/
def State.channelAttr (s : State) (b : PtBuild) (c : Nat) (l : PtLeaf) : Nat :=
  match s.get (F.PT_CH_OP_ATTR c) with
  | 0 => 16 * l.voxel.getD 2 0 + l.frac.getD 2 0
  | 1 => s.dramNat (b.attr.base + 32 * l.point + 16) 2
  | _ => satNat 16 l.count

/-- n / d as one value: 64 fraction bits and a sticky bit, so that one rounding of it is one rounding of the quotient. -/
def Fl.ratio (n d : Nat) : Fl :=
  let q := n * 2 ^ 64 / d
  .fin false (2 * q + b2n (n * 2 ^ 64 % d != 0)) (-65)

/-- Channel c of a column's leaves (R145). -/
def State.channel (s : State) (b : PtBuild) (c : Nat) (ls : List PtLeaf) : Fl :=
  let fill := fp32 (s.get F.PT_BEV_FILL)
  let attrs := ls.map (s.channelAttr b c)
  match s.get (F.PT_CH_OP_OP c) with
  | 0 => Fl.ofInt (if ls.isEmpty then 0 else 1)
  | 1 => Fl.ofInt ls.length
  | 2 => if ls.isEmpty then fill else Fl.ofInt (Int.ofNat (attrs.foldl max 0))
  | 3 => if ls.isEmpty then fill else Fl.ratio attrs.sum ls.length
  | _ => Fl.ofInt (ls.filter (fun l => decide (s.get (F.PT_CH_BAND_BAND_LO c) ≤ l.voxel.getD 2 0) && decide (l.voxel.getD 2 0 < s.get (F.PT_CH_BAND_BAND_HI c)))).length

/-- The dense bird's-eye map (R144, R145). -/
def State.denseQuery (s : State) (i : Inst) (b : PtBuild) (record : Bytes) : State × CmdEnd :=
  s.withDesc i (fieldB record 18 2) fun s d =>
    let nch := s.get F.PT_BEV_CFG_NCH
    let nx := s.get F.PT_BEV_SIZE_NX
    let ny := s.get F.PT_BEV_SIZE_NY
    if d.rank != 3 || d.size 0 != nch || d.size 1 != nx || d.size 2 != ny then (s, .error 0x04)
    else
      let s := s.addSat F.PT_BEV_OUT (b.leaves.filter (fun l => (s.column l).isNone)).length
      let s := (coordsOf [nx, ny]).foldl (fun s uv =>
        let ls := b.leaves.filter (fun l => s.column l == some (uv.getD 0 0, uv.getD 1 0))
        let e := encodeRow d.elem (s.flag F.TL_NUM_CFG) d.qfrac ((List.range nch).map (fun c => s.channel b c ls))
        (s.countNans e.nans).runPut d 0 uv e.els) s
      (s, .done)

/-- QUERY of an instance whose list holds a resident build (R139 to R145). -/
def State.queryBody (s : State) (i : Inst) (record : Bytes) : State × CmdEnd :=
  match s.pt with
  | some b =>
    if b.owner != i.list || s.get F.PT_STATUS_STAGE != 5 then (s, .done)
    else
      let s := s.incWrap F.PT_QUERIES
      match bitsOf (fieldB record 8 1) 0 2 with
      | 0 => s.dillQuery i b record false
      | 1 => s.dillQuery i b record true
      | _ => s.denseQuery i b record
  | none => (s, .done)

end Sys2Proof.Machine
end

