-- ==== Sys2Proof/Machine/Views.lean ====
section
/-! DEFINITION. What a read of a register returns, for registers that show state kept elsewhere, and the six reads with side effects (R35, R42, R89, R244, R287, R288, R290, R404). -/

namespace Sys2Proof.Machine

/-- A value as the word `i` of a 64-bit pair. -/
def wordOf64 (n i : Nat) : Word := BitVec.ofNat 32 (n / 2 ^ (32 * i))

/-- A bucket's units as whole µJ, signed (R280). -/
def ujWord (u : Int) : Word := BitVec.ofNat 32 (patternOf 32 (u / (unitsPerUj : Int)))

/-- The oldest entry of capture c's FIFO (R244). -/
def State.oldestCapture (s : State) (c : Nat) : Option Capture := (s.io.caps.getD c []).head?

/-- Requester r's latch of capture c (R244). -/
def State.captureLatch (s : State) (r c : Nat) : Option Capture := (assocGet (16 * r + c) s.io.capLatch).getD none

/-- IO_CAP_POP_LO as the oldest entry gives it (R244). -/
def captureLo (x : Option Capture) : Word :=
  match x with
  | some x => wordOf64 (x.value / 4) 0
  | none => 0

/-- IO_CAP_EXT of a latch: QNS, RISE, VALID (R244). -/
def captureExt (x : Option Capture) : Word :=
  match x with
  | some x => BitVec.ofNat 32 (x.value % 4 + 4 * b2n x.rise + 8)
  | none => 0

/-- The TB registers that a read of TB_NOW_LO latches (R35), and the holdover timer (R42). -/
def State.viewTb (s : State) (r : Nat) (a : Nat) : Option Word :=
  let l := s.latch r
  match a with
  | 0x10000 => some (wordOf64 s.cycleNow 0)
  | 0x10004 => some (wordOf64 l.now 1)
  | 0x10008 => some (BitVec.ofNat 32 l.frac)
  | 0x1000C => some (wordOf64 l.cnt 0)
  | 0x10010 => some (wordOf64 l.cnt 1)
  | 0x10018 => some (wordOf64 (patternOf 64 l.triple.offInt) 0)
  | 0x1001C => some (wordOf64 (patternOf 64 l.triple.offInt) 1)
  | 0x10020 => some (BitVec.ofNat 32 l.triple.offFrac)
  | 0x10024 => some (BitVec.ofNat 32 (patternOf 32 l.triple.rate))
  | 0x10028 => some (wordOf64 l.triple.anchor 0)
  | 0x1002C => some (wordOf64 l.triple.anchor 1)
  | 0x1007C => some (BitVec.ofNat 32 s.holdElapsed)
  | _ => none

/-- The stream watermarks as R90 has them. -/
def State.viewFu (s : State) (a : Nat) : Option Word :=
  let n := (a - 0x32000) / 64
  if a < 0x32000 || 48 ≤ n then none
  else if a == (F.FU_WM_LO n).addr then some (wordOf64 (s.streamWm n) 0)
  else if a == (F.FU_WM_HI n).addr then some (wordOf64 (s.streamWm n) 1)
  else none

/-- The high words of fences as latched (R266). -/
def State.viewCl (s : State) (r : Nat) (a : Nat) : Option Word :=
  if 0xA4000 ≤ a && decide (a < 0xAC000) && a % 8 == 4 then some (BitVec.ofNat 32 (s.cl.fenceLatch.getD r 0)) else none

/-- Levels and capacities of the classes (R268, R280). -/
def State.viewMj (s : State) (a : Nat) : Option Word :=
  let c := (a - 0xB0100) / 32
  if a < 0xB0100 || 4 ≤ c then none
  else if a == (F.MJ_C_LEVEL c).addr then some (ujWord (s.level c))
  else if a == (F.MJ_C_CAPACITY c).addr then some (if s.mj.levels.isEmpty then 0 else ujWord (s.capacity c))
  else none

/-- What the event controller shows of cores and pins (R287, R288, R290, R294). -/
def State.viewEv (s : State) (r : Nat) (a : Nat) : Option Word :=
  if a == F.EV_SYNC.addr then some (BitVec.ofNat 32 (s.ev.late.getD r 0))
  else if 0xC0100 ≤ a && decide (a < 0xC0200) && a % 32 == 0 then
    match (s.evCore ((a - 0xC0100) / 32)).held with
    | some h => some (s.claimWord h)
    | none => some 0
  else if a == 0xC0200 || a == 0xC0210 then some (s.causeWord ((a - 0xC0200) / 16))
  else if a == 0xC0204 || a == 0xC0214 then
    let n := (s.pinSources ((a - 0xC0200) / 16)).length
    some (BitVec.ofNat 32 (b2n (0 < n) + 2 * n))
  else none

/-- Capture registers (R244). -/
def State.viewIo (s : State) (r : Nat) (a : Nat) : Option Word :=
  let c := (a - 0x140000) / 32
  if a < 0x140000 || 16 ≤ c then none
  else match (a - 0x140000) % 32 with
    | 0x08 => some (captureLo (s.oldestCapture c))
    | 0x0C => some (match s.captureLatch r c with
      | some x => wordOf64 (x.value / 4) 1
      | none => 0)
    | 0x10 => some (captureExt (s.captureLatch r c))
    | _ => none

/-- AT_STATUS, its WRITING bit showing a corridor write in progress (R211). -/
def State.viewAt (s : State) (a : Nat) : Option Word :=
  if a == F.AT_STATUS_HL.addr then some (BitVec.ofNat 32 (putBit (s.readReg a).toNat 16 (s.cl.insts.any s.inWrite))) else none

/-- The registers of a logical tile that is not mapped read as zero (R150, R171). -/
def State.viewTl (s : State) (a : Nat) : Option Word := if 0x51000 ≤ a && decide (s.tiles ≤ (a - 0x51000) / 64) then some 0 else none

/-- RC_STATUS, its JOB_ABORT bit showing that results below RC_JOB_RESUME are still to leave (R336, R338). -/
def State.viewRc (s : State) (a : Nat) : Option Word :=
  if a == 0xE0000 then
    let skipping := s.rc.resumeSet && serialLater 32 (s.get F.RC_JOB_RESUME) ((s.fuSet (s.get F.RC_CFG_JOB_RS)).next % 2 ^ 32)
    some (BitVec.ofNat 32 (putBit (s.readReg a).toNat 3 skipping))
  else none

/-- A register shown from state kept elsewhere; none where its word is stored. -/
def State.viewOf (s : State) (r : Nat) (a : Nat) : Option Word :=
  match a / 0x10000 with
  | 1 => s.viewTb r a
  | 3 => s.viewFu a
  | 5 => s.viewTl a
  | 7 => s.viewAt a
  | 10 => s.viewCl r a
  | 11 => s.viewMj a
  | 12 => s.viewEv r a
  | 14 => s.viewRc a
  | 20 => s.viewIo r a
  | _ => none

/-- Bits of a register that read as zero whatever was written: its WO fields (R5). -/
def RegRow.readable (w : RegRow) (v : Nat) : Nat :=
  w.fields.foldl (fun v f => if f.acc == .wo then putBits v f.lo f.width 0 else v) v

/-- The word requester r (0 host, 1 to 8 cores) reads at a control address, without side effects; an unassigned offset reads zero (R6, R401). -/
def State.viewReg (s : State) (r : Nat) (a : Nat) : Word :=
  match regRow? a with
  | none => 0
  | some row =>
    match s.viewOf r a with
    | some w => w
    | none => BitVec.ofNat 32 (row.readable (s.readReg a).toNat)

/-- The word of a register as the block itself has it: its latched registers as the host would read them. -/
def State.blockBytes (s : State) (a n : Nat) : Bytes := (List.range n).flatMap (fun i => leBytes 4 (s.viewReg 0 (a + 4 * i)).toNat)

/-! ### Reads with side effects (R404) -/

/-- Requester r latches the fence's high word (R266). -/
def State.latchFence (s : State) (r f : Nat) : State :=
  { s with cl := { s.cl with fenceLatch := setAt s.cl.fenceLatch r (s.get (F.CL_FENCE_HI f)) } }

/-- A read of IO_CAP_POP_LO: the requester's latch; a core removes the entry (R244). -/
def State.popCapture (s : State) (r c : Nat) : State :=
  let x := s.oldestCapture c
  let s : State := { s with io := { s.io with capLatch := assocPut (16 * r + c) x s.io.capLatch } }
  if r == 0 || x.isNone then s
  else
    let rest := (s.io.caps.getD c []).drop 1
    let s : State := { s with io := { s.io with caps := setAt s.io.caps c rest } }
    s.set (F.IO_CAP_STAT_FILL c) rest.length

end Sys2Proof.Machine
end

