-- ==== Sys2Proof/Machine/CrashOps.lean ====
section
/-! DEFINITION. Crash records: snapshot, header, sections (R320 to R323). -/

namespace Sys2Proof.Machine

/-- Recovery's own state changed. -/
def State.setRc (s : State) (f : RcState → RcState) : State := { s with rc := f s.rc }

/-- The device address of crash slot n (R320). -/
def State.crashAddr (s : State) (n : Nat) : Nat := s.get F.RC_CRASH_BASE_HI * 2 ^ 32 + s.get F.RC_CRASH_BASE * 2 ^ 20 + n * 2 ^ 20

/-- What a record says of its trigger (R321): 0xFF and 0xFFFF where none. -/
structure CrashHead where
  level : Nat
  cause : Nat
  flags : Nat
  ctx : Nat
  part : Nat
  engine : Nat
  queue : Nat
  list : Nat
  cmd : Nat
  detail : Nat
  deriving DecidableEq, Repr

/-- A header that names no object. -/
def CrashHead.of (level cause : Nat) : CrashHead := ⟨level, cause, 0, 0xFF, 0xFF, 0xFF, 0xFF, 0xFFFF, 0xFFFF, 0⟩

/-- The header of a record about an instance's queue and command. -/
def State.crashInst (s : State) (cause : Nat) (i : Inst) (detail : Nat) : CrashHead :=
  let h := s.runHdr i
  { CrashHead.of 0 cause with ctx := h.ctx, part := if h.engine == 0 then h.part else 0xFF, engine := h.engine, queue := h.queue, list := i.run, cmd := i.cmd, detail := detail }

/-- The generation tag a header names; 0 where it names no partition. -/
def State.genOf (s : State) (p : Nat) : Nat := if p < 12 then s.get (F.RC_PART_GEN_GEN p) else 0

/-- The 256 bytes of a header as the trigger leaves it (R321). -/
def State.crashHeader (s : State) (h : CrashHead) : Bytes :=
  let b := fun n => BitVec.ofNat 8 n
  let gen := s.genOf h.part
  [1, b h.level, b h.cause, b h.flags] ++ leBytes 4 (s.get F.RC_CRASH_IDX_TOTAL) ++ leBytes 8 s.now ++ leBytes 8 s.thy.counter ++
    [b h.ctx, b h.part, b h.engine, b h.queue] ++ leBytes 2 h.list ++ leBytes 2 h.cmd ++
    leBytes 4 0xFFFFFFFF ++ [0xFF, b gen, b gen, 0] ++ leBytes 8 h.detail ++
    s.blockBytes F.GLB_STATUS_RUN.addr 1 ++ s.blockBytes F.TB_STATUS_TQ.addr 1 ++ s.blockBytes F.MJ_STATUS_DEBT.addr 1 ++ s.blockBytes F.SF_STATUS_FAULT.addr 1 ++
    zerosB 192

/-- Registers in the first 4 KiB of a block that show state kept elsewhere. -/
def viewAddrs : List Nat :=
  (List.range 32).map (fun i => 0x10000 + 4 * i) ++ (List.range 4).flatMap (fun c => [0xB0100 + 32 * c, 0xB0104 + 32 * c]) ++
    [0xC000C, 0xC0200, 0xC0204, 0xC0210, 0xC0214, 0xE0000] ++ (List.range 8).map (fun c => 0xC0100 + 32 * c) ++
    (List.range 16).flatMap (fun c => [0x140008 + 32 * c, 0x14000C + 32 * c, 0x140010 + 32 * c])

/-- The context's requests outstanding. -/
def State.ctxReqs (s : State) (ctx : Option Nat) : List MeshMsg := s.tl.reqs.filter (fun m => some m.ctx.val == ctx)

/-- Counts the instances of a context hold on each semaphore. -/
def State.ctxSems (s : State) (ctx : Option Nat) : List (Nat × Nat) :=
  (s.cl.insts.filter (fun i => some (s.runHdr i).ctx == ctx)).flatMap (fun i => i.sems)

/-- The snapshot of R321 step 1. -/
def State.snapshot (s : State) (slot : Nat) (ctx : Option Nat) : CrashJob :=
  { slot := slot, ctx := ctx, regs := s.regs,
    views := viewAddrs.filterMap (fun a => (s.viewOf 0 a).map (fun w => (a, w))),
    tick := s.thy.counter / 1000, sems := s.ctxSems ctx, reqs := (s.ctxReqs ctx).map (fun m => (m, false)) }

/-- A record begun: snapshot, header in the next slot, indices, RC_LAST (R321 steps 1 and 2, R338); its slot. -/
def State.crashRecord (s : State) (h : CrashHead) : State × Nat :=
  let slot := s.get F.RC_CRASH_IDX_NEXT
  let job := s.snapshot slot (if h.ctx < 64 then some h.ctx else none)
  let s := s.dramWrite (s.crashAddr slot) (s.crashHeader h)
  let s := (s.set F.RC_CRASH_IDX_NEXT (slot + 1)).incWrap F.RC_CRASH_IDX_TOTAL
  let s := s.setRc (fun r => { r with jobs := r.jobs.filter (fun j => j.slot != slot) ++ [job] })
  let s := (s.set F.RC_LAST_LEVEL h.level).set F.RC_LAST_CAUSE h.cause
  let s := (s.set F.RC_LAST_CTX (if h.ctx < 64 then h.ctx else 0)).set F.RC_LAST_PART (if h.part < 12 then h.part else 0)
  (s.set F.RC_LAST_SLOT slot, slot)

/-- A flag bit of a record's header set. -/
def State.crashFlag (s : State) (slot bit : Nat) : State :=
  let a := s.crashAddr slot + 3
  s.dramPut a (BitVec.ofNat 8 (putBit (s.dramByte a).toNat bit true))

/-- A trigger merged into the record in progress (R323). -/
def State.mergeInto (s : State) (slot : Nat) : State := (s.crashFlag slot 1).incSat F.RC_MERGED

/-- Offsets 0x20 to 0x24 of a record's header: the marked result with the earliest instant (R321). -/
def State.crashMarked (s : State) (slot : Nat) (marked : List (Nat × Nat)) : State :=
  match (sortByKey (fun b => (s.instant b.1 b.2 * 4 + b.1) * 2 ^ 64 + b.2) marked).head? with
  | some b => s.dramWrite (s.crashAddr slot + 0x20) (leBytes 4 b.2 ++ [BitVec.ofNat 8 b.1])
  | none => s

/-! ### Sections (R321 step 3) -/

/-- The word of a register in a snapshot. -/
def CrashJob.reg (j : CrashJob) (a : Nat) : Word :=
  match assocGet a j.views with
  | some w => w
  | none => match regRow? a with
    | some row => BitVec.ofNat 32 (row.readable (Memory.read regReset j.regs a).toNat)
    | none => 0

/-- A run of `n` registers in a snapshot. -/
def CrashJob.words (j : CrashJob) (a n : Nat) : Bytes := (List.range n).flatMap (fun i => leBytes 4 (j.reg (a + 4 * i)).toNat)

/-- A field in a snapshot. -/
def CrashJob.field (j : CrashJob) (f : Field) : Nat := bitsOf (Memory.read regReset j.regs f.addr).toNat f.lo f.width

/-- Section 0: the 96 queues. -/
def CrashJob.queues (j : CrashJob) : Bytes := j.words 0xA1000 (96 * 4)

/-- Section 1: the fences. -/
def CrashJob.fences (j : CrashJob) : Bytes :=
  (List.range 4096).flatMap (fun f => leBytes 4 (j.field (F.CL_FENCE_LO f)) ++ leBytes 4 (j.field (F.CL_FENCE_HI f)))

/-- Section 2: the semaphores. -/
def CrashJob.semaphores (j : CrashJob) : Bytes :=
  (List.range 256).flatMap (fun n =>
    leBytes 2 (j.field (F.CL_SEM n)) ++ leBytes 2 (satNat 16 ((j.sems.filter (fun x => x.1 == n)).map (fun x => x.2)).sum))

/-- A request of section 3: its address is the first five payload bytes; every request of the mesh is of kind 2. -/
def CrashJob.request (j : CrashJob) (x : MeshMsg × Bool) : Bytes :=
  let age := (j.tick + 4096 - x.1.tick.toNat) % 4096
  sliceB x.1.payload 0 5 ++ [BitVec.ofNat 8 x.1.dst, 2] ++ leBytes 2 age ++ [BitVec.ofNat 8 (b2n x.2)] ++ zerosB 6

/-- Section 3: the outstanding requests. -/
def CrashJob.requests (j : CrashJob) : Bytes :=
  let rs := j.reqs.take 4095
  leBytes 4 rs.length ++ zerosB 12 ++ rs.flatMap j.request

/-- Section 4: the first 4 KiB of each control block. -/
def CrashJob.blocks (j : CrashJob) : Bytes := (List.range 21).flatMap (fun b => j.words (0x10000 * b) 1024)

/-- The records a ring holds, oldest first: `n` entries of `w` words, NEXT and TOTAL. -/
def State.ringRecords (s : State) (base w n next total : Nat) : List Bytes :=
  let k := min total n
  (List.range k).map (fun i => s.regBytes (base + 4 * w * ((next + n - k + i) % n)) w)

/-- Base, NEXT and TOTAL of the violation ring of an interface (R81, R386, R352). -/
def violationRing (i : Nat) : Nat × Field × Field :=
  if i ≤ 0x12 then ((F.IG_VR i 0).addr, F.IG_VR_IDX_NEXT i, F.IG_VR_IDX_TOTAL i)
  else if i == 0x13 then ((F.HP_VR 0).addr, F.HP_VR_IDX_NEXT, F.HP_VR_IDX_TOTAL)
  else if i ≤ 0x17 then ((F.LK_VR (i - 0x14) 0).addr, F.LK_VR_IDX_NEXT (i - 0x14), F.LK_VR_IDX_TOTAL (i - 0x14))
  else ((F.BT_NVM_RING 0).addr, F.BT_NVM_VR_IDX_NEXT, F.BT_NVM_VR_IDX_TOTAL)

/-- The last `n` of a list. -/
def lastOf {α : Type} (n : Nat) (xs : List α) : List α := xs.drop (xs.length - n)

/-- Section 6: the newest 256 violation records of all rings, in device-time order. -/
def State.newestViolations (s : State) : Bytes :=
  let all := (List.range 0x19).flatMap (fun i =>
    let (base, next, total) := violationRing i
    s.ringRecords base 4 64 (s.get next) (s.get total))
  (lastOf 256 (sortByKey (fun r => fieldB r 0 8) all)).flatMap id

/-- Section 7: the newest 64 safety-log records. -/
def State.newestSafety (s : State) : Bytes :=
  (lastOf 64 (s.ringRecords (F.SF_EVENT_LOG 0).addr 8 256 (s.get F.SF_LOG_IDX_NEXT) (s.get F.SF_LOG_IDX_TOTAL))).flatMap id

/-- A section written, zero to its length. -/
def State.section_ (s : State) (slot ofs len : Nat) (b : Bytes) : State := s.dramWrite (s.crashAddr slot + ofs) (sliceB b 0 len)

/-- The eight sections of a record written, and COMPLETE set (R321 step 3). -/
def State.crashSections (s : State) (j : CrashJob) : State :=
  let s := (s.section_ j.slot 0x100 1536 j.queues).section_ j.slot 0x1000 0x8000 j.fences
  let s := (s.section_ j.slot 0x9000 0x400 j.semaphores).section_ j.slot 0xA000 0x10000 j.requests
  let s := s.section_ j.slot 0x1A000 0x15000 j.blocks
  let dma := (List.range (144 * 256)).map (Config.dmaState s.freeCtr)
  let s := (s.nextFree).section_ j.slot 0x2F000 0x9000 dma
  let s := (s.section_ j.slot 0x38000 0x1000 s.newestViolations).section_ j.slot 0x39000 0x800 s.newestSafety
  (s.crashFlag j.slot 0).raise 0x186

end Sys2Proof.Machine
end

