-- ==== Sys2Proof/Machine/LinkOps.lean ====
section
/-! DEFINITION. Peer links: ranks and routes, flits, credits, go-back-N (R386 to R391). -/

namespace Sys2Proof.Machine

/-- The peer links' own state changed. -/
def State.setLk (s : State) (f : LkState → LkState) : State := { s with lk := f s.lk }

/-- Link l beside its registers. -/
def State.link (s : State) (l : Nat) : LinkState := s.lk.links.getD l .zero

/-- Link l changed. -/
def State.setLink (s : State) (l : Nat) (x : LinkState) : State := s.setLk (fun k => { k with links := setAt k.links l x })

/-- Link l is trained. -/
def State.linkUp (s : State) (l : Nat) : Bool := s.get (F.LK_L_STAT_STATE l) == 2

/-! ### Ranks and routes (R388, R391, R394) -/

/-- The place of a rank in the topology: the former standby's for the rank it took over. -/
def State.posOf (s : State) (r : Nat) : Nat :=
  if s.flag F.LK_TAKEOVER_DONE && r == s.get F.LK_TAKEOVER_RANK then s.jobSize - 1 else r

/-- The way from `a` to `b` on a ring of n is the rising one: the shorter, or both alike. -/
def rising (n a b : Nat) : Bool :=
  let d := (b + n - a) % n
  decide (d ≤ n - d)

/-- The links of the way to a place, the direction of R391 first, then the others. -/
def State.routes (s : State) (place : Nat) : List Nat :=
  let own := s.get F.LK_JOB_CFG_RANK
  if s.flag F.LK_JOB_CFG_TOPO then
    let x := s.get F.LK_JOB_CFG_X + 2
    if own % x != place % x then (if rising x (own % x) (place % x) then [0, 1, 2, 3] else [1, 0, 2, 3])
    else [2, 3, 0, 1]
  else if rising s.jobSize own place then [0, 2, 1, 3]
  else [1, 3, 0, 2]

/-- Links that lie in the direction of R391. -/
def State.direct (s : State) (place : Nat) : List Nat :=
  let ls := s.routes place
  if s.flag F.LK_JOB_CFG_TOPO && ls.headD 0 != 2 then ls.take 1 else ls.take 2

/-- The link a flit of a class takes to a rank: the first trained one of its direction, for an abort of any; the first of its direction when none is (R388). -/
def State.routeTo (s : State) (cls r : Nat) : Nat :=
  let ls := if cls == 2 then s.routes (s.posOf r) else s.direct (s.posOf r)
  (ls.find? s.linkUp).getD (ls.headD 0)

/-! ### Flits (R386, R388) -/

/-- The 272 bytes of a flit: class, ranks, sequence, acknowledged sequence, credits returned, payload, CRC. -/
def flitBytes (f : LinkFlit) (seqNo ack : Nat) : Bytes :=
  let back := f.back.getD 0 0 + 16 * f.back.getD 1 0 + 256 * f.back.getD 2 0
  let b := [BitVec.ofNat 8 f.cls, BitVec.ofNat 8 (f.src + 8 * f.dst)] ++ leBytes 2 seqNo ++ leBytes 2 ack ++ leBytes 2 back ++ sliceB f.payload 0 256 ++ zerosB 4
  b ++ leBytes 4 (crc32 b)

/-- The sequence number acknowledged: the one before the one expected. -/
def LinkState.ack (x : LinkState) : Nat := (x.expect + 4095) % 4096

/-- A flit handed to the transmitter of link l. -/
def LinkState.emit (x : LinkState) (f : LinkFlit) (seqNo : Nat) : LinkState := { x with sent := flitBytes f seqNo x.ack :: x.sent }

/-- The classes in the order they are sent: abort, collective, data (R388). -/
def sendOrder : List Nat := [2, 1, 0]

/-- The next flit of link l that has a credit and room among the unacknowledged ones. -/
def LinkState.nextFlit (x : LinkState) : Option LinkFlit :=
  if 1024 ≤ x.unacked.length then none
  else (sendOrder.filterMap (fun c => if 0 < x.credits.getD c 0 then x.waiting.find? (fun f => f.cls == c) else none)).head?

/-- The first flit equal to `f` removed. -/
def dropFlit (f : LinkFlit) : List LinkFlit → List LinkFlit
  | [] => []
  | x :: xs => if x == f then xs else x :: dropFlit f xs

/-- A flit transmitted: its credit spent, the credits owed returned with it, up to 15 of a class. -/
def LinkState.transmit (x : LinkState) (f : LinkFlit) (now : Nat) : LinkState :=
  let back := x.owed.map (min 15)
  let g := { f with back := back }
  let x := { x with waiting := dropFlit f x.waiting, credits := setAt x.credits f.cls (x.credits.getD f.cls 0 - 1), quiet := if x.unacked.isEmpty then now else x.quiet }
  let x := { x with owed := List.zipWith (fun a b => a - b) x.owed back, given := List.zipWith (fun a b => a + b) x.given back }
  ({ x with unacked := x.unacked ++ [(x.next, g)], next := (x.next + 1) % 4096 }).emit g x.next

/-- Waiting flits of link l transmitted while one may be, at most `n`. -/
def LinkState.pump (x : LinkState) (now : Nat) : Nat → LinkState
  | 0 => x
  | n + 1 => match x.nextFlit with
    | some f => (x.transmit f now).pump now n
    | none => x

/-- Island cycles a stall of link l has lasted, counted when it ends (R388). -/
def State.countStall (s : State) (l : Nat) (x : LinkState) : State × LinkState :=
  let now := s.thy.counter
  match x.stallAt with
  | some t => if x.waiting.isEmpty || x.nextFlit.isSome then (s.addSat (F.LK_L_STALL l) ((now - t) * 703125 / 1000000), { x with stallAt := none }) else (s, x)
  | none => (s, x)

/-- Link l sends what it can; a flit left without a credit begins a stall (R388). -/
def State.pumpLink (s : State) (l : Nat) : State :=
  if !s.linkUp l then s
  else
    let (s, x) := s.countStall l (s.link l)
    let x := x.pump s.now x.waiting.length
    let x := if x.waiting.isEmpty || x.stallAt.isSome || decide (1024 ≤ x.unacked.length) then x else { x with stallAt := some s.thy.counter }
    s.setLink l x

/-- A flit towards a rank. -/
def State.sendFlit (s : State) (f : LinkFlit) : State :=
  let l := s.routeTo f.cls f.dst
  let x := s.link l
  (s.setLink l { x with waiting := x.waiting ++ [f] }).pumpLink l

/-- A message of a class to a rank, in as many flits as it takes. -/
def State.sendMsg (s : State) (cls r : Nat) (fields : List Nat) (data : Bytes) : State :=
  (Config.linkFlits cls fields data).foldl (fun s p => s.sendFlit ⟨cls, s.get F.GLB_STATUS_RANK, r, p, [0, 0, 0]⟩) s

/-- The ranks that other parts hold: after a take-over none holds the last one (R394). -/
def State.otherRanks (s : State) : List Nat :=
  (List.range s.jobSize).filter (fun r => s.posOf r != s.get F.LK_JOB_CFG_RANK && !(s.flag F.LK_TAKEOVER_DONE && r + 1 == s.jobSize))

/-- Link control sent on link l: outside the sequence and without a credit; it returns the credits owed (R386, R387). -/
def State.sendControl (s : State) (l : Nat) (fields : List Nat) : State :=
  (Config.linkFlits 3 fields []).foldl (fun s p =>
    let x := s.link l
    let back := x.owed.map (min 15)
    let x := { x with owed := List.zipWith (fun a b => a - b) x.owed back, given := List.zipWith (fun a b => a + b) x.given back }
    s.setLink l (x.emit ⟨3, s.get F.GLB_STATUS_RANK, 0, p, back⟩ 0)) s

/-! ### Go-back-N (R387, R389) -/

/-- Aborts that wait on link l take another way, where one is trained (R388). -/
def State.rerouteAborts (s : State) (l : Nat) : State :=
  let x := s.link l
  let move : List LinkFlit := x.waiting.filter (fun f => f.cls == 2 && s.routeTo 2 f.dst != l)
  let s := s.setLink l { x with waiting := x.waiting.filter (fun f => !(f.cls == 2 && s.routeTo 2 f.dst != l)) }
  move.foldl (fun s f => s.sendFlit f) s

/-- Link l goes down in run state and trains again (R389). -/
def State.linkLost (s : State) (l : Nat) : State :=
  let s := (s.set (F.LK_L_STAT_STATE l) 1).incSat (F.LK_L_STAT_RETRAINS l)
  ((s.raise 0x1A8).statusSource (0x2B + l) false).rerouteAborts l

/-- Acknowledged flits leave; one that does ends the run of resends (R387). -/
def State.acked (s : State) (l a : Nat) : State :=
  let x := s.link l
  let left := x.unacked.filter (fun u => serialLater 12 u.1 a)
  if left.length == x.unacked.length then s
  else s.setLink l { x with unacked := left, resends := 0, quiet := s.now }

/-- Unacknowledged flits of link l sent again from sequence number n on (R387). -/
def State.resend (s : State) (l n : Nat) : State :=
  let x := s.link l
  let again := x.unacked.filter (fun u => u.1 == n || serialLater 12 u.1 n)
  if again.isEmpty then s
  else if 16 ≤ x.resends then
    ((s.violation (0x14 + l) 0x83 (0 :: leBytes 2 ((x.unacked.head?.map (fun u => u.1)).getD 0))).setLink l { x with resends := 0 }).linkLost l
  else
    let x := again.foldl (fun x u => x.emit u.2 u.1) { x with resends := x.resends + 1, quiet := s.now }
    (s.setLink l x).set (F.LK_L_RETX l) (s.get (F.LK_L_RETX l) + again.length)

end Sys2Proof.Machine
end

