-- ==== Sys2Proof/Machine/RecoverOps.lean ====
section
/-! DEFINITION. The three levels of recovery: removal of a context's work, context and partition resets, holds, the way to a device warm reset, and job aborts (R322 to R337). -/

namespace Sys2Proof.Machine

/-! ### Removal (R325, R326) -/

/-- Results named once, those not yet emitted. -/
def State.unemitted (s : State) (bound : List (Nat × Nat)) : List (Nat × Nat) :=
  bound.filter (fun b => match s.result? b.1 b.2 with
    | some r => !r.emitted
    | none => false)

/-- An instance removed: its set-mode signals applied, its results partial, what it had under way undone (R300 steps 1 to 3, R325). -/
def State.removeInst (s : State) (i : Inst) : State :=
  let s := (s.applySets i).markPartial i.bound
  let s := if s.inWrite i then s.spoilWrite i else s
  ((s.dropRead i.list).discardListTicks i.list).dropInst i

/-- The counts an instance acquired and has not released are released (R325). -/
def State.releaseHeld (s : State) (i : Inst) : State := i.sems.foldl (fun s x => s.semRelease x.1 x.2) s

/-- Instances whose fence wait the change from `before` satisfied (R300 step 3, R326). -/
def State.releasedInsts (s before : State) : List Inst :=
  s.cl.insts.filter (fun i => match i.wait with
    | some (.fence f v) => s.fenceReached f v && !before.fenceReached f v
    | _ => false)

/-- The instances of a context. -/
def State.ctxInsts (s : State) (c : Nat) : List Inst := s.cl.insts.filter (fun i => (s.runHdr i).ctx == c)

/-- The build of a context discarded (R139, R325). -/
def State.discardCtxBuild (s : State) (c : Nat) : State :=
  match s.pt with
  | some b => if (s.listHdr b.owner).ctx == c then s.discardBuild b.owner else s
  | none => s

/-- The learning chain of a context: its state from the record, and the halt (R222, R325); in fixed mode nothing changes (R215). -/
def State.restoreCtxCalib (s : State) (c : Nat) : State :=
  if s.cbCtx == some c && s.get F.CB_STATUS_MODE != 0 then (s.cbRestore).cbRecovery c else s

/-- Every piece of a context's work removed (R324 step 4, R325); the results this marks. -/
def State.removeCtx (s : State) (c : Nat) : State × List (Nat × Nat) :=
  let mine := s.ctxInsts c
  let out := s.unemitted (mine.flatMap (fun i => i.bound))
  let after := mine.foldl (fun s i => (s.removeInst i).releaseHeld i) s
  let freed := after.releasedInsts s
  let out := out ++ after.unemitted (freed.flatMap (fun i => i.bound))
  let s := freed.foldl (fun s i => s.markPartial i.bound) after
  ((((s.discardCtxBuild c).discardCtxTicks c).clearBusy c).restoreCtxCalib c, out)

/-! ### Job aborts (R334 to R336) -/

/-- The part is one of a job of several parts. -/
def State.inJob (s : State) : Bool := s.get F.LK_JOB_CFG_SIZE != 0

/-- The rank this part holds (R32). -/
def State.ownRank (s : State) : Nat := s.get F.GLB_STATUS_RANK

/-- Context c is a job context (R334). -/
def State.jobCtx (s : State) (c : Nat) : Bool := s.inJob && s.maskBit F.RC_JOB_CTX_LO F.RC_JOB_CTX_HI c

/-- LEAVE (R335). -/
def jobLeave : Nat := 0xFFFFFFFF

/-- The resume sequence this part names: its Open sequence of the job result set plus JOB_GAP (R335). -/
def State.ownResume (s : State) : Nat := (s.get (F.FU_RS_SEQ (s.get F.RC_CFG_JOB_RS)) + s.get F.RC_CFG_JOB_GAP) % 2 ^ 32

/-- The latest resume sequence kept (R336); LEAVE is none. -/
def State.keepResume (s : State) (r : Nat) : State :=
  if r == jobLeave || (s.rc.resumeSet && !serialLater 32 r (s.get F.RC_JOB_RESUME)) then s
  else (s.set F.RC_JOB_RESUME r).setRc (fun x => { x with resumeSet := true })

/-- A message of the abort class to every other part: its level (3 for a take-over), resume sequence, byte 0 of the cause detail (R335, R337, R394). -/
def State.tellJob (s : State) (level r detail : Nat) : State :=
  let s := s.setRc (fun x => { x with sent := (level, (r, detail)) :: x.sent })
  s.otherRanks.foldl (fun s d => s.sendMsg 2 d [level, r, detail] []) s

/-- A job abort sent to every part (R335): RC_JOB_ABORTS.SENT, event 0x188. -/
def State.sendAbort (s : State) (level r detail : Nat) : State :=
  let s := s.tellJob level r detail
  ((s.incSat F.RC_JOB_ABORTS_SENT).raise 0x188).keepResume r

/-! ### Context reset (R323, R324) -/

/-- The context reset in progress on context c. -/
def State.ctxReset? (s : State) (c : Nat) : Option CtxReset := s.rc.ctxs.find? (fun x => x.ctx == c)

/-- The partition reset in progress on partition p. -/
def State.partReset? (s : State) (p : Nat) : Option PartReset := s.rc.parts.find? (fun x => x.part == p)

/-- A context reset in progress changed. -/
def State.putCtxReset (s : State) (x : CtxReset) : State :=
  s.setRc (fun r => { r with ctxs := r.ctxs.map (fun y => if y.ctx == x.ctx then x else y) })

/-- A partition reset in progress changed. -/
def State.putPartReset (s : State) (x : PartReset) : State :=
  s.setRc (fun r => { r with parts := r.parts.map (fun y => if y.part == x.part then x else y) })

/-- RC_STATUS from the resets in progress (R338). -/
def State.refreshRc (s : State) : State :=
  (s.setFlag F.RC_STATUS_CTX_ACTIVE (!s.rc.ctxs.isEmpty)).setFlag F.RC_STATUS_PART_ACTIVE (!s.rc.parts.isEmpty)

/-- A partition reset in progress covers context c. -/
def State.covered (s : State) (c : Nat) : Bool := s.rc.parts.any (fun p => p.ctxs.contains c)

/-- Context c unfenced: its entry gone, held take-ups proceed. -/
def State.unfence (s : State) (c : Nat) : State :=
  let s := s.set (F.RC_CTX_STAT_STATE c) 0
  ((s.setRc (fun r => { r with ctxs := r.ctxs.filter (fun x => x.ctx != c) })).refreshRc).settle true

/-- Step 5 of R324, once removal is done and the record is complete or late. -/
def State.tryRelease (s : State) (c : Nat) : State :=
  match s.ctxReset? c with
  | some x =>
    if x.settled && s.get (F.RC_CTX_STAT_STATE c) == 2 && !s.covered c then
      ((((s.unfence c).incSat (F.RC_CTX_STAT_RESETS c)).incWrap F.RC_CTX_RESETS).raise 0x182)
    else s
  | none => s

/-- The requests of a context that are left are answered with errors (R324 step 3); section 3 will list them so. -/
def State.answerErrors (s : State) (c : Nat) : State :=
  let left := s.ctxReqs (some c)
  let s := s.addSat F.RC_ERR_ANSWERS left.length
  let s := s.setRc (fun r => { r with jobs := r.jobs.map (fun j =>
    if j.ctx == some c then { j with reqs := j.reqs.map (fun x => (x.1, x.2 || left.contains x.1)) } else j) })
  { s with tl := { s.tl with reqs := s.tl.reqs.filter (fun m => m.ctx.val != c) } }

/-- Tiles of p are reset once every covered context is removed: SRAM contents lost, the generation tag advances (R328 steps 2 and 3). -/
def State.partProceed (s : State) (p : Nat) : State :=
  match s.partReset? p with
  | some x =>
    if !x.cleared && x.ctxs.all (fun c => (s.ctxInsts c).isEmpty && s.get (F.RC_CTX_STAT_STATE c) != 1) then
      let ts := s.tilesOfPart p
      let s := { s with sram := s.sram.filter (fun e => !ts.contains (e.1 / sramSize)), tl := { s.tl with opChanges := s.tl.opChanges.filter (fun c => !ts.contains c.tile) } }
      (s.incWrap (F.RC_PART_GEN_GEN p)).putPartReset { x with cleared := true }
    else s
  | none => s

/-- Step 4 of R324: context c's work removed; its state becomes Removing unless it is held for a partition reset. -/
def State.ctxRemove (s : State) (c : Nat) : State :=
  match s.ctxReset? c with
  | some x =>
    let s := if s.get (F.RC_CTX_STAT_STATE c) == 1 then s.set (F.RC_CTX_STAT_STATE c) 2 else s
    let (s, out) := s.removeCtx c
    let marked := x.marked ++ out
    let s := (s.crashMarked x.slot marked).putCtxReset { x with marked := marked }
    let s := (List.range 12).foldl State.partProceed s
    (s.settle true).tryRelease c
  | none => s

/-- The drain of context c is over when no request of it is left (R324 step 3). -/
def State.drainCheck (s : State) (c : Nat) : State :=
  if s.get (F.RC_CTX_STAT_STATE c) == 1 && (s.ctxReqs (some c)).isEmpty then s.ctxRemove c else s

/-- Pending occurrences of a context's lists are cleared (R325); the results they bind, not yet emitted. -/
def State.clearPending (s : State) (c : Nat) : State × List (Nat × Nat) :=
  let mine := s.lists.filter (fun n => (s.listHdr n).ctx == c)
  let bound := s.unemitted ((s.cl.occs.filter (fun o => mine.contains o.list)).flatMap (fun o => o.bound))
  let s := mine.foldl (fun s n => s.setListState n 0 4 0) s
  let s := s.markPartial bound
  ({ s with cl := { s.cl with occs := s.cl.occs.filter (fun o => !mine.contains o.list) } }, bound)

/-- Steps 1 to 3 of a context reset (R324, R335); `tell` when its abort is its own to send. -/
def State.ctxStart (s : State) (h : CrashHead) (tell : Bool) : State :=
  let c := h.ctx
  let (s, slot) := s.crashRecord h
  let s := s.set (F.RC_CTX_STAT_STATE c) 1
  let (s, out) := s.clearPending c
  let marked := out ++ s.unemitted ((s.ctxInsts c).flatMap (fun i => i.bound))
  let s := s.setRc (fun r => { r with ctxs := r.ctxs ++ [⟨c, s.now, slot, false, out⟩] })
  let s := ((s.crashMarked slot marked).refreshRc).raise 0x181
  let s := if tell && s.jobCtx c then s.sendAbort 0 s.ownResume s.ownRank else s
  s.drainCheck c

/-- A trigger of a context reset: begun, or merged into the reset in progress (R323, R324, R333). -/
def State.ctxTrigger (s : State) (h : CrashHead) : State :=
  if s.rc.devReset.isSome then s.mergeInto (s.get F.RC_LAST_SLOT)
  else match s.ctxReset? h.ctx with
    | some x => s.mergeInto x.slot
    | none => s.ctxStart h true

/-- A context reset that an instance's command triggers (R322 causes 1 to 4). -/
def State.ctxTriggerInst (s : State) (cause : Nat) (i : Inst) (detail : Nat) : State := s.ctxTrigger (s.crashInst cause i detail)

/-- A context reset of a context as a whole. -/
def State.ctxTriggerOf (s : State) (c cause detail : Nat) : State := s.ctxTrigger { CrashHead.of 0 cause with ctx := c, detail := detail }

/-! ### Device level (R329 to R333) -/

/-- The contexts with an instance running or waiting on partition p (R328 step 1). -/
def State.ctxsOn (s : State) (p : Nat) : List Nat :=
  (List.range 64).filter (fun c => (s.ctxInsts c).any (fun i => i.onQueue && (s.runHdr i).engine == 0 && (s.runHdr i).part == p))

/-- A failed partition held (R331): what runs on it is removed, and contexts its reset covered go on. -/
def State.holdPart (s : State) (p cause : Nat) : State :=
  let s := (s.set F.RC_STATUS_PART_HELD (putBit (s.get F.RC_STATUS_PART_HELD) p true)).setFlag (F.RC_PART_GEN_HELD p) true
  let covers := match s.partReset? p with
    | some x => x.ctxs
    | none => []
  let s := (s.setRc (fun r => { r with parts := r.parts.filter (fun x => x.part != p) })).refreshRc
  let on := s.ctxsOn p
  let all := (List.range 64).filter (fun c => covers.contains c || on.contains c)
  all.foldl (fun s c =>
    if s.get (F.RC_CTX_STAT_STATE c) == 0 then s.ctxStart { CrashHead.of 0 cause with ctx := c, part := p } true
    else ((s.answerErrors c).ctxRemove c).unfence c) s

/-- A device warm reset that starts in steps 1 to 7 of a park cancels it (R369). -/
def State.cancelPark (s : State) : State := if s.get F.PW_STATUS_STATE == 1 then (s.set F.PW_PARK_STAT_CODE 3).raise 0x1A3 else s

/-- A device warm reset is due (R330 to R333): made, or what failed is held. `part` names a failed partition, `fusion` the fusion engine. -/
def State.devTrigger (s : State) (cause : Nat) (part : Option Nat) (fusion : Bool) : State :=
  if s.rc.devReset.isSome then s.mergeInto (s.get F.RC_LAST_SLOT)
  else
    let h : CrashHead := { CrashHead.of 2 cause with part := part.getD 0xFF, engine := if fusion then 2 else 0xFF }
    if cause != 10 && !s.flag F.RC_CFG_PROFILE then
      let s := ((s.crashRecord { h with flags := 4 }).1.setFlag F.RC_STATUS_DEV_NEEDED true).raise 0x185
      let s := if fusion then s.setRc (fun r => { r with fusionHeld := true }) else s
      match part with
      | some p => s.holdPart p cause
      | none => s
    else
      let busy := !s.rc.ctxs.isEmpty || !s.rc.parts.isEmpty
      let s := (s.crashRecord { h with flags := 2 * b2n busy }).1
      let s := (s.incSat F.RC_DEV_RESETS).setRc (fun r => { r with devReset := some s.now, ctxs := [], parts := [] })
      let s := (s.refreshRc).cancelPark
      if s.inJob then s.sendAbort 2 jobLeave s.ownRank else s

/-! ### Partition reset (R328, R329) -/

/-- The tiles of p restart at its grant (R328 step 4, R277). -/
def State.restartTiles (s : State) (p : Nat) : State :=
  let s := (s.set (F.MJ_P_GRANT_OP p) (s.grantOf p)).setFlag (F.MJ_P_GRANT_FORCED p) (s.forcedOn p)
  (s.tilesOfPart p).foldl (fun s l => s.set (F.TL_T_STAT_OP l) (s.opChoice l)) s

/-- A partition reset complete: contexts it covers go on unless another one covers them (R328 step 4, R324). -/
def State.tryPartDone (s : State) (p : Nat) : State :=
  match s.partReset? p with
  | some x =>
    if x.cleared && x.ready && x.settled then
      let s := s.setRc (fun r => { r with parts := r.parts.filter (fun y => y.part != p), lastPart := assocPut p x.start r.lastPart })
      let s := (((s.refreshRc).incWrap F.RC_PART_RESETS).incSat (F.RC_PART_GEN_RESETS p)).restartTiles p
      (x.ctxs.foldl (fun s c => if s.covered c then s else s.unfence c) s).raise 0x184
    else s
  | none => s

/-- Steps 1 to 3 of a partition reset (R328, R335). -/
def State.partStart (s : State) (p cause : Nat) : State :=
  let (s, slot) := s.crashRecord { CrashHead.of 1 cause with part := p }
  let s := s.dramPut (s.crashAddr slot + 0x26) (BitVec.ofNat 8 (s.genOf p + 1))
  let held := (List.range 64).filter (fun c => s.get (F.RC_CTX_STAT_STATE c) == 3 && (s.ctxsOn p).contains c)
  let on := s.ctxsOn p
  let s := s.setRc (fun r => { r with parts := r.parts ++ [⟨p, s.now, slot, false, on, false, false⟩] })
  let s := (s.refreshRc).raise 0x183
  let s := if on.any s.jobCtx then s.sendAbort 1 s.ownResume s.ownRank else s
  let s := on.foldl (fun s c => if s.get (F.RC_CTX_STAT_STATE c) == 0 then s.ctxStart { CrashHead.of 0 cause with ctx := c, part := p } false else s) s
  let s := held.foldl (fun s c => (s.answerErrors c).ctxRemove c) s
  s.partProceed p

/-- A partition reset falls due less than 20 ms after the last one (R329). -/
def State.partTooSoon (s : State) (p : Nat) : Bool :=
  match assocGet p s.rc.lastPart with
  | some t => decide (s.now < t + 20000000)
  | none => false

/-- A trigger of a partition reset: begun, merged, or passed on to the device level (R323, R328, R329). -/
def State.partTrigger (s : State) (p cause : Nat) : State :=
  if s.rc.devReset.isSome then s.mergeInto (s.get F.RC_LAST_SLOT)
  else match s.partReset? p with
    | some x => s.mergeInto x.slot
    | none =>
      if s.flag (F.RC_PART_GEN_HELD p) then s
      else if !s.flag F.RC_CFG_PART_EN then s.devTrigger cause (some p) false
      else if s.partTooSoon p then s.devTrigger 9 (some p) false
      else s.partStart p cause

/-- A context reset that has not finished its removal in its window escalates (R324, cause 8). -/
def State.escalate (s : State) (c : Nat) : State :=
  let s := s.set (F.RC_CTX_STAT_STATE c) 3
  match (List.range 12).filter (fun p => (s.ctxsOn p).contains c) with
  | [] => s.devTrigger 8 none false
  | ps => ps.foldl (fun s p => s.partTrigger p 8) s

/-! ### Records settled (R321) -/

/-- A record that is not finished at its window's end (R321): RC_CR_LATE, event 0x187. -/
def State.recordLate (s : State) (slot : Nat) : State :=
  ((s.setRc (fun r => { r with jobs := r.jobs.filter (fun j => j.slot != slot) })).incSat F.RC_CR_LATE).raise 0x187

/-- The record of a slot is complete or late: the resets that wait for it go on. -/
def State.settled (s : State) (slot : Nat) : State :=
  let cs := (s.rc.ctxs.filter (fun x => x.slot == slot)).map (fun x => x.ctx)
  let ps := (s.rc.parts.filter (fun x => x.slot == slot)).map (fun x => x.part)
  let s := s.setRc (fun r => { r with ctxs := r.ctxs.map (fun x => if x.slot == slot then { x with settled := true } else x), parts := r.parts.map (fun x => if x.slot == slot then { x with settled := true } else x) })
  ps.foldl State.tryPartDone (cs.foldl State.tryRelease s)

/-! ### Aborts received, ranks that leave (R336, R337, R394) -/

/-- The standby takes over the rank d (R394): LK_TAKEOVER, GLB_STATUS, the heads of that rank (R209, R210), event 0x1AB, and the take-over sent with its resume sequence. -/
def State.takeOver (s : State) (d : Nat) : State :=
  let r := s.ownResume
  let s := (s.set F.LK_TAKEOVER_RANK d).set F.LK_TAKEOVER_SEQ r
  let s := (s.setFlag F.LK_TAKEOVER_DONE true).setFlag F.GLB_STATUS_STANDBY false
  let heads := s.headsOf d
  let s := ((s.set F.AT_STATUS_HL heads.2).set F.AT_STATUS_FIRST_HEAD heads.1).setFlag F.AT_STATUS_MIRROR false
  let s := (s.set F.GLB_STATUS_RANK d).raise 0x1AB
  (s.tellJob 3 r d).keepResume r

/-- Rank d has left: marked absent once; the standby takes over the first (R336, R394). -/
def State.rankLeft (s : State) (d : Nat) : State :=
  if s.rc.absent.contains d then s
  else
    let s := s.setRc (fun x => { x with absent := x.absent ++ [d] })
    if s.flag F.GLB_STATUS_STANDBY && !s.flag F.LK_TAKEOVER_DONE then s.takeOver d else s

/-- The job contexts not in reset are reset (R336). -/
def State.resetJob (s : State) (cause detail : Nat) : State :=
  ((List.range 64).filter (fun c => s.jobCtx c && s.get (F.RC_CTX_STAT_STATE c) == 0)).foldl (fun s c => s.ctxTriggerOf c cause detail) s

end Sys2Proof.Machine
end

