-- ==== Sys2Proof/Machine/BootOps.lean ====
section
/-! DEFINITION. Boot: device reset and what it keeps (R332, R350, R364), sparing (R147 to R149), the boot steps (R343 to R345), locking and the start of the run (R347, R349), minimal mode (R351), resume (R354, R373). -/

namespace Sys2Proof.Machine

/-! ### Device reset (R332, R364) -/

/-- Registers of Lovage retention that no reset of the part touches (R57, R332, R350, R354, R364, R374), and the fuses (R355, R358). -/
def retainedReg (a : Nat) : Bool :=
  within 0xF0004 a 0xF0017 || within 0xF0040 a 0xF005F || within 0xF0080 a 0xF00CB || within 0xF0400 a 0xF07FF || a == 0xE0038 || a == 0xE0058 ||
    a == 0x100000 || a == 0x100008 || within 0x100040 a 0x10007F || (within 0x100080 a 0x10009F && a % 8 == 4)

/-- Thyme's registers that a device warm reset keeps: all but the image's and those of sensor streams (R332, log entry 56). -/
def thymeKept (a : Nat) : Bool :=
  within 0x10000 a 0x10FFF && !within 0x10088 a 0x10097 &&
  (match regRow? a with
   | some row => row.lockedMask == 0
   | none => false)

/-- The safety log (R313). -/
def safetyLogReg (a : Nat) : Bool := a == F.SF_LOG_IDX_NEXT.addr || within 0xD1000 a 0xD2FFF

/-- Registers that a device warm reset keeps (R332). -/
def warmKept (a : Nat) : Bool := retainedReg a || thymeKept a || safetyLogReg a

/-- Every domain but Lovage reset: what lies in Lovage, DRAM, NVM and the fuses stays, with the registers `keep` names (R332). -/
def State.resetBlocks (s : State) (keep : Nat → Bool) : State :=
  let z := State.reset
  { z with regs := s.regs.filter (fun e => keep e.1), dram := s.dram, nvm := s.nvm, hostResp := s.hostResp, freeCtr := s.freeCtr, pending := s.pending, jt := s.jt, pins := s.pins, ev := { z.ev with latches := s.ev.latches, high := s.ev.high.filter (fun x => decide (x < 0x27)) }, bt := { s.bt with nonce := z.bt.nonce, step := 0, hold := none, inReset := true, resuming := false, nvmJob := none, badRecs := [], code := [] }, pw := { z.pw with parkedAt := s.pw.parkedAt } }

/-- RC_CRASH_IDX.NEXT goes on after the slot of the last record, which Lovage holds (R320, R332). -/
def State.nextCrashSlot (s : State) : State :=
  let last := s.get F.RC_LAST_SLOT
  s.set F.RC_CRASH_IDX_NEXT (if last == 0 && s.get F.RC_DEV_RESETS == 0 then 0 else last + 1)

/-- PW_STATUS.STATE reads booting, PW_PARK_STAT.CODE as after a cancelled park or zero. -/
def State.showBooting (s : State) (cancelled : Bool) : State :=
  (s.set F.PW_STATUS_STATE 4).set F.PW_PARK_STAT_CODE (if cancelled then 3 else 0)

/-- A device warm reset (R332): Thyme goes on counting; a park in its steps 1 to 7 is cancelled (R369). -/
def State.deviceReset (s : State) : State :=
  let cancelled := s.get F.PW_STATUS_STATE == 1
  let t := s.thy
  let z := s.resetBlocks warmKept
  let z := { z with thy := { t with latches := z.thy.latches, holdStart := none, holdOver := false, sync := none, pair := none, clocks := z.thy.clocks } }
  (((z.setFlag F.TB_STATUS_STARTED false).nextCrashSlot).showBooting cancelled).setFaultN true

/-! ### Failures (R343 to R345, R350) -/

/-- A cause recorded: BT_LAST_CAUSE and the history (R345). -/
def State.recordCause (s : State) (cause step detail : Nat) : State :=
  let s := ((s.set F.BT_LAST_CAUSE_CAUSE cause).set F.BT_LAST_CAUSE_STEP step).set F.BT_LAST_CAUSE_DETAIL detail
  s.set64 F.BT_CAUSE_HIST0 F.BT_CAUSE_HIST1 ((s.get64 F.BT_CAUSE_HIST0 F.BT_CAUSE_HIST1 * 256 + cause) % 2 ^ 64)

/-- A boot ends with a cause: recorded, and the hold of 100 ms begins (R345). -/
def State.bootFail (s : State) (cause step detail : Nat) : State :=
  let s := (s.recordCause cause step detail).set F.BT_STATUS 0
  s.setBt (fun b => { b with step := 0, resuming := false, hold := some s.thy.counter })

/-- The NVM controller's violation record (R353). -/
def State.nvmViolation (s : State) (code : Nat) (detail : Bytes) : State := s.violation 0x18 code detail

/-- How far an attempt got: on to the next step; ended with cause, step and detail; or still in a step when the command ends. -/
inductive BootStep where
  | on (s : State)
  | fail (s : State) (cause step detail : Nat)
  | stopped (s : State)
  deriving DecidableEq, Repr

/-- The next step, when this one succeeded. -/
def BootStep.andThen (x : BootStep) (f : State → BootStep) : BootStep :=
  match x with
  | .on s => f s
  | .fail s c k d => .fail s c k d
  | .stopped s => .stopped s

/-- BT_STATUS.STATE in each boot step (R343). -/
def stateCode (step : Nat) : Nat :=
  match step with
  | 1 => 1
  | 2 => 1
  | 3 => 1
  | 4 => 2
  | 5 => 3
  | 6 => 4
  | 7 => 5
  | _ => 6

/-- A step begins. -/
def State.enterStep (s : State) (step : Nat) : State :=
  (s.set F.BT_STATUS (stateCode step)).setBt (fun b => { b with step := step })

/-! ### Steps 1 to 3 (R339 to R343, R349) -/

/-- The header in NVM. -/
def State.header (s : State) : Bytes := s.nvmRead 0 256

/-- The manifest the header names. -/
def State.nvmManifest (s : State) : Bytes := s.nvmRead (fieldB s.header 8 4) (fieldB s.header 0x0C 4)

/-- Step 1: SFDP, header, manifest head (R342, R343, R353). -/
def State.bootStep1 (s : State) (sfdp : Bool) (rev : Byte) : BootStep :=
  if !sfdp then .fail (s.nvmViolation 0x7A [rev]) 0x01 1 0
  else match headerFault s.header with
    | some ofs => .fail s 0x02 1 ofs
    | none =>
      let m := s.nvmManifest
      match manifestFault m m.length with
      | some ofs => .fail s 0x02 1 ofs
      | none => .on (s.setBt (fun b => { b with manifest := m }))

/-- The manifest's signature verifies under the header's key (R339, R343); the coordinates and the signature are little-endian, as every field is (log entry 13). -/
def signatureOk (header manifest : Bytes) : Bool :=
  sm2Verify (fieldB header 0x10 32) (fieldB header 0x30 32) (fieldB header 0x50 32) (fieldB header 0x70 32) manifest

/-- Step 2: the key, the signature, the entries (R339, R342, R343). -/
def State.bootStep2 (s : State) : BootStep :=
  let m := s.bt.manifest
  if sm3 (sliceB s.header 0x10 64) != s.bt.keyDigest then .fail s 0x03 2 1
  else if !signatureOk s.header m then .fail s 0x03 2 0
  else match entriesFault (fieldB m 8 4) 0 (entries m) with
    | some ofs => .fail s 0x02 2 ofs
    | none => .on s

/-- Step 3: the security version (R343, R349). -/
def State.bootStep3 (s : State) : BootStep :=
  let m := s.bt.manifest
  let otp := s.get F.BT_OTP_CFG_SVN
  if fieldB m 0 1 < otp then .fail s 0x0A 3 otp
  else .on ((s.set F.BT_IMG_SVN_SVN (fieldB m 0 1)).set F.BT_IMG_SVN_MIN_COLS (fieldB m 1 1))

/-! ### Steps 4 and 5 (R147 to R149, R343) -/

/-- Step 4: supplies, then DRAM training (R343). -/
def State.bootStep4 (s : State) (supplyOk : Bool) (badQuadrant : Option (Fin 4)) : BootStep :=
  if !supplyOk then .fail s 0x09 4 0
  else match badQuadrant with
    | some q => .fail s 0x05 4 q.val
    | none => .on s

/-- Failed cell rows of a physical tile. -/
def bistCellRows (b : BistOutcome) (p r : Nat) : List Nat :=
  (b.failedCellRows.filter (fun x => x.1 == p && x.2.1 == r)).map (fun x => x.2.2)

/-- A physical tile passes: not failed itself, its vault trained and repaired (R147), and at most one failed cell row (R148 step 1). -/
def bistGood (b : BistOutcome) (p r : Nat) : Bool :=
  !b.failedTiles.contains (p, r) && !b.failedVaults.contains (p, r) && decide ((bistCellRows b p r).length ≤ 1)

/-- The good tiles of a row in ascending column. -/
def bistRow (b : BistOutcome) (r : Nat) : List Nat := (List.range 13).filter (fun p => bistGood b p r)

/-- COLS: min(12, the fewest good tiles of a row) (R148 step 2). -/
def bistCols (b : BistOutcome) : Nat := ((List.range 12).map (fun r => (bistRow b r).length)).foldl min 12

/-- A mask of column numbers. -/
def colMask (ps : List Nat) : Nat := ps.foldl (fun m p => m + 2 ^ p) 0

/-- A neighbour's router failed (R147). -/
def bistNearBypass (b : BistOutcome) (p r : Nat) : Bool :=
  b.failedRouters.any (fun x => (x.1 == p && (x.2 + 1 == r || r + 1 == x.2)) || (x.2 == r && (x.1 + 1 == p || p + 1 == x.1)))

/-- The registers of logical tile ℓ after sparing (R148, R171). -/
def State.spareTile (s : State) (b : BistOutcome) (l : Nat) : State :=
  let r := l % 12
  let p := (bistRow b r).getD (l / 12) 0
  ((s.set (F.TL_T_STAT_PCOL l) p).setFlag (F.TL_T_STAT_CELL_SPARE l) ((bistCellRows b p r).any (fun x => decide (x < 32)))).setFlag (F.TL_T_STAT_BYPASS_NEAR l) (bistNearBypass b p r)

/-- The registers of row r after sparing: its map, whether it uses its spare tile, its spare in the pool (R148, R307). -/
def State.spareRow (s : State) (b : BistOutcome) (c r : Nat) : State :=
  let good := bistRow b r
  let active := colMask (good.take c)
  let s := (s.set (F.TL_ROW_MAP_FAILED r) (colMask ((List.range 13).filter (fun p => !bistGood b p r)))).set (F.TL_ROW_MAP_ACTIVE r) active
  let s := s.set F.GLB_SPARE_MAP (putBit (s.get F.GLB_SPARE_MAP) r (active != 2 ^ c - 1))
  s.set F.SF_SPARE_POOL (putBit (s.get F.SF_SPARE_POOL) r (decide (c < good.length)))

/-- Sparing applied for c columns (R148 steps 3 and 4). -/
def State.applySparing (s : State) (b : BistOutcome) (c : Nat) : State :=
  let good := ((List.range 12).map (fun r => (bistRow b r).length)).sum
  let s := (s.set F.GLB_STATUS_COLS c).setFlag F.GLB_STATUS_REDUCED (decide (c < 12))
  let s := (s.set F.TL_STATUS_GOOD good).set F.TL_STATUS_SPARES (good - 12 * c)
  let s := (List.range 12).foldl (fun s r => s.spareRow b c r) s
  let s := (List.range (12 * c)).foldl (fun s l => s.spareTile b l) s
  let s := s.set F.GLB_CELL_SPARED (satNat 8 ((List.range (12 * c)).filter (fun l => s.flag (F.TL_T_STAT_CELL_SPARE l))).length)
  let s := s.set F.SF_STATUS_SPARES s.pooledRows.length
  (s.set F.TL_BOOT_CFG (s.get F.BT_IMG_SVN_MIN_COLS)).setBt (fun x => { x with bist := b })

/-- Step 5: BIST, sparing, the column count and its layout (R148, R149, R341, R343). -/
def State.bootStep5 (s : State) (b : BistOutcome) : BootStep :=
  let c := bistCols b
  let ls := layouts c (entries s.bt.manifest)
  let s := s.applySparing b c
  if c < s.get F.BT_IMG_SVN_MIN_COLS then .fail s 0x06 5 c
  else match ls with
    | [] => .fail s 0x06 5 c
    | [_] => .on s
    | _ :: i :: _ => .fail s 0x02 5 (64 + 64 * i + 1)

/-! ### Steps 6 and 7 (R340, R341, R343, R354) -/

/-- Section i read, compared with its digest, placed, and kept in the shadow area (R340, R343, R354). -/
def State.loadSection (s : State) (i : Nat) (e : Bytes) : BootStep :=
  if !loaded (s.get F.GLB_STATUS_COLS) e then .on s
  else if !s.targetOk e then .fail s 0x02 6 (64 + 64 * i + 0x10)
  else
    let data := s.nvmRead (fieldB e 4 4) (fieldB e 8 4)
    if sm3 data != sliceB e 0x18 32 then .fail s 0x04 6 i
    else
      let s := s.placeSection e data
      .on (if shadowed e then s.setBt (fun b => { b with shadow := assocPut i data b.shadow }) else s)

/-- The sections from entry i on, in manifest order (R341). -/
def State.loadSections (s : State) (i : Nat) : List Bytes → BootStep
  | [] => .on s
  | e :: rest => (s.loadSection i e).andThen (fun s => s.loadSections (i + 1) rest)

/-- Step 6. -/
def State.bootStep6 (s : State) : BootStep := (s.setBt (fun b => { b with shadow := [] })).loadSections 0 (entries s.bt.manifest)

/-- Step 7, and step 4 of a resume: the configuration check (R343, R373). -/
def State.bootCheck (s : State) (step : Nat) : BootStep :=
  match s.checkConfig with
  | (s, none) => .on s
  | (s, some a) => .fail (s.set F.BT_CHECK_OFS (a % 0x10000)) 0x07 step (a / 0x10000)

/-! ### Step 8 (R347, R349, R350, R360) -/

/-- GLB_STATUS at lock (R32, R347). -/
def State.showGlobal (s : State) : State :=
  let parts := (List.range (s.get F.GLB_STATUS_COLS)).map (fun c => s.partOfTile (12 * c))
  let n := s.get F.LK_JOB_CFG_SIZE
  let rank := s.get F.LK_JOB_CFG_RANK
  let s := (s.set F.GLB_STATUS_PARTS (parts.foldl max 0)).set F.GLB_STATUS_JOB_SIZE n
  let s := (s.set F.GLB_STATUS_RANK rank).setFlag F.GLB_STATUS_STANDBY (s.flag F.LK_JOB_CFG_STANDBY_EN && rank == n)
  (s.setFlag F.GLB_STATUS_LOCKED true).setFlag F.GLB_STATUS_RUN true

/-- A tile strip has a tile that serves a logical index or belongs to the pool (R360). -/
def State.stripOn (s : State) (d : Nat) : Bool :=
  let p := d / 3
  (List.range 4).any (fun i =>
    let r := 4 * (d % 3) + i
    let m := s.get (F.TL_ROW_MAP_ACTIVE r)
    let spare := (List.range 13).find? (fun q => s.tileGood q r && !bitOf m q)
    bitOf m p || (bitOf (s.get F.SF_SPARE_POOL) r && spare == some p))

/-- PW_DOM_ON in run state (R359, R360). -/
def State.domainsOn (s : State) : Nat :=
  colMask ((List.range 56).filter (fun d =>
    if d < 39 then s.stripOn d else if d < 48 then true else bitOf (s.get F.PW_DOM_EN) (d - 48)))

/-- Fuses burnt up to the image's version (R349). -/
def State.advanceSvn (s : State) : State :=
  let svn := s.get F.BT_IMG_SVN_SVN
  if bitOf (fieldB s.bt.manifest 2 1) 0 && decide (s.get F.BT_OTP_CFG_SVN < svn) then (s.set F.BT_OTP_CFG_SVN svn).raise 0x19B else s

/-- Marjoram at the start: empty buckets, which only the ticks fill, the image's cap, sensors' zones (R267, R272, R280). -/
def State.startMarjoram (s : State) : State :=
  let s := s.setMj (fun m => { m with cap := s.get F.MJ_CAP_MW, lastTick := s.thy.counter / 1000, sampled := List.replicate 64 s.now })
  let s := s.setMj (fun m => { m with levels := List.replicate 4 0 })
  let s := (List.range 64).foldl (fun s n => s.set (F.MJ_SENSOR_ZONE n) (zoneOfSensor n)) s
  (List.range (s.get F.GLB_STATUS_PARTS + 1)).foldl State.restartTiles s

/-- Lists, semaphores and the list-state table at boot (R262, R265, R266). -/
def State.startLists (s : State) : State :=
  let s := s.set F.CL_STATUS_LISTS (s.get F.CL_LIST_COUNT)
  let s := (List.range 256).foldl (fun s n => s.set (F.CL_SEM n) (s.get (F.CL_SEM_INIT n))) s
  s.lists.foldl (fun s n => s.dramWrite (s.listStateAddr n) (zerosB 16)) s

/-- Corridor memory at boot: heads held, and every page-table entry in state 3 (R199, R209, R210). -/
def State.startCorridor (s : State) : State :=
  let (first, hl) := s.headRange
  let n := s.get F.LK_JOB_CFG_SIZE
  let mirror := s.flag F.LK_JOB_CFG_STANDBY_EN && s.get F.LK_JOB_CFG_RANK == n
  let s := ((s.set F.AT_STATUS_HL hl).set F.AT_STATUS_FIRST_HEAD first).setFlag F.AT_STATUS_MIRROR mirror
  let entry : Bytes := zerosB 5 ++ [3, 0xFF, 0xFF] ++ zerosB 8
  (List.range (hl * s.get F.AT_RING)).foldl (fun s e => s.dramWrite (s.pageAddr e) entry) s

/-- Tarragon at boot: hashes, resident problems (R228, R246). -/
def State.startSolver (s : State) : State :=
  let ps := s.problemsOn
  let s := s.set F.SV_STATUS_RESIDENT ps.length
  ps.foldl (fun s p => (s.set (F.SV_P_HASH0 p) (s.bodyHash p 0)).set (F.SV_P_HASH1 p) (s.bodyHash p 1)) s

/-- The learning chain at boot: epoch 0 at a cold start, else what its state record holds (R222). -/
def State.startCalib (s : State) : State :=
  let s := s.set F.CB_STATUS_MODE (s.get F.CB_CFG_MODE)
  if s.bt.warm && s.get F.CB_CFG_MODE != 0 then s.cbRestore else s

/-- Events as run state begins: signals of status sources, and the latches of Lovage copied, injected and cleared (R281, R291). -/
def State.startEvents (s : State) : State :=
  let s := ((List.range 0x2F).filter isStatusSource).foldl State.followLevel s
  let ls := s.ev.latches
  if ls == 0 then s
  else
    let s := (s.set F.EV_WAKE_LATCH_LO (ls % 2 ^ 32)).set F.EV_WAKE_LATCH_HI (ls / 2 ^ 32)
    let s := ((List.range 64).filter (fun n => bitOf ls n)).foldl State.raise s
    { s with ev := { s.ev with latches := 0 } }

/-- Result sets wait for their start from here on; with none enabled, what a start does for all comes as soon as the hold of R45 lets it (R45, R86, R252). -/
def State.startFusion (s : State) : State :=
  let s := (List.range 4).foldl State.clearVotes s
  let s := s.set F.FU_STATUS_MEAS ((List.range 64).filter (fun i => s.flag (F.FU_MS_CFG_EN i))).length
  let s := { s.setThy (fun t => { t with holdStart := some t.counter }) with lk := { s.lk with startFrom := some s.now } }
  if s.setsOn.isEmpty then ({ s with fu := { s.fu with bare := true } }).bareStart
  else s.setsOn.foldl (fun s rs => s.set (F.FU_RS_STAT_STATE rs) 1) s

/-- The streams configured and the KiB of their FIFOs are shown (R84), and their packet timers begin (R72). -/
def State.startStreams (s : State) : State :=
  let ns := (List.range 48).filter (fun n => s.flag (F.IG_SCFG_EN n))
  let s := (s.set F.IG_STATUS_STREAMS ns.length).set F.IG_SRAM_USED ((ns.map (fun n => s.get (F.IG_FIFO_SIZE n))).sum)
  ns.foldl State.touch s

/-- Links of a job begin to train (R389). -/
def State.startLinks (s : State) : State :=
  if s.inJob then (List.range 4).foldl (fun s l => s.set (F.LK_L_STAT_STATE l) 1) s else s

/-- Vault repair counts and descriptors (R162, R191). -/
def State.startTiles (s : State) : State :=
  let s := (List.range s.tiles).foldl (fun s v =>
    s.set (F.TL_VAULT_REPAIR_LEFT v) (satNat 8 ((List.range 4).map (Config.spareRows v)).sum)) s
  s.set F.DS_STATUS ((List.range (s.get F.DS_TBL_SLOTS)).filter (fun n => (s.desc? n).isSome)).length

/-- The digest of the image kept in Lovage (R340, R354). -/
def State.keepDigest (s : State) : State := s.writeWords (F.BT_IMG_DIGEST 0).addr (wordsOf 8 (sm3 s.bt.manifest))

/-- A loss of the reference while parked is reported once the event tables are there, and PW_STATUS.REF_LOST cleared (R367). -/
def State.reportRefLost (s : State) : State :=
  if s.flag F.PW_STATUS_REF_LOST then (s.setFlag F.PW_STATUS_REF_LOST false).raise 0x1A6 else s

/-- Step 8: lock, run, counts, and every engine's start (R343, R347, R349, R350). -/
def State.startRun (s : State) (ms : Nat) : State :=
  let s := s.showGlobal
  let s := ((s.set F.BT_STATUS 6).set F.BT_BOOT_COUNT_COUNT 0).set F.BT_BOOT_MS ms
  let s := (s.keepDigest).advanceSvn
  let s := (s.set F.PW_STATUS_STATE 0).set64 F.PW_DOM_ON_LO F.PW_DOM_ON_HI s.domainsOn
  let s := s.set F.PW_PLL_STAT_LOCK 0x3F
  let s := (((((s.startMarjoram).startTiles).startLists).startCorridor).startSolver).startCalib
  let s := ((s.startStreams).startLinks).startEvents
  let s := s.setBt (fun b => { b with step := 0, resuming := false, warm := true })
  ((s.reportRefLost).refreshTq).startFusion

/-! ### Attempts (R343 to R345, R350, R351) -/

/-- The watchdog's limit in ms (R344, R358). -/
def State.watchdogMs (s : State) : Nat :=
  let w := s.get F.BT_OTP_CFG_WDOG
  if w == 0 then 10000 else (w + 5) * 1000

/-- The threshold of failed starts (R350). -/
def State.bootThreshold (s : State) : Nat :=
  let t := s.get F.BT_OTP_CFG_THRESH
  if t == 0 then 3 else t

/-- Minimal mode: only Lovage, the host port and the NVM controller are powered (R351). -/
def State.enterMinimal (s : State) : State :=
  let s := s.setFaultN true
  let s := s.writeReg F.GLB_STATUS_RUN.addr 0x0C
  let s := { s with regs := s.regs.filter (fun e => !safetyLogReg e.1) }
  let s := (s.set F.BT_STATUS 7).set64 F.PW_DOM_ON_LO F.PW_DOM_ON_HI (2 ^ 43 + 2 ^ 47)
  s.setBt (fun b => { b with step := 0, resuming := false })

/-- Step `step` of an attempt, unless the attempt is still in it when the command ends. -/
def State.runStep (s : State) (b : BootInputs) (step : Nat) (f : State → BootStep) : BootStep :=
  let s := s.enterStep step
  if b.stopsIn.map Fin.val == some step then .stopped s else f s

/-- The state an attempt leaves. -/
def BootStep.finish (x : BootStep) : State :=
  match x with
  | .on s => s
  | .fail s c k d => s.bootFail c k d
  | .stopped s => s

/-- Step 8, unless the watchdog ran out before it (R344). -/
def State.bootStep8 (s : State) (b : BootInputs) (f : State → State) : BootStep :=
  if s.watchdogMs < b.durationMs then .fail s 0x08 8 0 else .on (f (s.startRun b.durationMs))

/-- The boot steps in order (R343); `after` is what follows step 8. -/
def State.runBoot (s : State) (b : BootInputs) (train : Option (Fin 4)) (after : State → State) : State :=
  ((((((((s.runStep b 1 (fun s => s.bootStep1 b.sfdp b.sfdpRev)).andThen
    (fun s => s.runStep b 2 State.bootStep2)).andThen
    (fun s => s.runStep b 3 State.bootStep3)).andThen
    (fun s => s.runStep b 4 (fun s => s.bootStep4 b.supplyOk train))).andThen
    (fun s => s.runStep b 5 (fun s => s.bootStep5 b.bist))).andThen
    (fun s => s.runStep b 6 State.bootStep6)).andThen
    (fun s => s.runStep b 7 (fun s => s.bootCheck 7))).andThen
    (fun s => s.runStep b 8 (fun s => s.bootStep8 b after))).finish

/-- The time an attempt takes passes on the counter. -/
def State.passMs (s : State) (ms : Nat) : State := s.setThy (fun t => { t with counter := (t.counter + if t.refPresent then ms * 1000000 else 0) % 2 ^ 64 })

/-- An attempt is counted (R350). -/
def State.countAttempt (s : State) : State :=
  let s := (s.set F.BT_BOOT_COUNT_COUNT (satNat 4 (s.get F.BT_BOOT_COUNT_COUNT + 1))).incWrap F.BT_BOOT_COUNT_TOTAL
  s.set F.BT_BOOT_COUNT_THRESH s.bootThreshold

/-- A boot from release of reset, or from a wake out of the Lovage-only state (`cold`) (R343, R350, R372). -/
def State.bootAttempt (s : State) (b : BootInputs) (cold : Bool) : State :=
  let s := ((s.setFaultN true).setFlag F.PW_STATUS_COLD_WAKE cold).setBt (fun x => { x with start := s.thy.counter, inReset := false, hold := none, resuming := false })
  if s.bootThreshold ≤ s.get F.BT_BOOT_COUNT_COUNT then s.enterMinimal
  else ((s.countAttempt).passMs b.durationMs).runBoot b b.badQuadrant id

/-! ### Wake and resume (R354, R371 to R373) -/

/-- Reset at a wake: only what Lovage and the fuses hold stays; Thyme enters Holdover, or Free when it was never locked or the reference was lost (R57, R367). -/
def State.wakeReset (s : State) : State :=
  let once := s.flag F.TB_STATUS_LOCKED_ONCE && !s.flag F.PW_STATUS_REF_LOST
  let t := s.thy
  let z := s.resetBlocks retainedReg
  let thy : ThyState := { ThyState.zero with counter := t.counter, triple := t.triple, refPresent := t.refPresent, tq := if once then .holdover else .free, holdFrom := if once then t.holdFrom else none }
  let z := { z with thy := thy }
  (z.setFlag F.TB_STATUS_LOCKED_ONCE once).nextCrashSlot

/-- What a wake records: source, parked time; PW_PARK_STAT.CODE is not retained (R369, R371, R374). -/
def State.noteWake (s : State) (src : Nat) : State :=
  let ns := (s.thy.counter + 2 ^ 64 - s.pw.parkedAt) % 2 ^ 64
  ((s.set F.PW_STATUS_WAKE_SRC src).set64 F.PW_PARKED_NS_LO F.PW_PARKED_NS_HI ns).set F.PW_PARK_STAT_CODE 0

/-- The retained sections of the given kinds, reloaded from DRAM in manifest order (R354, R373). -/
def State.reload (s : State) (p : Nat → Bool) : State :=
  ((entries s.bt.manifest).zipIdx).foldl (fun s x =>
    match assocGet x.2 s.bt.shadow with
    | some data => if p (fieldB x.1 0 1) then s.placeSection x.1 data else s
    | none => s) s

/-- Steps 1 to 5 of a resume that needs no full boot (R373). -/
def State.resumeSteps (s : State) (b : BootInputs) : BootStep :=
  ((((s.runStep b 1 (fun s => if b.supplyOk then .on s else .fail s 0x09 1 0)).andThen
    (fun s => s.runStep b 2 (fun s => .on s))).andThen
    (fun s => s.runStep b 3 (fun s => .on ((s.applySparing s.bt.bist (bistCols s.bt.bist)).reload (fun t => t != 6))))).andThen
    (fun s => s.runStep b 4 (fun s => (s.reload (fun t => t == 6)).bootCheck 4))).andThen
    (fun s => s.runStep b 5 (fun s => .on ((s.startRun b.durationMs).raise 0x1A2)))

/-- What a failed recalibration or a stale copy leaves before its full boot: cause recorded, PW_STATUS.STATE booting (R354, R373). -/
def State.fullBootAfter (s : State) (cause step detail : Nat) : State :=
  ((s.recordCause cause step detail).set F.PW_STATUS_STATE 4).setBt (fun x => { x with resuming := false })

/-- A resume from the retained state, after the reset of a wake (R373). -/
def State.resume (s : State) (b : BootInputs) : State :=
  let s := (s.setFaultN true).setBt (fun x => { x with start := s.thy.counter, inReset := false, resuming := true })
  let s := (((s.set F.PW_STATUS_STATE 3).setFlag F.PW_STATUS_COLD_WAKE false).countAttempt).passMs b.durationMs
  match b.supplyOk, b.badQuadrant, b.staleEntry with
  | true, some q, _ => (s.fullBootAfter 0x05 2 q.val).runBoot b b.retrain id
  | true, none, some e => (s.fullBootAfter 0x04 9 e).runBoot b b.retrain (fun s => s.raise 0x19C)
  | _, _, _ => (s.resumeSteps b).finish

/-- A wake from the Lovage-only state: a cold boot, without DRAM contents (R372). -/
def State.coldWake (s : State) (b : BootInputs) : State :=
  let s := ({ s with dram := [] }).setBt (fun x => { x with manifest := [], shadow := [], warm := false })
  (s.set F.PW_STATUS_STATE 4).bootAttempt b true

/-- A wake by a latch (R370 to R373). -/
def State.wakeBy (s : State) (src : Nat) (b : BootInputs) : State :=
  let cold := s.pw.lovageOnly
  let s := (s.wakeReset).noteWake src
  if cold then s.coldWake b else s.resume b

end Sys2Proof.Machine
end

