-- ==== Sys2Proof/Machine/PinOps.lean ====
section
/-! DEFINITION. The output pins after a command, and a command's answer (R288, R296, R298, R357, R413). -/

namespace Sys2Proof.Machine

/-- Host pin h is asserted: a deliverable, unmasked source is routed to it, and the event controller is powered (R288, R413). -/
def State.pinAsserted (s : State) (h : Nat) : Bool := !s.parked && !(s.pinSources h).isEmpty

/-- EXTEST drives the pins: while the part is held in reset (R357). -/
def State.extestDrives (s : State) : Bool := s.jt.instr == .extest && s.bt.inReset

/-- The output pins driven as the state asks. -/
def State.drive (s : State) : State :=
  { s with pins := ⟨s.flag F.SF_STATUS_FAULT, s.flag F.SF_STATUS_HB, s.pinAsserted 0, s.pinAsserted 1, s.extestDrives⟩ }

/-- A command has run: the next state, its pins driven. -/
def ran (s : State) : Host.Outcome State Fault Refusal := .next s.drive

end Sys2Proof.Machine
end

