-- ==== Sys2Proof/Machine/Boot.lean ====
section
/-! DEFINITION. Boot, minimal mode, NVM, attestation (R339 to R358, R409). -/

namespace Sys2Proof.Machine

/-! ### Starts (R332, R343 to R345, R350, R409) -/

/-- The device warm reset that waits for its record or for 1 ms may go on (R332 step 1). -/
def State.resetDue (s : State) : Bool :=
  match s.rc.devReset with
  | some c => decide (c + 1000000 ≤ s.now) || s.rc.jobs.all (fun j => j.slot != s.get F.RC_LAST_SLOT)
  | none => false

/-- Reset is released: minimal mode, or the boot steps (R343, R350). -/
def execPowerOnResetRelease (dt : Nat) (b : BootInputs) (s : State) : Host.Outcome State Fault Refusal :=
  let s := s.elapse dt
  let s := if s.resetDue then s.deviceReset else s
  ran (if s.bt.inReset then s.bootAttempt b false else s)

/-- Everything is reset, Lovage included: NVM and fuses alone stay (R33, R350, R409). -/
def State.lovageReset (s : State) : State :=
  let z := State.reset
  let fuse := fun a => a == 0xF0014 || within 0xF0080 a 0xF00CB || within 0xF0400 a 0xF07FF
  { z with regs := s.regs.filter (fun e => fuse e.1), nvm := s.nvm, freeCtr := s.freeCtr, pending := s.pending, jt := s.jt, pins := s.pins, bt := { z.bt with keyDigest := s.bt.keyDigest } }

/-- PORST_N is low for `lowNs` (R409). -/
def execPorstAssert (dt lowNs : Nat) (s : State) : Host.Outcome State Fault Refusal :=
  let s := s.elapse dt
  if 10000 ≤ lowNs then ran s.lovageReset
  else if lowNs < 1000 then ran s
  else
    let takes := Config.porstTakes s.freeCtr lowNs
    let s := s.nextFree
    ran (if takes then s.lovageReset else s)

/-- The boot watchdog (R344). -/
def execBootWatchdogExpiry (dt : Nat) (s : State) : Host.Outcome State Fault Refusal :=
  let s := s.elapse dt
  ran (if s.bt.step != 0 && decide (s.bt.start + s.watchdogMs * 1000000 ≤ s.thy.counter) then s.bootFail 0x08 s.bt.step 0 else s)

/-- A supply or a Tj outside its limits for 1 ms (R344). -/
def execBootSupplyFault (dt : Nat) (s : State) : Host.Outcome State Fault Refusal :=
  let s := s.elapse dt
  ran (if s.bt.step != 0 then s.bootFail 0x09 s.bt.step 0 else s)

/-- No valid SFDP answer within 10 ms (R343, R353). -/
def execSfdpTimeout (dt : Nat) (s : State) : Host.Outcome State Fault Refusal :=
  let s := s.elapse dt
  ran (if s.bt.step == 1 && !s.bt.resuming && decide (s.bt.start + 10000000 ≤ s.thy.counter) then (s.nvmViolation 0x7A [0]).bootFail 0x01 1 0 else s)

/-- The section that step 6 reads when it reads NVM byte `a`. -/
def State.sectionAt (s : State) (a : Nat) : Nat :=
  let es := entries s.bt.manifest
  ((List.range es.length).find? (fun i => decide (fieldB (es.getD i []) 4 4 ≤ a) && decide (a < fieldB (es.getD i []) 4 4 + fieldB (es.getD i []) 8 4))).getD 0

/-- A read of NVM ends: the boot step fails, or the minimal-mode read ends (R353). -/
def State.readEnds (s : State) (a : Nat) : State :=
  if s.bt.step == 1 then s.bootFail 0x02 1 0
  else if s.bt.step == 6 then
    let i := s.sectionAt a
    ((s.loadSections 0 ((entries s.bt.manifest).take i)).andThen (fun s => .fail s 0x04 6 i)).finish
  else (s.setFlag F.BT_MIN_STAT_BUSY false).setBt (fun b => { b with nvmJob := none })

/-- NVM is being read: by step 1 or 6 of a boot, or by a minimal-mode read (R343, R352). -/
def State.nvmReading (s : State) : Bool :=
  (!s.bt.resuming && (s.bt.step == 1 || s.bt.step == 6)) ||
  (match s.bt.nvmJob with
   | some j => j.1 == 1
   | none => false)

/-- No data strobe within 1 µs of a read command (R353). -/
def execNvmReadTimeout (dt : Nat) (addr : BitVec 29) (s : State) : Host.Outcome State Fault Refusal :=
  let s := s.elapse dt
  ran (if s.nvmReading then (s.nvmViolation 0x78 (leBytes 4 addr.toNat)).readEnds addr.toNat else s)

/-- The 100 ms after a cause are over: a device warm reset (R345). -/
def execBootRetryHoldExpiry (dt : Nat) (s : State) : Host.Outcome State Fault Refusal :=
  let s := s.elapse dt
  ran (match s.bt.hold with
    | some c => if c + 100000000 ≤ s.thy.counter then s.deviceReset else s
    | none => s)

/-! ### Minimal mode (R351 to R353) -/

/-- A rejected command: BT_MIN_STAT.REJECTED, and the rejected-write status (R352). -/
def State.minReject (s : State) : State := (s.incSat F.BT_MIN_STAT_REJECTED).hostRejected opcodeWr4 F.BT_MIN_CMD_OP.addr

/-- A host write of BT_MIN_CMD: executed as `f` in minimal mode with the right key and no command in progress; outside minimal mode as R346, R348 and R370 say (R352). -/
def State.minCommand (s : State) (key : BitVec 16) (f : State → State) : State :=
  if !s.minimal then
    (if s.pw.lovageOnly then s
     else if s.parkedRetained then s.hostUnpowered opcodeWr4 F.BT_MIN_CMD_OP.addr 0
     else s.hostLocked F.BT_MIN_CMD_OP.addr)
  else if key != 0x6D4E || s.flag F.BT_MIN_STAT_BUSY then s.minReject
  else f s

/-- A flash command begins: BUSY, LAST_OP, ERR cleared (R352). -/
def State.flashBegin (s : State) (op : Nat) : State :=
  let job := (op, (s.get F.BT_NVM_ADDR / 256 * 256, s.regBytes (F.BT_NVM_BUF 0).addr 64))
  let s := ((s.setFlag F.BT_MIN_STAT_BUSY true).setFlag F.BT_MIN_STAT_ERR false).set F.BT_MIN_STAT_LAST_OP op
  (s.setBt (fun b => { b with nvmJob := some job })).hostOk

/-- Command 4 executed. -/
def State.minRetry (s : State) : State := (((s.set F.BT_MIN_STAT_LAST_OP 4).hostOk).set F.BT_BOOT_COUNT_COUNT 0).deviceReset

/-- Command 1: 256 bytes of NVM into the buffer. -/
def execMinRead (dt : Nat) (key : BitVec 16) (s : State) : Host.Outcome State Fault Refusal :=
  ran ((s.elapse dt).minCommand key (fun s => s.flashBegin 1))

/-- Command 2: the buffer into a page of NVM. -/
def execMinProgram (dt : Nat) (key : BitVec 16) (s : State) : Host.Outcome State Fault Refusal :=
  ran ((s.elapse dt).minCommand key (fun s => s.flashBegin 2))

/-- Command 3: a sector of NVM erased. -/
def execMinErase (dt : Nat) (key : BitVec 16) (s : State) : Host.Outcome State Fault Refusal :=
  ran ((s.elapse dt).minCommand key (fun s => s.flashBegin 3))

/-- Command 4: the count cleared, and a boot from step 1 through a device warm reset. -/
def execMinRetry (dt : Nat) (key : BitVec 16) (s : State) : Host.Outcome State Fault Refusal :=
  ran ((s.elapse dt).minCommand key State.minRetry)

/-- The effect of a finished flash command on NVM or the buffer (R352); what a failed program or erase leaves is open (log entry 58). -/
def State.flashDone (s : State) (op a : Nat) (data : Bytes) (failed : Bool) : State :=
  let free := fun n => (List.range n).map (fun i => Config.flashByte s.freeCtr (a + i))
  match op with
  | 1 => s.writeWords (F.BT_NVM_BUF 0).addr (wordsOf 64 (s.nvmRead a 256))
  | 2 => { s with nvm := Memory.writeRange nvmDefault s.nvm a (if failed then free 256 else data) }
  | _ =>
    let base := a / 65536 * 65536
    let nvm := s.nvm.filter (fun e => decide (e.1 < base) || decide (base + 65536 ≤ e.1))
    { s with nvm := if failed then Memory.writeRange nvmDefault nvm base ((List.range 65536).map (fun i => Config.flashByte s.freeCtr (base + i))) else nvm }

/-- The flash reports completion (R352, R353). -/
def execNvmOperationComplete (dt : Nat) (failed : Bool) (status : Byte) (s : State) : Host.Outcome State Fault Refusal :=
  let s := s.elapse dt
  match s.bt.nvmJob with
  | none => ran s
  | some (op, a, data) =>
    let bad := failed && op != 1
    let s := ((s.flashDone op a data bad).nextFree).setFlag F.BT_MIN_STAT_BUSY false
    let s := s.setBt (fun b => { b with nvmJob := none })
    ran (if bad then (s.setFlag F.BT_MIN_STAT_ERR true).nvmViolation 0x79 (leBytes 4 a ++ [status]) else s)

/-! ### Attestation (R356) -/

/-- A nonce write while a report is being signed: refused, counted, event 0x19A (R356). -/
def State.nonceRefused (s : State) (n : Nat) : State :=
  ((s.incSat F.BT_ATT_STAT_REJ).raise 0x19A).hostRejected opcodeWr4 (F.BT_ATT_NONCE n).addr

/-- A host write of a nonce word (R356, R358). -/
def State.nonceWrite (s : State) (n : Nat) (v : Word) : State :=
  if s.flag F.BT_ATT_STAT_BUSY then s.nonceRefused n
  else
    let s := s.setBt (fun b => { b with nonce := patchB b.nonce (4 * n) (leBytes 4 v.toNat) })
    let s := if n == 3 then
        ((s.setFlag F.BT_ATT_STAT_BUSY true).setFlag F.BT_ATT_STAT_DONE false).writeWords (F.BT_ATT_REPORT 0).addr (List.replicate 40 0)
      else s
    s.hostOk

/-- The host writes BT_ATT_NONCE3 (R356). -/
def execAttestationRequest (dt : Nat) (nonce3 : Word) (s : State) : Host.Outcome State Fault Refusal :=
  ran ((s.elapse dt).hostWrite (F.BT_ATT_NONCE 3).addr (fun s => s.nonceWrite 3 nonce3))

/-- Bytes 0x00 to 0x5F of a report (R356); COUNT is that after this report. -/
def State.reportBody (s : State) : Bytes :=
  [0x01, 0x00, 0x88, 0x09, BitVec.ofNat 8 (s.get F.GLB_ID_STEPPING), 0, 0, 0] ++ leBytes 4 (s.get F.BT_IMG_SVN_SVN) ++ leBytes 4 (s.get F.BT_OTP_CFG_SVN) ++
    leBytes 4 (s.get F.CB_EPOCH) ++ leBytes 4 (s.get F.BT_ATT_STAT_COUNT) ++ leBytes 4 (s.get F.BT_UID_LO) ++ leBytes 4 (s.get F.BT_UID_HI) ++
    sliceB s.bt.nonce 0 16 ++ s.regBytes (F.BT_IMG_DIGEST 0).addr 8 ++ leBytes 8 s.now ++ zerosB 8

/-- Signing is done: the report, DONE, COUNT, event 0x199 (R356). -/
def execAttestationDone (dt : Nat) (s : State) : Host.Outcome State Fault Refusal :=
  let s := s.elapse dt
  if s.flag F.BT_ATT_STAT_BUSY && s.running then
    let s := s.incWrap F.BT_ATT_STAT_COUNT
    let body := s.reportBody
    let report := body ++ (List.range 64).map (Config.attestSign s.freeCtr body)
    let s := (s.nextFree).writeWords (F.BT_ATT_REPORT 0).addr (wordsOf 40 report)
    ran (((s.setFlag F.BT_ATT_STAT_BUSY false).setFlag F.BT_ATT_STAT_DONE true).raise 0x199)
  else ran s

end Sys2Proof.Machine
end

