-- ==== Sys2Proof/Machine/CollectOps.lean ====
section
/-! DEFINITION. Collectives: shares, parts received, the tree over ranks, what a COLLECT writes (R209, R336, R392, R393). -/

namespace Sys2Proof.Machine

/-- A COLLECT record (R256): mode, root, head-output gather, source and destination slots. -/
structure CollCmd where
  mode : Nat
  root : Nat
  heads : Bool
  src : Nat
  dst : Nat
  deriving DecidableEq, Repr

/-- The fields of a COLLECT record. -/
def CollCmd.ofBytes (b : Bytes) : CollCmd :=
  { mode := bitsOf (fieldB b 8 1) 0 2, root := fieldB b 9 1, heads := bitOf (fieldB b 10 1) 0, src := fieldB b 12 2, dst := fieldB b 14 2 }

/-! ### Tensors as rows -/

/-- A tensor's bytes, row after row. -/
def State.packedBytes (s : State) (d : Desc) : Bytes := d.rowList.flatMap (fun a => s.dramRead a d.rowLen)

/-- Bytes written at offset `ofs` of a tensor's rows; nothing beyond its last row. -/
def State.writePacked (s : State) (d : Desc) (ofs : Nat) (bs : Bytes) : State :=
  let rows := d.rowList
  let w := d.rowLen
  bs.zipIdx.foldl (fun s x => match rows[(ofs + x.2) / w]? with
    | some a => s.dramPut (a + (ofs + x.2) % w) x.1
    | none => s) s

/-! ### Ranks (R209, R392, R393) -/

/-- This part is the warm standby: of collectives it takes part in broadcasts alone (R393). -/
def State.isStandby (s : State) : Bool := s.flag F.GLB_STATUS_STANDBY

/-- Bytes of one head in a row of a gathered tensor. -/
def State.headBytes (s : State) (dst : Desc) : Nat := dst.rowLen / s.get F.AT_CFG_HEADS

/-! ### Shares -/

/-- The bytes expected from a rank: its block, its heads of every row, the root's source, a slice. -/
def State.shareLen (s : State) (x : CollCmd) (src dst : Desc) (r : Nat) : Nat :=
  let whole := src.rowList.length * src.rowLen
  match x.mode with
  | 0 => if x.heads then dst.rowList.length * ((s.headsOf r).2 * s.headBytes dst) else whole
  | 1 => whole / s.activeRanks.length
  | _ => dst.rowList.length * dst.rowLen

/-- The ranks a COLLECT needs a share of. -/
def State.shareRanks (s : State) (x : CollCmd) : List Nat := if x.mode == 2 then [x.root] else s.activeRanks

/-- The ranks this part sends a share of `x` to. -/
def State.shareTo (s : State) (x : CollCmd) : List Nat :=
  if x.mode == 2 then (if x.root == s.ownRank then s.otherRanks else [])
  else s.otherRanks.filter (fun r => s.activeRanks.contains r)

/-- What this part's source gives rank r. -/
def State.ownShare (s : State) (x : CollCmd) (src : Desc) (r : Nat) : Bytes :=
  let b := s.packedBytes src
  if x.mode == 1 then
    let n := b.length / s.activeRanks.length
    sliceB b (r * n) n
  else b

/-- The parts of a collective received from a rank. -/
def State.partsOf (s : State) (list idx r : Nat) : List CollPart := s.lk.parts.filter (fun p => p.list == list && p.idx == idx && p.rank == r)

/-- A rank's share: this part's own, or as the parts give it. -/
def State.shareOf (s : State) (x : CollCmd) (src dst : Desc) (list idx r : Nat) : Bytes :=
  if r == s.ownRank then s.ownShare x src r
  else (s.partsOf list idx r).foldl (fun b p => patchB b p.ofs p.data) (zerosB (s.shareLen x src dst r))

/-- Every share is there. -/
def State.sharesThere (s : State) (x : CollCmd) (src dst : Desc) (list idx : Nat) : Bool :=
  (s.shareRanks x).all (fun r => r == s.ownRank || decide (s.shareLen x src dst r ≤ ((s.partsOf list idx r).map (fun p => p.data.length)).sum))

/-! ### What a COLLECT writes (R392) -/

/-- The sum of the shares of a reduce-scatter: the tree of R155 over ranks, element by element. -/
def reduceShares (int : Bool) (shares : List (Nat × Bytes)) (len : Nat) : Bytes :=
  (List.range (len / 4)).flatMap (fun j =>
    let xs : List Part := shares.map (fun p =>
      let w := fieldB p.2 (4 * j) 4
      (⟨p.1, if int then Fl.ofInt (signedOf 32 w) else fp32 w, []⟩ : Part))
    let v := ((treeReduce (accAdd int) 8 xs).headD ⟨0, .nan, []⟩).v
    leBytes 4 (if int then patternOf 32 (v.rneInt.getD 0) else toFp32 v))

/-- A rank's share of an all-gather placed in the destination (R209, R392). -/
def State.placeShare (s : State) (x : CollCmd) (dst : Desc) (r : Nat) (b : Bytes) : State :=
  if x.heads then
    let (first, n) := s.headsOf r
    let u := s.headBytes dst
    (List.range dst.rowList.length).foldl (fun s j => s.writePacked dst (j * dst.rowLen + first * u) (sliceB b (j * (n * u)) (n * u))) s
  else s.writePacked dst (r * b.length) b

/-- The problem whose output ring holds a device address. -/
def State.ringProblem (s : State) (a : Nat) : Option Nat :=
  (List.range 32).find? (fun p => s.flag (F.SV_P_CFG_EN p) && (match s.outDesc p with
    | some d => decide (d.base ≤ a) && decide (a < d.base + d.extent)
    | none => false))

/-- The standby keeps a record broadcast into a problem's output ring as that problem's warm state (R29, R393; that the ring says whose record it is, is DEDUCED, log entry 114): the solution is an open value of the record's bytes, which R237 leaves to the image. -/
def State.mirrorRecord (s : State) (dst : Desc) (record : Bytes) : State :=
  match s.ringProblem dst.base with
  | some p =>
    let st := b2n (bitOf (fieldB record 12 4) 5)
    let key := record.map (fun b => b.toNat)
    let m := s.dofCount p st
    let joints := (List.range (s.get (F.SV_P_SHAPE_DOF p))).map (fun d => if d < m then satSigned 32 (Config.jointNext key d) else 0)
    let rotations := (List.range (s.rotationCount p st)).map (fun r => (List.range 4).map (fun i => satSigned 32 (Config.rotationNext key r i)))
    (s.putProb p { s.prob p with warm := ⟨joints, rotations, Config.warmState key⟩ }).set (F.SV_P_WARM_HASH p) (s.structHash p st)
  | none => s

/-- A collective whose shares are there takes effect. -/
def State.collectWrite (s : State) (x : CollCmd) (src dst : Desc) (list idx : Nat) : State :=
  let shares : List (Nat × Bytes) := (s.shareRanks x).map (fun r => (r, s.shareOf x src dst list idx r))
  let s := match x.mode with
    | 0 => (if x.heads then s.incWrap F.AT_GATHERS else s) |> fun s => shares.foldl (fun (s : State) (p : Nat × Bytes) => s.placeShare x dst p.1 p.2) s
    | 1 => s.writePacked dst 0 (reduceShares (src.elem == ElemType.q32) shares (s.shareLen x src dst s.ownRank))
    | _ => shares.foldl (fun (s : State) (p : Nat × Bytes) => let s := s.writePacked dst 0 p.2
        if s.isStandby then s.mirrorRecord dst p.2 else s) s
  s.setLk (fun k => { k with parts := k.parts.filter (fun p => !(p.list == list && p.idx == idx)) })

/-- A COLLECT completes without data: its result is below the resume sequence, or a rank that no standby covers is absent (R336, R394). -/
def State.collectSkips (s : State) (i : Inst) : Bool :=
  i.bound.any (fun b => s.jobPartial b.1 b.2) || decide (b2n (s.flag F.LK_JOB_CFG_STANDBY_EN) < s.rc.absent.length)

/-- The IDX of an instance as flits carry it. -/
def Inst.flitIdx (i : Inst) : Nat := i.idx % 2 ^ 32

/-- This part's own shares sent, once for each collective. -/
def State.sendShares (s : State) (x : CollCmd) (src : Desc) (list idx : Nat) : State :=
  if assocGet list s.lk.shared == some idx then s
  else
    let s := (s.shareTo x).foldl (fun s r => s.sendMsg 1 r [list, idx] (s.ownShare x src r)) s
    s.setLk (fun k => { k with shared := assocPut list idx k.shared })

/-- COLLECT (R256, R392): the shares sent, then the effect once all are there. -/
def State.collectBody (s : State) (i : Inst) (record : Bytes) : State × CmdEnd :=
  let x := CollCmd.ofBytes record
  if s.collectSkips i || (s.isStandby && x.mode != 2) then (s, .done)
  else
    s.withDesc i x.src fun s src => s.withDesc i x.dst fun s dst =>
      if x.mode == 1 && !(src.elem == .fp32 || (src.elem == .q32 && src.qfrac == 0)) then (s, .error 0x06)
      else
        let s := s.sendShares x src i.run i.flitIdx
        if s.sharesThere x src dst i.run i.flitIdx then (s.collectWrite x src dst i.run i.flitIdx, .done)
        else (s, .wait .collective)

/-- The COLLECT an instance waits in may go on (R336, R392). -/
def State.collectOver (s : State) (i : Inst) : Bool :=
  let x := CollCmd.ofBytes (s.nextCmd i)
  s.collectSkips i ||
  (match s.descFor i x.src, s.descFor i x.dst with
   | some src, some dst => s.sharesThere x src dst i.run i.flitIdx
   | _, _ => true)

/-! ### Parts received (R392) -/

/-- A collective a flit names is running on this part or still to come. -/
def State.collectMatches (s : State) (list idx : Nat) : Bool :=
  let at_ := (List.range (s.listHdr list).count).find? (fun n => opcodeOf (s.listCmd list n) == some .collect)
  s.lists.contains list &&
  (match at_, s.cl.insts.find? (fun i => i.run == list && i.flitIdx == idx) with
   | none, _ => false
   | some n, some i => decide (i.cmd ≤ n)
   | some _, none => (match assocGet list s.lk.shared with
     | some last => serialLater 32 idx last
     | none => true))

/-- A collective part received: kept, or dropped with code 0x85 (R392). -/
def State.collectPart (s : State) (l rank : Nat) (fields : List Nat) (data : Bytes) : State :=
  let list := fields.getD 0 0
  let idx := fields.getD 1 0
  let s := s.setRc (fun r => { r with heard := assocPut rank s.now r.heard })
  if s.collectMatches list idx then
    let p : CollPart := ⟨list, idx, rank, fields.getD 2 0, data⟩
    s.setLk (fun k => { k with parts := k.parts ++ [p] })
  else (s.violation (0x14 + l) 0x85 (leBytes 2 list ++ leBytes 4 idx)).raise 0x1AC

end Sys2Proof.Machine
end

