-- ==== Sys2Proof/Machine/ParkOps.lean ====
section
/-! DEFINITION. Parking: acceptance, drain, the steps that switch off, alarms and latches while parked, and what ends a wait for it (R365 to R371). -/

namespace Sys2Proof.Machine

/-- Power's own state changed. -/
def State.setPw (s : State) (f : PwState → PwState) : State := { s with pw := f s.pw }

/-- A recovery is in progress (R333, R368). -/
def State.recovering (s : State) : Bool := !s.rc.ctxs.isEmpty || !s.rc.parts.isEmpty || s.rc.devReset.isSome

/-! ### The switch-off (R365, R369 steps 5 to 8) -/

/-- The counter value that maps to device time `t` (R365): the least at which R34 gives `t` or more. -/
def Triple.counterAt (x : Triple) (t : Nat) : Nat :=
  let num : Int := ((t : Int) - x.offInt) * 2 ^ 40 - ((x.offFrac * 2 ^ 24 : Nat) : Int) + (x.anchor : Int) * x.rate
  let den : Int := 2 ^ 40 + x.rate
  (-(-num / den)).toNat

/-- The armed alarms as counter values (R365). -/
def State.alarmCounts (s : State) : List (Nat × Nat) :=
  ((List.range 4).filter (fun a => s.flag (F.PW_ALARM_STAT_ARMED a))).map
    (fun a => (a, s.thy.triple.counterAt (s.get64 (F.PW_ALARM_LO a) (F.PW_ALARM_HI a))))

/-- Chervil ends supervision for a park (R297, R369 step 5). -/
def State.endSupervision (s : State) : State :=
  let s := s.safetyLog (SafetyRec.of 0x52 0)
  let s := ((s.setFaultN true).setFlag F.SF_STATUS_SUPERVISING false).setFlag F.SF_STATUS_HB false
  s.outputsSafe

/-- The domains that stay on in a parked state (R359). -/
def parkedDomains (retain : Bool) : Nat := if retain then 2 ^ 39 + 2 ^ 40 + 2 ^ 41 + 2 ^ 42 + 2 ^ 43 + 2 ^ 47 else 2 ^ 43

/-- Steps 5 to 8 of a park (R369, R370, R407): what the blocks that go off held is gone; their registers are read only where R370 says. -/
def State.parkFinish (s : State) : State :=
  let retain := s.pw.retain
  let alarms := s.alarmCounts
  let s := s.endSupervision
  let t := s.thy
  let wake := s.pw.wake
  let z := s.resetBlocks (fun _ => true)
  let s := { z with thy := t, pw := { PwState.zero with lovageOnly := !retain, parkedAt := t.counter, alarms := alarms, wake := wake, pwrMain := false, pwrMem := retain } }
  let s := s.setBt (fun b => { b with inReset := false })
  let s := (s.set F.PW_STATUS_STATE (if retain then 2 else 4)).set64 F.PW_DOM_ON_LO F.PW_DOM_ON_HI (parkedDomains retain)
  let s := (s.incWrap F.PW_PARK_STAT_COUNT).setFlag F.PW_PARK_STAT_MODE retain
  s.setFlag F.GLB_STATUS_RUN false

/-! ### Acceptance and drain (R368, R369 steps 1 to 4) -/

/-- Every running and waiting instance has ended, every set has stopped, every result has left; a held fusion engine leaves none (R331, R369). -/
def State.drained (s : State) : Bool :=
  s.cl.insts.isEmpty && s.cl.occs.isEmpty && !s.recovering &&
    (s.rc.fusionHeld || (s.get F.FU_STATUS_RS_RUN == 0 && s.fu.emit.isNone && s.fu.results.all (fun r => r.emitted)))

/-- A park accepted (R368, R369 steps 1 and 2): sets that wait for their start do not start, instances that bind no result are not taken up. -/
def State.parkAccept (s : State) (retain : Bool) : State :=
  let s := ((s.set F.PW_PARK_STAT_CODE 0).set F.PW_STATUS_STATE 1).raise 0x1A0
  let s := s.setPw (fun p => { p with retain := retain, parkAt := s.now, waiting := none, wake := none })
  let s : State := { s with ev := { s.ev with latches := 0 }, fu := { s.fu with bare := false } }
  let s := (List.range 4).foldl (fun s rs => if s.get (F.FU_RS_STAT_STATE rs) == 1 then s.set (F.FU_RS_STAT_STATE rs) 0 else s) s
  (s.cl.insts.filter (fun i => !i.onQueue && i.bound.isEmpty)).foldl State.dropInst s

/-- A park that waits for a recovery is accepted once none is in progress (R368). -/
def State.parkWaiting (s : State) : State :=
  match s.pw.waiting with
  | some retain => if s.recovering || !s.running then s else s.parkAccept retain
  | none => s

/-- What a change may let a park do: be accepted after its wait, switch off once drained, wake at once by a latch that was set meanwhile (R368, R369, R371). -/
def State.parkCheck (s : State) : State :=
  let s := s.parkWaiting
  if s.parking && s.drained then
    let s := s.parkFinish
    match s.pw.wake with
    | some (src, b) => s.wakeBy src b
    | none => s
  else s

/-- What is left at the drain limit is removed without a record (R325, R369 step 4). -/
def State.parkRemove (s : State) : State :=
  let s := (s.set F.PW_PARK_STAT_CODE 4).raise 0x1A4
  let s := (List.range 64).foldl (fun s c => ((s.clearPending c).1.removeCtx c).1) s
  s.settle false

/-! ### Latches (R291, R366, R371) -/

/-- The edge a latch captures: EV_WAKE_EDGE, for a comparator its POL. -/
def State.latchFalls (s : State) (src : Nat) : Bool :=
  if within 0x1C src 0x1F then s.flag (F.PW_CMP_CFG_POL (src - 0x1C)) else s.maskBit F.EV_WAKE_EDGE_LO F.EV_WAKE_EDGE_HI src

/-- The latch wakes the part (R371). -/
def State.latchWakes (s : State) (src : Nat) : Bool := within 0x1C src 0x24 && s.maskBit F.EV_WAKE_EN_LO F.EV_WAKE_EN_HI src

/-- An edge at latch `src`, from the acceptance of a park on: the latch is set, and an enabled one wakes the part, after step 8 when the park is in progress (R291, R371). -/
def State.latchEdge (s : State) (src : Nat) (rising : Bool) (b : BootInputs) : State :=
  if !(s.parking || s.parked) || s.latchFalls src == rising then s
  else
    let s := { s with ev := { s.ev with latches := putBit s.ev.latches src true } }
    if !s.latchWakes src then s
    else if s.parked then s.wakeBy src b
    else if s.pw.wake.isSome then s
    else s.setPw (fun p => { p with wake := some (src, b) })

end Sys2Proof.Machine
end

