-- ==== Sys2Proof/Machine/CmdOps.lean ====
section
/-! DEFINITION. How a queue runs a command of its instance: budgets (R299), SRAM buffers (R160), uncorrectable errors (R163), command errors (R259), completion and waits (R255, R257, R317). -/

namespace Sys2Proof.Machine

/-- A command error of an instance (R259): its registers, event 0x160, and the context reset. -/
def State.cmdError (s : State) (i : Inst) (code : Nat) : State :=
  let s := (s.set F.CL_ERR_LAST_CODE code).set F.CL_ERR_LAST_LIST i.run
  let s := (s.set F.CL_ERR_CMD_INDEX i.cmd).set F.CL_ERR_CMD_CTX (s.runHdr i).ctx
  let s := (s.incSat F.CL_ERR_COUNT).raise 0x160
  s.ctxTriggerInst 2 i (s.readReg F.CL_ERR_LAST_CODE.addr).toNat

/-- An uncorrectable error met by an access of a context (R163, R218): what is recorded of it. -/
def State.meetUe (s : State) (ctx : Nat) (u : UeReport) : State :=
  let s := s.recordUe (some ctx) u.src.val u.tile.val u.addr
  if u.src.val == 2 then s else s.cbUe u.addr

/-- A region of device memory that holds a local address. -/
def State.regionHolds (s : State) (base len a : Nat) : Bool := (List.range (cdiv len 8)).any (fun j => (s.toLocal (base + 8 * j)).map (fun x => x / 8) == some (a / 8))

/-- A local address lies in the source ring, the page pool or the page table (R208). -/
def State.inCorridor (s : State) (a : Nat) : Bool :=
  let tensor := fun (slot : Nat) => (s.desc? slot).any (fun d => s.regionHolds d.base d.extent a)
  tensor (s.get F.AT_SRC_DESC) || tensor (s.get F.AT_KV_DESC) || s.regionHolds (s.pageAddr 0) (16 * s.atHL * s.atS) a

/-- An uncorrectable error of an instance's command: the command does not complete, its context is reset (R163); in corridor memory it is the corridor's context that is faulted (R208). -/
def State.faultInst (s : State) (i : Inst) (u : UeReport) : State :=
  let ctx := if u.src.val != 2 && s.inCorridor u.addr then s.get F.AT_CFG_CTX else (s.runHdr i).ctx
  let s := s.meetUe ctx u
  if ctx == (s.runHdr i).ctx then s.ctxTriggerInst 3 i u.addr else s.ctxTriggerOf ctx 3 u.addr

/-- An instance completes its command and goes on at command n (R255, R317). -/
def State.advance (s : State) (i : Inst) (n : Nat) : State :=
  let s := s.putInst { i with cmd := n, phase := .running, wait := none, progressAt := s.now, descs := none, waited := false }
  s.incWrap (F.RC_PROGRESS (s.runHdr i).engine)

/-- An instance waits (R253). -/
def State.suspend (s : State) (i : Inst) (w : WaitCause) : State := s.putInst { i with phase := .waiting, wait := some w, waited := true }

/-- A command's outcome takes effect on its instance; what follows of it in the same cycle is settled. -/
def State.finish (s : State) (list : Nat) (e : CmdEnd) : State :=
  match s.inst? list with
  | none => s
  | some i =>
    match e with
    | .done => (s.advance i (i.cmd + 1)).settle false
    | .error code => s.cmdError i code
    | .wait w => (s.suspend i w).settle false
    | .waitDone w => (s.suspend i w).settle false
    | .busy => s.settle false
    | .jump n => (s.advance i n).settle false
    | .ended => (s.incWrap (F.RC_PROGRESS (s.runHdr i).engine)).endInst i

/-! ### Tiles and buffers a command touches -/

/-- The tiles on which a command is active (R299). -/
def cmdTiles (op : Opcode) (record : Bytes) : List Nat :=
  match op with
  | .load => tileRange (fieldB record 10 1) (fieldB record 11 1)
  | .store => tileRange (fieldB record 10 1) (fieldB record 11 1)
  | .vector => tileRange (fieldB record 10 1) (fieldB record 11 1)
  | .matmul => tileRange (fieldB record 34 1) (fieldB record 35 1)
  | .attend => tileRange (fieldB record 9 1) (fieldB record 10 1)
  | _ => []

/-- Bytes of a slice packed in SRAM in a type. -/
def sliceBytes (t : ElemType) (ext : List Nat) : Nat := (ext.drop 1).foldl (fun n e => n * e) (t.rowBytes (ext.headD 0))

/-- The bytes of the slice a LOAD writes or a STORE reads. -/
def State.movedBytes (s : State) (i : Inst) (op : Opcode) (record : Bytes) : Nat :=
  let t := match s.descFor i (fieldB record 8 2) with
    | some d => if op == .load then ((Transform.ofBytes (sliceB record 48 16)).outType d.elem).getD d.elem else d.elem
    | none => .fp32
  sliceBytes t (extentOf record)

/-- The SRAM operands a VECTOR function reads: X, then Y, then Z (R256). -/
def vecOperands (fn : Nat) : List Nat :=
  if fn == 3 then [12, 16, 20] else if fn ≤ 6 then [12, 16] else [12]

/-- The SRAM ranges a command reads on each of its tiles: offset and bytes. -/
def State.cmdSource (s : State) (i : Inst) (op : Opcode) (record : Bytes) : List (Nat × Nat) :=
  match op with
  | .store => [(fieldB record 12 4, s.movedBytes i op record)]
  | .matmul => (match MatmulCmd.ofBytes record with
    | some x => [(x.a, x.m * x.ta.rowBytes x.k), (x.b, x.k * x.tb.rowBytes x.n)] ++
        (if x.c == 0xFFFFFFFF then [] else [(x.c, x.m * (4 * x.n))])
    | none => [])
  | .vector => (match ElemType.ofCode (fieldB record 9 1) with
    | some t => (vecOperands (fieldB record 8 1)).map (fun o => (fieldB record o 4, (if fieldB record 8 1 == 7 then ElemType.fp32 else t).rowBytes (fieldB record 28 4)))
    | none => [])
  | _ => []

/-- The SRAM buffer a command writes on each tile: its offset and bytes. -/
def State.cmdOutput (s : State) (i : Inst) (op : Opcode) (record : Bytes) : Option (Nat × Nat) :=
  match op with
  | .load => some (fieldB record 12 4, s.movedBytes i op record)
  | .matmul => (MatmulCmd.ofBytes record).map (fun x => (x.out, x.m * x.tout.rowBytes x.n))
  | .vector => (ElemType.ofCode (fieldB record 9 1)).map (fun t => (fieldB record 24 4, t.rowBytes (fieldB record 28 4)))
  | _ => none

/-- The tiles a command's output lies on: the lowest alone when it reduces (R155). -/
def outputTiles (op : Opcode) (record : Bytes) : List Nat :=
  let ts := cmdTiles op record
  let reduce := match op with
    | .matmul => bitOf (fieldB record 33 1) 0
    | .vector => bitOf (fieldB record 32 1) 0
    | _ => false
  if reduce then ts.take 1 else ts

/-- The buffers a command accesses: those that share a byte with a range it reads or writes. -/
def State.touched (s : State) (i : Inst) (op : Opcode) (record : Bytes) : List SramBuf :=
  let ts := cmdTiles op record
  let rs := s.cmdSource i op record ++ (s.cmdOutput i op record).toList
  s.tl.bufs.filter (fun b => ts.contains b.tile && rs.any (fun r => decide (b.ofs < r.1 + r.2) && decide (r.1 < b.ofs + b.len)))

/-- Spilled buffers a command accesses start on their way back (R160); true while one of them is not in SRAM. -/
def State.recall (s : State) (i : Inst) (op : Opcode) (record : Bytes) : State × Bool :=
  let bs := s.touched i op record
  let s := (bs.filter (fun b => b.phase == .spilled)).foldl (fun s b => s.putBuf { b with phase := .returning }) s
  (s, bs.any (fun b => b.phase == .spilled || b.phase == .returning))

/-- A tile that stalls at its high mark (R160), or whose clock is stopped for a change of its operating point (R169), holds the command. -/
def State.tileStalled (s : State) (op : Opcode) (record : Bytes) : Bool :=
  (cmdTiles op record).any (fun l => (assocGet l s.tl.stalls).isSome || s.tl.opChanges.any (fun c => c.tile == l))

/-- The buffers a command's output occupies come into use. -/
def State.occupy (s : State) (i : Inst) (op : Opcode) (record : Bytes) : State :=
  match s.cmdOutput i op record with
  | some (ofs, len) => (outputTiles op record).foldl (fun s l => s.useBuf l ofs len i.list) s
  | none => s

/-! ### Budgets (R206, R299) -/

/-- `n` cycles under a key of an instance's counts. -/
def addCycles (k n : Nat) (l : List (Nat × Nat)) : List (Nat × Nat) := assocPut k ((assocGet k l).getD 0 + n) l

/-- The keys a command's cycles count under: its tiles on the matrix engine, 0 elsewhere. -/
def cycleKeys (eng : Nat) (op : Opcode) (record : Bytes) : List Nat := if eng == 0 then cmdTiles op record else [0]

/-- An instance's counts after a command of `n` cycles. -/
def Inst.charged (i : Inst) (keys : List Nat) (n : Nat) : List (Nat × Nat) := keys.foldl (fun l k => addCycles k n l) i.cycles

/-- A count of an instance is past its budget, as cycles of a recompute list can leave it (R206). -/
def State.overrun (s : State) (i : Inst) : Bool := i.cycles.any (fun x => decide ((s.runHdr i).budget < x.2))

/-- A command of `n` cycles would take an instance past its budget (R299), or it is past it already (R206). -/
def State.pastBudget (s : State) (i : Inst) (keys : List Nat) (n : Nat) : Bool :=
  keys.any (fun k => decide ((s.runHdr i).budget < (assocGet k i.cycles).getD 0 + n)) || s.overrun i

/-- The list recomputes corridor pages: its trigger is the miss fence (R205). -/
def State.recomputes (s : State) (i : Inst) : Bool :=
  let h := s.listHdr i.list
  h.kind == 4 && h.trigRef == s.get F.AT_FENCE_MISS

/-- The cycles of a recompute list count for the requester too (R206). -/
def State.chargeReader (s : State) (i : Inst) (keys : List Nat) (n : Nat) : State :=
  if s.recomputes i then
    match s.at_.reading.bind (fun r => s.inst? r.list) with
    | some reader => s.setInst { reader with cycles := reader.charged keys n }
    | none => s
  else s

/-- The cycles of a command counted: its instance, a requester it recomputes for, TL_BUSY (R171, R206, R299). -/
def State.charge (s : State) (i : Inst) (keys : List Nat) (n : Nat) : State :=
  let s := (s.setInst { i with cycles := i.charged keys n }).chargeReader i keys n
  if (s.runHdr i).engine == 0 then keys.foldl (fun s l => s.set (F.TL_BUSY l) (s.get (F.TL_BUSY l) + n)) s else s

/-- The outcome counts the command's cycles: not one after which it runs again. -/
def CmdEnd.counts : CmdEnd → Bool
  | .wait _ => false
  | _ => true

/-! ### Words with an uncorrectable error (R163) -/

/-- The spans of DRAM an ATTEND reads: tensors, weights, page table, source ring and pool pages (R192, R199, R208). -/
def State.attendReads (s : State) (i : Inst) (record : Bytes) : List (Nat × Nat) :=
  let tensors := fun (os : List Nat) => os.flatMap (fun o => ((s.descFor i (fieldB record o 2)).map Desc.spans).getD [])
  let table := [(s.pageAddr 0, 16 * s.atHL * s.atS)]
  let ring := ((s.descFor i (s.get F.AT_SRC_DESC)).map (fun d => d.base)).getD 0
  let slotBytes := 256 * ElemType.mxfp4.rowBytes s.atDM
  let rows := fun (b : Int) => [(ring + s.binSlot b * slotBytes, slotBytes)]
  match bitsOf (fieldB record 8 1) 0 2 with
  | 0 =>
    tensors [12, 14, 16, 18, 20] ++
    (if bitOf (fieldB record 8 1) 2 then
      (match s.descFor i (s.get F.AT_KV_DESC) with
       | some kv =>
         let n := 512 * kv.elem.rowBytes s.atDH
         let pages := i.bound.flatMap (fun b => match s.result? b.1 b.2 with
           | some r => (s.readSet (s.binOf r.key)).flatMap (fun x => (List.range s.atHL).filterMap (fun h =>
               let p := s.page (s.entryOf h x)
               if p.valid x && p.st == 1 then some (kv.base + p.slot * n, n) else none))
           | none => [])
         table ++ pages
       | none => [])
     else [])
  | 1 => tensors [28, 30, 32] ++ table
  | 2 =>
    let listed := match s.descFor i (s.get F.AT_MISS_DESC) with
      | some md => (List.range (s.dramNat md.base 2)).map (fun j => s.dramNat (md.base + 16 + 4 * j) 2)
      | none => []
    tensors [30, 32] ++ table ++ listed.flatMap (fun e => rows (s.page e).bin)
  | _ => []

/-- The spans of DRAM a command reads: its record, the descriptors it is taken up with, and its operands. -/
def State.cmdReads (s : State) (i : Inst) (op : Opcode) (record : Bytes) : List (Nat × Nat) :=
  let slots := if i.descs.isSome then [] else ((op.slots record).filter (fun n => n != 0 && decide (n < s.get F.DS_TBL_SLOTS))).map (fun n => (s.descAddr n, 64))
  let d := fun (o : Nat) => s.descFor i (fieldB record o 2)
  let slice := fun (origin : List Int) => match d 8 with
    | some x => ((slicePositions origin (extentOf record)).flatMap id).flatMap (fun p =>
        (((Transform.ofBytes (sliceB record 48 16)).source x p).map (fun c => x.elSpans (x.clampAll c))).getD [])
    | none => []
  (s.listAddr i.run + 64 + 64 * i.cmd, 64) :: slots ++
  (match op with
   | .load => (List.range (fieldB record 11 1)).flatMap (fun j => slice (shiftDim1 (originOf record) (j * (extentOf record).getD 1 0)))
   | .copy => slice (originOf record)
   | .attend => s.attendReads i record
   | .query => ((d 16).map Desc.spans).getD []
   | .collect => ((d 12).map Desc.spans).getD []
   | .createDesc => (match d 8 with
     | some x => (List.range 64).flatMap (fun j => x.elSpans (x.clampAll [((fieldB record 12 4 + j : Nat) : Int)]))
     | none => [])
   | _ => [])

/-- A word that holds an uncorrectable error since an earlier access, met again by a command's reads: it faults this context too (R163). -/
def State.cmdUe (s : State) (i : Inst) (op : Opcode) (record : Bytes) : Option UeReport :=
  if s.tl.faulty.isEmpty then none
  else match (s.cmdReads i op record).findSome? (fun x => s.faultyDram x.1 x.2) with
    | some a => some ⟨0, Fin.ofNat 144 (a / 2 ^ 28), a⟩
    | none => (cmdTiles op record).findSome? (fun l => (s.cmdSource i op record).findSome? (fun r =>
        (s.faultySram l r.1 r.2).map (fun o => ⟨2, Fin.ofNat 144 l, o⟩)))

/-! ### A command -/

/-- An instance of class 1 or 2 is held before a command on a tile that a self-test slice has (R311). -/
def State.sliceHolds (s : State) (i : Inst) (op : Opcode) (record : Bytes) : Bool :=
  (s.runHdr i).cls != 0 && (cmdTiles op record).any (fun l => s.sf.slices.any (fun x => x.tile == some l))

/-- The tiles of a class-0 matrix-engine command join those of each result the instance binds (R307). -/
def State.noteShadow (s : State) (i : Inst) (tiles : List Nat) : State :=
  let h := s.runHdr i
  if h.cls == 0 && h.engine == 0 && s.flag F.SF_CFG_SHADOW_EN && !tiles.isEmpty then i.bound.foldl (fun s b => s.shadowTiles b.1 b.2 tiles) s else s

/-- A command's body run and its outcome taken. -/
def State.runBody (s : State) (c : QCmd) (op : Opcode) (i : Inst) (record : Bytes) (body : State → Inst → Bytes → State × CmdEnd) : State :=
  let (s, e) := body s i record
  let keys := cycleKeys c.eng.val op record
  let s := if e.counts then
      (match s.inst? i.list with
       | some i => ((s.charge i keys c.cycles).occupy i op record).noteShadow i (cmdTiles op record)
       | none => s)
    else s
  s.finish i.list e

/-- The consumer's check of a packet finds its CRC, or the sensor's CRC in it, wrong (R67): counted, recorded, and its samples leave the results that hold them. -/
def State.badPacket (s : State) (x : AccessNote) : State :=
  match x with
  | .fifo n q =>
    let s := (s.incSat (F.IG_CRC_FAIL n.val)).streamViol n.val 0x07 (leBytes 4 q)
    { s with fu := { s.fu with results := s.fu.results.map (fun r => { r with samples := r.samples.filter (fun y => !(y.stream == n.val && y.seqNo == q)) }) } }
  | _ => s

/-- The command at hand of the instance on a queue, when it is of an opcode and may run: not Waiting, not held by Chervil, its context not fenced (R255, R311, R324). -/
def State.runNow (s : State) (c : QCmd) (op : Opcode) (body : State → Inst → Bytes → State × CmdEnd) : State :=
  match s.instOn c.eng.val c.q.val with
  | none => s
  | some i =>
    let record := s.nextCmd i
    if opcodeOf record != some op || i.phase != .running || s.sliceHolds i op record then s
    else if s.ctxHeld (s.runHdr i).ctx then s.incSat F.RC_REFUSED
    else
      let i := s.takenUp i op record
      let s := if op == .fuse || op == .pointBuild then c.notes.foldl State.badPacket s else s
      let s := (c.notes.foldl State.noteAccess s).setInst i
      match c.ue <|> c.notes.findSome? AccessNote.linkUe <|> s.cmdUe i op record with
      | some u => s.faultInst i u
      | none =>
        let (s, away) := s.recall i op record
        if away || s.tileStalled op record || s.pastBudget i (cycleKeys c.eng.val op record) c.cycles then s
        else s.runBody c op i record body

/-- A command of a list run; a park it drains goes on (R369). -/
def State.runCmd (s : State) (c : QCmd) (op : Opcode) (body : State → Inst → Bytes → State × CmdEnd) : State := (s.runNow c op body).parkCheck

/-! ### Waits (R203, R205, R239, R255, R261, R262) -/

/-- Acquirers of semaphore n served in order while its count suffices (R262), at most `k` of them. -/
def State.serve (s : State) (n : Nat) : Nat → State
  | 0 => s
  | k + 1 =>
    match s.acquirers n with
    | i :: _ =>
      match i.wait with
      | some (.sem _ want) =>
        if want ≤ s.sem n then
          let s := s.set (F.CL_SEM n) (s.sem n - want)
          let i := { i with sems := i.sems ++ [(n, want)] }
          ((s.setInst i).advance i (i.cmd + 1)).serve n k
        else s
      | _ => s
    | [] => s

/-- What an instance waits for has come about. -/
def State.waitOver (s : State) (i : Inst) (w : WaitCause) : Bool :=
  match w with
  | .fence f v => s.fenceReached f v
  | .sem n k => decide (k ≤ s.sem n)
  | .build => s.pt.isNone
  | .corridorOrder => false
  | .corridorMiss v => s.fenceReached (s.get F.AT_FENCE_DONE) v
  | .solveRead _ _ => false
  | .collective => s.collectOver i

/-- An instance Running again at the command it waited in. -/
def State.rerun (s : State) (i : Inst) : State := s.putInst { i with phase := .running, wait := none }

/-- A wait of R255's kind that is over: the command completes, or runs again. -/
def State.wake (s : State) (i : Inst) (w : WaitCause) : State :=
  if s.waitOver i w then
    match w with
    | .fence _ _ => (s.advance i (i.cmd + 1)).settle false
    | .sem n _ => (s.serve n 96).settle false
    | _ => s.rerun i
  else s

end Sys2Proof.Machine
end

