-- ==== Sys2Proof/Machine/Chervil.lean ====
section
/-! DEFINITION. The commands of Chervil (R295 to R313): supervision, budget stops, deadlines, monitors, shadow, golden and self-test work. -/

namespace Sys2Proof.Machine

/-! ### Supervision (R297, R298, R304) -/

/-- Correctable errors of logical tile ℓ: vault and SRAM. -/
def State.ceCount (s : State) (l : Nat) : Nat := s.get (F.TL_VAULT_CE l) + s.get (F.TL_SRAM_CE l)

/-- The counts of a tile Chervil keeps, oldest first. -/
def State.ceHistory (s : State) (l : Nat) : List (Nat × Nat) := (s.sf.ce.filter (fun x => x.1 == l)).map (fun x => x.2)

/-- Counts of a tile by their time: the latest at least 1 s ago, and those since (R304). -/
def State.ceWindow (s : State) (l : Nat) : List (Nat × Nat) :=
  let old := (s.ceHistory l).filter (fun x => decide (x.1 + 10 ^ 9 ≤ s.now))
  (old.drop (old.length - 1)) ++ (s.ceHistory l).filter (fun x => decide (s.now < x.1 + 10 ^ 9))

/-- A tile's counts replaced. -/
def State.setCe (s : State) (l : Nat) (xs : List (Nat × Nat)) : State :=
  s.setSf (fun f => { f with ce := f.ce.filter (fun x => x.1 != l) ++ xs.map (fun x => (l, x)) })

/-- A tile's count 1 s ago: that of the latest pass at least so long ago, 0 where there was none. -/
def State.ceBefore (s : State) (l : Nat) : Nat :=
  match s.ceWindow l with
  | x :: _ => if x.1 + 10 ^ 9 ≤ s.now then x.2 else 0
  | [] => 0

/-- The correctable-error rate of a tile judged in a pass: a rise above SF_CE_RATE within 1 s is reported, and counts anew (R304). -/
def State.judgeCe (s : State) (l : Nat) : State :=
  let n := s.ceCount l
  let last := ((s.ceHistory l).getLast?.map (fun x => x.2)).getD 0
  if n == last then s
  else
    let rise := n - s.ceBefore l
    if s.get F.SF_CE_RATE < rise then
      let s := s.setCe l [(s.now - 10 ^ 9, n)]
      (s.safetyLog { SafetyRec.of 0x34 1 with object := l, detail := rise, limit := s.get F.SF_CE_RATE }).raise 0x174
    else s.setCe l (s.ceWindow l ++ [(s.now, n)])

/-- A pass that completes (R298): the tenth toggles HEARTBEAT. -/
def State.countPass (s : State) : State :=
  let n := s.sf.passes + 1
  if n < 10 then s.setSf (fun f => { f with passes := n })
  else
    let s := (s.setSf (fun f => { f with passes := 0 })).setFlag F.SF_STATUS_HB (!s.flag F.SF_STATUS_HB)
    s.incWrap F.SF_HB_COUNT

/-- Chervil leaves Off with its first pass: FAULT_N released (R297). -/
def State.beginSupervision (s : State) : State :=
  ((s.setSf (fun f => { f with phase := .supervising })).setFaultN false).setFlag F.SF_STATUS_SUPERVISING true

/-- SUPERVISION_PASS (R297, R298, R304). -/
def execSupervisionPass (dt : Nat) (s : State) : Host.Outcome State Fault Refusal :=
  let s := s.elapse dt
  ran (if s.running then
    (match s.sf.phase with
     | .off => (s.beginSupervision).countPass
     | .supervising => ((List.range s.tiles).foldl State.judgeCe s).countPass
     | .fault => s)
  else s)

/-- LOCKSTEP_MISMATCH (R298). -/
def execLockstepMismatch (dt : Nat) (s : State) : Host.Outcome State Fault Refusal :=
  let s := s.elapse dt
  ran (if s.running then s.fatal (SafetyRec.of 0x50 2) else s)

/-! ### Budget stops (R299, R300) -/

/-- The crash record of a budget stop (R300 step 4), which is no recovery: RC_LAST keeps what it had. -/
def State.stopRecord (s : State) (i : Inst) : State :=
  let last := s.readReg F.RC_LAST_LEVEL.addr
  ((s.crashRecord (s.crashInst (Config.stopCause i.run).toNat i 0)).1).writeReg F.RC_LAST_LEVEL.addr last

/-- Requests of a stopped instance's context that are outstanding drain (R300 step 1). -/
def State.beginDrain (s : State) (h : ListHdr) (list : Nat) : State :=
  if (s.ctxReqs (some h.ctx)).isEmpty then s
  else s.setSf (fun f => { f with drains := f.drains.filter (fun d => !(d.eng == h.engine && d.q == h.queue)) ++ [⟨h.engine, h.queue, h.ctx, list, s.now⟩] })

/-- An instance stopped at its budget (R300): its build is discarded (R139), pages of its context are BUSY no more (R200), and a learning chain of its context halts (R22, R218 cause 4). -/
def State.stopInst (s : State) (i : Inst) : State :=
  let h := s.runHdr i
  let s := s.stopRecord i
  let after := ((s.removeInst i).discardBuild i.list).clearBusy h.ctx
  let s := (after.releasedInsts s).foldl (fun s j => s.markPartial j.bound) after
  let s := ((s.incSat F.SF_STOPS).beginDrain h i.run).cbRecovery h.ctx
  let b := i.bound.headD (0xFF, 0)
  let s := s.safetyLog { SafetyRec.of 0x01 1 with object := i.run, ctx := h.ctx, rs := b.1, seqNo := b.2 % 2 ^ 32, detail := h.budget, limit := h.budget }
  (s.raise 0x171).settle true

/-- An instance suspended in a corridor miss (R205). -/
def Inst.inMiss (i : Inst) : Bool :=
  match i.wait with
  | some (.corridorMiss _) => true
  | _ => false

/-- BUDGET_STOP (R206, R299, R300): the command at hand would take its instance past its budget, or a recompute list has taken a suspended requester past it; an uncorrectable error that falls due with it resets the context instead. -/
def execBudgetStop (dt : Nat) (c : QCmd) (s : State) : Host.Outcome State Fault Refusal :=
  let s := s.elapse dt
  match s.instOn c.eng.val c.q.val with
  | none => ran s
  | some i =>
    let record := s.nextCmd i
    match opcodeOf record with
    | none => ran s
    | some op =>
      if (i.phase == .running || (i.inMiss && s.overrun i)) && !s.sliceHolds i op record && !s.ctxHeld (s.runHdr i).ctx &&
          s.pastBudget i (cycleKeys c.eng.val op record) c.cycles then
        ran ((match c.ue with
          | some u => s.faultInst i u
          | none => s.stopInst i).parkCheck)
      else ran s

/-- BUDGET_STOP_DRAIN_TIMEOUT (R300): 100 µs after the stop, requests still outstanding are answered with errors, and the context is reset. -/
def execBudgetStopDrainTimeout (dt : Nat) (c : QCmd) (s : State) : Host.Outcome State Fault Refusal :=
  let s := s.elapse dt
  match s.sf.drains.find? (fun d => d.eng == c.eng.val && d.q == c.q.val) with
  | some d =>
    if d.start + 100000 ≤ s.now then
      let late := !(s.ctxReqs (some d.ctx)).isEmpty
      let s := s.setSf (fun f => { f with drains := f.drains.filter (fun x => x != d) })
      ran (if late then ((s.answerErrors d.ctx).ctxTriggerOf d.ctx 4 0).parkCheck else s)
    else ran s
  | none => ran s

/-! ### Result deadlines (R301, R302) -/

/-- Result c of set rs is late (R301, R302); `step` when a forward step carried it past its deadline. -/
def State.lateResult (s : State) (rs c deadline : Nat) (step : Bool) : State :=
  let s := (s.incSat (F.SF_RS_LATE rs)).set (F.SF_RS_LAST_LATE rs) c
  let s := (s.safetyLog { SafetyRec.of 0x10 1 with rs := rs, seqNo := c % 2 ^ 32, limit := deadline, step := step }).raise 0x172
  if step then s
  else
    let s := s.incSat (F.SF_RS_LATE_RUN rs)
    let limit := s.get F.SF_CFG_LATE_RUN
    if limit != 0 && s.get (F.SF_RS_LATE_RUN rs) == limit then
      s.fatal { SafetyRec.of 0x11 2 with rs := rs, seqNo := c % 2 ^ 32, limit := limit }
    else s

/-- Chervil's test of result c at its deadline; it moves on to the next (R301). -/
def State.testDeadline (s : State) (rs : Nat) : State :=
  let x := s.fuSet rs
  let c := x.check
  let deadline := s.instant rs c + s.get (F.FU_RS_L rs)
  let s := s.putSet rs { x with check := c + 1 }
  if c < x.next then s.set (F.SF_RS_LATE_RUN rs) 0 else s.lateResult rs c deadline (s.passedByStep deadline)

/-- RESULT_DEADLINE_TEST (R301, R302): device time has reached t_c + L. -/
def execResultDeadlineTest (dt : Nat) (rs : Fin 4) (s : State) : Host.Outcome State Fault Refusal :=
  let s := s.elapse dt
  let x := s.fuSet rs.val
  let due := decide (s.instant rs.val x.check + s.get (F.FU_RS_L rs.val) ≤ s.now)
  ran (if s.running && s.sf.phase != .fault && (s.rsRuns rs.val || decide (x.check < x.k)) && due then s.testDeadline rs.val else s)

/-! ### Platform monitors (R304 to R306) -/

/-- Domain d is on (R360). -/
def State.domainOn (s : State) (d : Nat) : Bool := s.maskBit F.PW_DOM_ON_LO F.PW_DOM_ON_HI d

/-- The power domain and the expected kHz of an island, numbered in the order of R14's table, a tile's island 12·p + r of physical column p and row r (log entry 53); none for an island that is not judged. -/
def State.islandClock (s : State) (n : Nat) : Option (Nat × Nat) :=
  if n < 156 then
    let (p, r) := (n / 12, n % 12)
    (s.tileServes p r).map (fun l => (3 * p + r / 4, opMHz (s.get (F.TL_T_STAT_OP l)) * 1000))
  else match n with
    | 156 => some (45, 500000)
    | 157 => some (43, 25000)
    | 158 => some (44, 200000)
    | 159 => some (45, 600000)
    | 160 => some (46, 300000)
    | 162 => some (47, 200000)
    | 171 => some (50, 156250)
    | 172 => some (51, 200000)
    | 173 => some (52, 900000)
    | 174 => some (53, 900000)
    | 175 => some (54, 600000)
    | 176 => some (54, 900000)
    | 177 => some (55, 703125)
    | _ => none

/-- A judged window of an island (R306). -/
def State.judgeClock (s : State) (n khz expected : Nat) : State :=
  let off := if khz ≤ expected then expected - khz else khz - expected
  if off * 1000 ≤ s.get F.SF_CLK_TOL * expected then s.setSf (fun f => { f with clkBad := f.clkBad.filter (fun x => x != n) })
  else
    let second := s.sf.clkBad.contains n
    let s := s.incSat F.SF_CLK_BAD
    if second then
      s.fatal { SafetyRec.of 0x30 2 with object := n, detail := khz, limit := expected }
    else s.setSf (fun f => { f with clkBad := n :: f.clkBad })

/-- CLOCK_MONITOR_WINDOW (R306); a window that overlaps a change of operating point is not judged and ends a sequence of bad ones. -/
def execClockMonitorWindow (dt : Nat) (island : Fin 178) (khz : Nat) (opChange : Bool) (s : State) : Host.Outcome State Fault Refusal :=
  let s := s.elapse dt
  match s.islandClock island.val with
  | some (d, expected) =>
    ran (if !s.running || !s.domainOn d then s
      else if opChange then s.setSf (fun f => { f with clkBad := f.clkBad.filter (fun x => x != island.val) })
      else s.judgeClock island.val khz expected)
  | none => ran s

/-- VOLTAGE_FAULT (R304): a domain that is on has been outside ±5 % of its nominal for 10 µs. -/
def execVoltageFault (dt : Nat) (domain : Fin 56) (mv nominal : Nat) (s : State) : Host.Outcome State Fault Refusal :=
  let s := s.elapse dt
  let off := if mv ≤ nominal then nominal - mv else mv - nominal
  ran (if s.running && s.domainOn domain.val && decide (nominal < 20 * off) then
    s.fatal { SafetyRec.of 0x31 2 with object := domain.val, detail := mv, limit := nominal }
  else s)

/-- TEMPERATURE_FAULT (R304, R305): a sensor has been above SF_TJ_MAX for 1 ms. -/
def execTemperatureFault (dt : Nat) (sensor : Fin 64) (temp : Int) (s : State) : Host.Outcome State Fault Refusal :=
  let s := s.elapse dt
  let limit := s.get F.SF_TJ_MAX
  ran (if s.running && decide ((limit : Int) < temp) then
    s.fatal { SafetyRec.of 0x32 2 with object := zoneOfSensor sensor.val, detail := patternOf 32 temp, limit := limit }
  else s)

/-! ### Shadow compute and golden runs (R307 to R309) -/

/-- The CRCs of a shadow run compared; a mismatch is decided by the golden run on its spare (R307 step 4, R308). -/
def State.compareShadow (s : State) (x : ShadowRun) (row : Nat) (tileCrc spareCrc goldCrc : Word) : State :=
  let s := s.incWrap F.SF_SHADOW_RUNS
  if tileCrc == spareCrc then s
  else
    let s := ((s.incSat F.SF_SHADOW_MISM).incWrap F.SF_GOLD_RUNS).chargeClass 3 s.goldUnits
    let gold := s.get F.SF_GOLD_CRC
    if goldCrc.toNat != gold then
      let s := (s.incSat F.SF_GOLD_FAIL).safetyLog { SafetyRec.of 0x40 1 with rs := x.rs, seqNo := x.k % 2 ^ 32, detail := goldCrc.toNat, limit := gold }
      (s.raise 0x175).dropSpare row
    else
      (s.raise 0x175).fatal { SafetyRec.of 0x41 2 with object := x.tile, rs := x.rs, seqNo := x.k % 2 ^ 32, detail := tileCrc.toNat, limit := spareCrc.toNat }

/-- A shadow run leaves the runs to decide. -/
def State.dropShadow (s : State) (x : ShadowRun) : State := s.setSf (fun f => { f with shadow := f.shadow.filter (fun y => y != x) })

/-- A shadow run decided: skipped, or compared (R307, R308). A mismatch whose golden run finds the reserve short waits for it (R278; DEDUCED, log entry 116). -/
def State.decideShadow (s : State) (x : ShadowRun) (behind : Bool) (tileCrc spareCrc goldCrc : Word) : State :=
  let units := Config.shadowUj x.rs x.k * unitsPerUj
  match s.shadowSpare x with
  | some row =>
    if behind || decide (s.level 3 < units) then (s.dropShadow x).incSat F.SF_SHADOW_SKIP
    else if tileCrc != spareCrc && decide (s.level 3 < units + s.goldUnits) then s
    else ((s.dropShadow x).chargeClass 3 units).compareShadow x row tileCrc spareCrc goldCrc
  | none => (s.dropShadow x).incSat F.SF_SHADOW_SKIP

/-- SHADOW_COMPARE (R307, R308): the oldest result of set rs whose class-0 matrix-engine work has ended; `behind` when the spare fell 3 MiB behind. -/
def execShadowCompare (dt : Nat) (rs : Fin 4) (behind : Bool) (tileCrc spareCrc goldCrc : Word) (s : State) : Host.Outcome State Fault Refusal :=
  let s := s.elapse dt
  match s.sf.shadow.find? (fun x => x.rs == rs.val) with
  | some x => ran (if s.running && s.supervising && s.shadowReady x then s.decideShadow x behind tileCrc spareCrc goldCrc else s)
  | none => ran s

/-- A spare's CRC judged in a golden run (R309). -/
def State.judgeGolden (s : State) (row crc : Nat) : State :=
  if crc == s.get F.SF_GOLD_CRC then s
  else
    let s := (s.incSat F.SF_GOLD_FAIL).safetyLog { SafetyRec.of 0x42 1 with detail := crc, limit := s.get F.SF_GOLD_CRC }
    (s.raise 0x175).dropSpare row

/-- GOLDEN_RUN_COMPLETE (R309): the CRC of each spare in the pool, by row. -/
def execGoldenRunComplete (dt : Nat) (crcs : List (Nat × Word)) (s : State) : Host.Outcome State Fault Refusal :=
  let s := s.elapse dt
  match s.sf.golden with
  | some g =>
    ran (if s.running && s.supervising && g.running then
      let s := (s.setSf (fun f => { f with golden := none })).incWrap F.SF_GOLD_RUNS
      s.pooledRows.foldl (fun s r => match assocGet r crcs with
        | some c => s.judgeGolden r c.toNat
        | none => s) s
    else s)
  | none => ran s

/-! ### Periodic self-test (R310 to R312) -/

/-- The trigger at the root of a list's chain of completions (R252): the list's own unless it is of kind 5; at most `n` links are followed. -/
def State.rootList (s : State) (list : Nat) : Nat → Nat
  | 0 => list
  | n + 1 => if (s.listHdr list).kind == 5 then s.rootList (s.listHdr list).trigRef n else list

/-- Class-0 matrix-engine lists of partition p. -/
def State.class0Lists (s : State) (p : Nat) : List Nat :=
  s.lists.filter (fun n => let h := s.listHdr n; h.cls == 0 && h.engine == 0 && h.part == p && h.kind != 0)

/-- ns until a root trigger can make class-0 work ready: t_k + LA of its set's Open result, or its comparator's next fire (R311); none when it cannot. -/
def State.rootSlack (s : State) (root : Nat) : Option Nat :=
  let h := s.listHdr root
  match h.kind with
  | 1 => if s.rsRuns h.trigSet then some (s.markOf h.trigSet (s.fuSet h.trigSet).k - s.now) else none
  | 3 => (assocGet root s.cl.fires).map (fun t => t - s.now)
  | _ => none

/-- The slack of partition p (R311); none where no class-0 work is in sight. -/
def State.slack (s : State) (p : Nat) : Option Nat :=
  if s.cl.insts.any (fun i => let h := s.runHdr i; h.cls == 0 && h.engine == 0 && h.part == p) then some 0
  else
    let xs := (s.class0Lists p).filterMap (fun n => s.rootSlack (s.rootList n 4095))
    match xs with
    | [] => none
    | x :: rest => some (leastOf x rest)

/-- The head slice of zone z does not start (R312). -/
def State.skipSlice (s : State) (z : Nat) : State :=
  let s := s.incSat (F.SF_ST_ZONE_SKIPS z)
  if s.get (F.SF_ST_ZONE_SKIPS z) == 64 && !s.flag (F.SF_ST_ZONE_DEGRADED z) then
    let s := (s.setFlag (F.SF_ST_ZONE_DEGRADED z) true).refreshCover
    (s.safetyLog { SafetyRec.of 0x46 1 with object := z }).raise 0x177
  else s

/-- The head slice of zone z starts when the slack and the reserve permit (R311, R312). -/
def State.trySlice (s : State) (z : Nat) : State :=
  let n := s.get (F.SF_ST_ZONE_HEAD z)
  let (col, row) := sliceTile z n
  let units := Config.sliceUj z n * unitsPerUj
  let start := fun (tile : Option Nat) => (s.chargeClass 3 units).setSf (fun f => { f with slices := f.slices ++ [⟨z, tile, s.now⟩] })
  if !s.tileGood col row || !s.domainOn (3 * col + row / 4) then s.nextSlice z
  else if s.level 3 < units then s.skipSlice z
  else match s.tileServes col row with
    | some l =>
      let fits := match s.slack (s.partOfTile l) with
        | some t => decide (s.get F.SF_ST_SLICE * 1000 ≤ t)
        | none => true
      if fits then start (some l) else s.skipSlice z
    | none =>
      let busy := (match s.sf.golden with
        | some g => g.running
        | none => false) || s.sf.shadow.any (fun x => s.shadowSpare x == some row)
      if busy then s.skipSlice z else start none

/-- SELF_TEST_ATTEMPT (R311, R312): SF_ST_PERIOD after the zone's last attempt. -/
def execSelfTestAttempt (dt : Nat) (zone : Fin 9) (s : State) : Host.Outcome State Fault Refusal :=
  let s := s.elapse dt
  let due := match assocGet zone.val s.sf.tries with
    | some t => decide (t + s.get F.SF_ST_PERIOD * 1000 ≤ s.now)
    | none => true
  ran (if s.running && s.supervising && s.flag F.SF_CFG_ST_EN && due then
    let s := s.setSf (fun f => { f with tries := assocPut zone.val s.now f.tries })
    if s.sf.slices.any (fun x => x.zone == zone.val) then s else s.trySlice zone.val
  else s)

/-- The slice under way in a zone ends. -/
def State.endSlice (s : State) (z : Nat) : State := s.setSf (fun f => { f with slices := f.slices.filter (fun x => x.zone != z) })

/-- A failed slice (R312): a spare leaves the pool, a tile that serves a logical index is fatal. -/
def State.failSlice (s : State) (x : Slice) (row : Nat) : State :=
  let s := (s.incSat F.SF_ST_FAIL).raise 0x176
  match x.tile with
  | some l => s.fatal { SafetyRec.of 0x45 2 with object := l }
  | none => (s.safetyLog { SafetyRec.of 0x44 1 with object := x.zone }).dropSpare row

/-- SELF_TEST_SLICE_END (R312). -/
def execSelfTestSliceEnd (dt : Nat) (zone : Fin 9) (passed : Bool) (s : State) : Host.Outcome State Fault Refusal :=
  let s := s.elapse dt
  match s.sf.slices.find? (fun x => x.zone == zone.val) with
  | some x =>
    let z := zone.val
    let row := (sliceTile z (s.get (F.SF_ST_ZONE_HEAD z))).2
    let s := (((s.endSlice z).set (F.SF_ST_ZONE_SKIPS z) 0).setFlag (F.SF_ST_ZONE_DEGRADED z) false).refreshCover
    let s := (s.nextSlice z).incWrap (F.SF_ST_DONE z)
    ran (if passed then s else s.failSlice x row)
  | none => ran s

/-- SELF_TEST_SLICE_OVERRUN (R310): the slice has run longer than its budget; the same slice is tried again. -/
def execSelfTestSliceOverrun (dt : Nat) (zone : Fin 9) (s : State) : Host.Outcome State Fault Refusal :=
  let s := s.elapse dt
  match s.sf.slices.find? (fun x => x.zone == zone.val) with
  | some x =>
    let us := s.get F.SF_ST_SLICE
    ran (if x.start + us * 1000 < s.now then
      (((s.endSlice zone.val).safetyLog { SafetyRec.of 0x03 1 with object := zone.val, detail := us * 600, limit := us * 600 }).raise 0x171)
    else s)
  | none => ran s

end Sys2Proof.Machine
end

