-- ==== Sys2Proof/Machine/Tarragon.lean ====
section
/-! DEFINITION. The commands of Tarragon: ticks, kernel steps, budget stops (R231 to R238). -/

namespace Sys2Proof.Machine

/-- The next periodic tick of problem p arises when device time has reached it (R233). -/
def State.tickDue (s : State) (p : Nat) : Option (Nat × Nat) :=
  let x := s.prob p
  match x.t0 with
  | some t0 =>
    let t := t0 + x.next * s.get (F.SV_P_PERIOD p)
    if s.running && decide (t ≤ s.now) then some (x.next, t) else none
  | none => none

/-- TICK_READY (R233, R234): tick j of a periodic problem arises at t_j and chooses its structure. -/
def execTickReady (dt : Nat) (p : Fin 32) (s : State) : Host.Outcome State Fault Refusal :=
  let s := s.elapse dt
  match s.tickDue p.val with
  | some (j, t) =>
    let s := s.putProb p.val { s.prob p.val with next := j + 1 }
    ran (s.addTick p.val j t 0 none)
  | none => ran s

/-- TICK_INPUTS_READY (R233): every input stream is past the oldest tick's time, and the tick may run; a SOLVE tick that waited for its turn goes on. -/
def execTickInputsReady (dt : Nat) (p : Fin 32) (s : State) : Host.Outcome State Fault Refusal :=
  let s := s.elapse dt
  match s.headTick p.val with
  | some k => ran (if k.ready || s.inputsPast p.val k.t then s.readyTick p.val k else s)
  | none => ran s

/-- Device time has reached a tick's t_j + SV_P_WAIT before its inputs are there (R233). -/
def State.shortDue (s : State) (p : Nat) (k : SvTick) : Bool :=
  !k.ready && !s.inputsPast p k.t && decide (k.t + s.get (F.SV_P_WAIT p) ≤ s.now)

/-- A tick behind its problem's oldest becomes short: it solves in its turn (R234). -/
def State.shortBehind (s : State) (p : Nat) : State :=
  let x := s.prob p
  match x.ticks.drop 1 |>.find? (s.shortDue p) with
  | some k => (s.incSat (F.SV_P_STOPS_SHORT p)).putProb p { x with ticks := x.ticks.map (fun y => if y == k then { y with ready := true, short := true } else y) }
  | none => s

/-- TICK_SHORT (R233, R234): device time has reached t_j + SV_P_WAIT first, and the tick runs on the samples it has; the test applies to a tick that waits behind another too. -/
def execTickShort (dt : Nat) (p : Fin 32) (s : State) : Host.Outcome State Fault Refusal :=
  let s := s.elapse dt
  match s.headTick p.val with
  | some k =>
    ran (if s.shortDue p.val k then (s.incSat (F.SV_P_STOPS_SHORT p.val)).readyTick p.val { k with short := true } else s.shortBehind p.val)
  | none => ran s

/-- The SOLVE that made a tick completes when the tick leaves its problem (R233). -/
def State.completeSolve (s : State) (k : SvTick) : State :=
  match k.list.bind s.inst? with
  | some i => if opcodeOf (s.nextCmd i) == some .solve && i.phase == .running then s.finish i.list .done else s
  | none => s

/-- A kernel step of the tick that solves completes: its cycles, what it counts, and after the last step the record (R229 to R232, R237). -/
def State.stepDone (s : State) (p : Nat) (k : SvTick) (cost : Nat) : State :=
  let w := (s.stepWork p k).1
  let s := s.stepCounts p k
  let k := { w with pos := k.pos + 1, cycles := k.cycles + cost }
  let s := s.putHead p k
  if k.pos < s.stepCount p then s.pickTick else (s.publish p k false).completeSolve k

/-- An uncorrectable error met by a tick: its context is reset (R163). -/
def State.faultTick (s : State) (p : Nat) (u : UeReport) : State :=
  match s.probCtx p with
  | some c => (s.meetUe c u).ctxTriggerOf c 3 u.addr
  | none => s

/-- KERNEL_STEP_COMPLETE (R231, R232): the step's cycles are R231's and `stall` cycles it waited; past the budget it does not complete (R238). -/
def execKernelStepComplete (dt : Nat) (stall : Nat) (ue : Option UeReport) (s : State) : Host.Outcome State Fault Refusal :=
  let s := s.elapse dt
  match s.sv.cur with
  | none => ran s
  | some p =>
    match s.headTick p with
    | none => ran s
    | some k =>
      match ue with
      | some u => ran ((s.faultTick p u).parkCheck)
      | none =>
        let cost := s.stepCycles p k k.pos + stall
        ran (if s.get (F.SV_P_BUDGET p) < k.cycles + cost then s else s.stepDone p k cost)

/-- SOLVER_BUDGET_STOP (R238, R300): the budget of the problem that solves is exhausted before its step in progress completes. -/
def execSolverBudgetStop (dt : Nat) (p : Fin 32) (s : State) : Host.Outcome State Fault Refusal :=
  let s := s.elapse dt
  match s.headTick p.val with
  | some k => ran (if s.sv.cur == some p.val then (s.stopTick p.val k).completeSolve k else s)
  | none => ran s

end Sys2Proof.Machine
end

