-- ==== Sys2Proof/Machine/Control.lean ====
section
/-! DEFINITION. The control outputs and captures: PWM, triggers, capture FIFOs (R49, R50, R241 to R244). -/

namespace Sys2Proof.Machine

/-- The control outputs' own state changed. -/
def State.setIo (s : State) (f : IoState → IoState) : State := { s with io := f s.io }

/-! ### PWM outputs (R241, R242) -/

/-- The device time from which tick j of the problem of output w is applied: t_j + SV_P_DELAY (R241). -/
def State.applyTime (s : State) (w j : Nat) : Option Nat :=
  let p := s.get (F.IO_PWM_CFG_PROBLEM w)
  (s.prob p).t0.map (fun t0 => t0 + j * s.get (F.SV_P_PERIOD p) + s.get (F.SV_P_DELAY p))

/-- The tick whose duty output w applies next. -/
def State.dueTick (s : State) (w : Nat) : Nat := s.io.due.getD w 0

/-- The duty published for tick j of output w. -/
def State.dutyOf (s : State) (w j : Nat) : Option Nat := (s.io.duties.find? (fun d => d.1 == w && d.2.1 == j)).map (fun d => d.2.2)

/-- Tick j of output w comes to its period boundary: its duty applied, or the previous one kept and LATE counted; at SAFE no duty applies (R241). -/
def State.applyTick (s : State) (w j : Nat) : State :=
  let d := s.dutyOf w j
  let s := s.setIo (fun x => { x with due := setAt x.due w (j + 1), duties := x.duties.filter (fun d => d.1 != w || decide (j < d.2.1)) })
  match d with
  | some d => if s.flag (F.IO_PWM_STAT_SAFE w) then s else s.set (F.IO_PWM_DUTY w) d
  | none => s.incSat (F.IO_PWM_STAT_LATE w)

/-- Every tick of output w due by now, `n` of them at most. -/
def State.applyTicks (s : State) (w : Nat) : Nat → State
  | 0 => s
  | n + 1 =>
    match s.applyTime w (s.dueTick w) with
    | some t => if t ≤ s.now then (s.applyTick w (s.dueTick w)).applyTicks w n else s
    | none => s

/-- Ticks of output w whose time has come, at least. -/
def State.dueCount (s : State) (w : Nat) : Nat :=
  match s.applyTime w (s.dueTick w) with
  | some t => (s.now - t) / max 1 (s.get (F.SV_P_PERIOD (s.get (F.IO_PWM_CFG_PROBLEM w)))) + 1
  | none => 0

/-- PWM_PERIOD_BOUNDARY (R241); the odd output of a pair has no duty of its own (R242). -/
def execPwmPeriodBoundary (dt : Nat) (w : Fin 12) (s : State) : Host.Outcome State Fault Refusal :=
  let s := s.elapse dt
  ran (if s.flag (F.IO_PWM_CFG_EN w.val) && s.pwmLead w.val == w.val then s.applyTicks w.val (s.dueCount w.val) else s)

/-- Output w is active at count n of its period: for its first DUTY counts; in PAIR mode the odd output carries the complement, and each active edge waits DEAD counts (R242; log entry 41). -/
def State.pwmActive (s : State) (w n : Nat) : Bool :=
  let e := s.pwmLead w
  let d := s.get (F.IO_PWM_DUTY e)
  let pair := s.flag (F.IO_PWM_CFG_PAIR e)
  let odd := pair && w != e
  if d == 0 then odd
  else if s.get (F.IO_PWM_PERIOD e) ≤ d then !odd
  else
    let dead := if pair then s.get (F.IO_PWM_CFG_DEAD e) else 0
    if odd then decide (d + dead ≤ n) else decide (dead ≤ n) && decide (n < d)

/-- The level of PWM pin w at count n of its period: SAFE while it is at its safe level or FAULT_N is asserted (R241, R242). -/
def State.pwmPin (s : State) (w n : Nat) : Bool :=
  let e := s.pwmLead w
  if s.flag (F.IO_PWM_STAT_SAFE e) || s.flag F.SF_STATUS_FAULT then s.flag (F.IO_PWM_CFG_SAFE e) else s.pwmActive w n != s.flag (F.IO_PWM_CFG_POL e)

/-! ### Trigger outputs (R50, R243) -/

/-- IO_TRG_STAT.QUEUED of output o. -/
def State.refreshQueued (s : State) (o : Nat) : State := s.set (F.IO_TRG_STAT_QUEUED o) (s.io.queue.filter (fun x => x.out == o)).length

/-- The earliest of the times queued for output o that device time has reached. -/
def State.dueQueued (s : State) (o : Nat) : Option TrgTime :=
  (sortByKey TrgTime.time (s.io.queue.filter (fun x => x.out == o && decide (x.time ≤ s.cycleNow)))).head?

/-- The first of a list's elements equal to x removed. -/
def removeOne {α : Type} [BEq α] (x : α) : List α → List α
  | [] => []
  | y :: ys => if y == x then ys else y :: removeOne x ys

/-- Where a fire at programmed time `t` places its edge within its 2 ns cycle, in units of 250 ps (R50): where device time, as it runs through the cycle that ends at the counter value, reaches `t` (log entry 88). -/
def State.edgePlace (s : State) (t : Nat) : Nat := 7 - min 7 (s.edgeValue 0 0 - 4 * t)

/-- Output o drives its active level for WIDTH ns; a pulse still active extends (R243); inactive while FAULT_N is asserted (R241). -/
def State.firePulse (s : State) (o t : Nat) : State :=
  if s.flag F.SF_STATUS_FAULT then s
  else
    let active := match assocGet o s.io.pulses with
      | some t => decide (s.now < t)
      | none => false
    let s := if active then s.incSat (F.IO_TRG_STAT_OVERLAP o) else s
    s.setIo (fun x => { x with pulses := assocPut o (s.now + s.get (F.IO_TRG_WIDTH o)) x.pulses, edges := assocPut o (s.edgePlace t) x.edges })

/-- A programmed time fires: its late count when it was past as it was written, its skipped bit when a forward step passed over it, and the pulse (R50). -/
def State.fireTime (s : State) (o t : Nat) (late : Bool) : State :=
  let s := if late then s.incSat (F.IO_TRG_STAT_LATE o) else s
  let s := if !late && s.passedByStep t then s.setFlag (F.IO_TRG_STAT_SKIPPED o) true else s
  s.firePulse o t

/-- The comparator of output o fires: its periodic time, or the earliest of its queue (R243). -/
def State.fireTrigger (s : State) (o : Nat) : State :=
  if s.flag (F.IO_TRG_CFG_PERIODIC o) then
    match assocGet o s.io.next with
    | some t =>
      if t ≤ s.cycleNow then (s.setIo (fun x => { x with next := assocPut o (t + s.get (F.IO_TRG_PERIOD o)) x.next })).fireTime o t false else s
    | none => s
  else
    match s.dueQueued o with
    | some x => ((s.setIo (fun y => { y with queue := removeOne x y.queue })).refreshQueued o).fireTime o x.time x.late
    | none => s

/-- TRIGGER_FIRE (R50, R243). -/
def execTriggerFire (dt : Nat) (o : Fin 16) (s : State) : Host.Outcome State Fault Refusal :=
  let s := s.elapse dt
  ran (if s.running && s.flag (F.IO_TRG_CFG_EN o.val) then s.fireTrigger o.val else s)

/-- TRIGGER_PULSE_END (R243): WIDTH ns have passed. -/
def execTriggerPulseEnd (dt : Nat) (o : Fin 16) (s : State) : Host.Outcome State Fault Refusal :=
  let s := s.elapse dt
  match assocGet o.val s.io.pulses with
  | some t => ran (if t ≤ s.now then s.setIo (fun x => { x with pulses := assocDrop o.val x.pulses }) else s)
  | none => ran s

/-- The level of trigger pin o (R243). -/
def State.triggerPin (s : State) (o : Nat) : Bool := (assocGet o s.io.pulses).isSome != s.flag (F.IO_TRG_CFG_POL o)

/-- A write of IO_TRG_TIME_HI pushes the time; an output fed by a problem takes none (R243, R247). -/
def State.trgTimeWrite (s : State) (o : Nat) (hi : Word) : State :=
  let s := s.set (F.IO_TRG_TIME_HI o) hi.toNat
  if s.flag (F.IO_TRG_CFG_SRC o) then s
  else s.pushTrigger o (s.get64 (F.IO_TRG_TIME_LO o) (F.IO_TRG_TIME_HI o))

/-- TRIGGER_TIME_PUSH (R243, R247). -/
def execTriggerTimePush (dt : Nat) (c : Fin 8) (o : Fin 16) (hi : Word) (s : State) : Host.Outcome State Fault Refusal :=
  ran ((s.elapse dt).coreWrite c.val (F.IO_TRG_TIME_HI o.val).addr hi fun s => s.trgTimeWrite o.val hi)

/-! ### Captures (R49, R244) -/

/-- The edge is one the capture input takes (R247). -/
def State.edgeEnabled (s : State) (c : Nat) (rising : Bool) : Bool := bitOf (s.get (F.IO_CAP_CFG_EDGE c)) (if rising then 0 else 1)

/-- A capture enters its FIFO, or is dropped when that is full (R244). -/
def State.storeCapture (s : State) (c : Nat) (x : Capture) : State :=
  let fifo := s.io.caps.getD c []
  if fifo.length < 64 then
    (s.setIo (fun y => { y with caps := setAt y.caps c (fifo ++ [x]) })).set (F.IO_CAP_STAT_FILL c) (fifo.length + 1)
  else (s.setFlag (F.IO_CAP_STAT_OVR c) true).incSat (F.IO_CAP_STAT_DROPPED c)

/-- CAPTURE_EDGE (R49, R52, R244): an edge as it leaves the glitch filter, whose delay the value corrects for; a shorter pulse is rejected. -/
def execCaptureEdge (dt : Nat) (line : Fin 16) (rising : Bool) (edge : PinEdge) (s : State) : Host.Outcome State Fault Refusal :=
  let s := s.elapse dt
  ran (if s.running && s.edgeEnabled line.val rising && filterPasses (s.get (F.IO_CAP_CFG_FILT line.val)) edge.held then
    let v := s.edgeValue edge.q.val (10 * s.get (F.IO_CAP_CFG_FILT line.val))
    (s.feedCapture line.val (v / 4) 48).storeCapture line.val ⟨v, rising⟩
  else s)

/-- IO_CAP_POP_LO_READ (R244). -/
def execIoCapPopLoRead (dt : Nat) (r : Requester) (cap : Fin 16) (s : State) : Host.Outcome State Fault Refusal :=
  ran ((s.elapse dt).readGate r (F.IO_CAP_POP_LO cap.val).addr fun s =>
    (s.popCapture r.num cap.val).readReturn r (captureLo (s.oldestCapture cap.val)))

end Sys2Proof.Machine
end

