-- ==== Sys2Proof/Machine/Events.lean ====
section
/-! DEFINITION. The commands of the event controller (R281 to R293). WAKE_LATCH_EDGE stands with power. -/

namespace Sys2Proof.Machine

/-- STATUS_SOURCE_CHANGE (R281): the level of a status source as the controller samples it; parked, the sources pass through the latches of R291. -/
def execStatusSourceChange (dt : Nat) (src : Fin 1024) (level : Bool) (s : State) : Host.Outcome State Fault Refusal :=
  let s := s.elapse dt
  ran (if !isStatusSource src.val then s
    else if s.parked then s.setSignal src.val level
    else s.statusSource src.val level)

/-- COALESCE_TIMEOUT (R283): TIME_US of the counter since the first undelivered occurrence. -/
def execCoalesceTimeout (dt : Nat) (src : Fin 1024) (s : State) : Host.Outcome State Fault Refusal :=
  let s := s.elapse dt
  let t := s.get (F.EV_S_COAL_TIME_US src.val)
  let due := match assocGet src.val s.ev.starts with
    | some c => decide (c + t * 1000 ≤ s.thy.counter)
    | none => false
  ran (if s.get (F.EV_S_STAT_STATE src.val) == 1 && t != 0 && due then s.evSetState src.val 2 else s)

/-- EVENT_DELIVERY (R285, R286, R289): one EV cycle; `mie` samples the cores' machine interrupt enables (log entry 12). -/
def execEventDelivery (dt : Nat) (mie : BitVec 8) (s : State) : Host.Outcome State Fault Refusal :=
  let s := s.elapse dt
  ran (if s.flag F.EV_GLOBAL then s
    else s.deliverAll mie.toNat (s.ranked (fun src => s.get (F.EV_S_CFG_TARGET src) != 0)) [])

/-- Core c's own claim of what it holds (R287). -/
def State.claimHeld (s : State) (c : Nat) (h : EvHeld) : State :=
  let s := if s.levelSensed h.src then s else s.set (F.EV_S_STAT_COUNT h.src) 0
  let s := s.evSetState h.src 4
  (s.setEvCore c { held := none, active := h.src :: (s.evCore c).active }).showLevel c

/-- EV_C_CLAIM_READ (R287): core c's own read claims what it holds. -/
def execEvCClaimRead (dt : Nat) (r : Requester) (c : Fin 8) (s : State) : Host.Outcome State Fault Refusal :=
  ran ((s.elapse dt).readGate r (F.EV_C_CLAIM_SOURCE c.val).addr fun s =>
    match (s.evCore c.val).held with
    | none => s.readReturn r 0
    | some h =>
      let w := s.claimWord h
      if r.num == c.val + 1 then (s.claimHeld c.val h).readReturn r w else s.readReturn r w)

/-- A completion of `src` written to core t's register, by core t itself or another (R287). -/
def State.completeOn (s : State) (own : Bool) (t src : Nat) : State :=
  match (s.evCore t).active with
  | a :: rest =>
    if a == src && own then
      ((s.setEvCore t { s.evCore t with active := rest }).completeSource src).showLevel t
    else s.incSat (F.EV_C_COMPLETE_BAD t)
  | [] => s.incSat (F.EV_C_COMPLETE_BAD t)

/-- EVENT_COMPLETE (R287): core `c` writes EV_C_COMPLETE of core `target`. -/
def execEventComplete (dt : Nat) (c target : Fin 8) (v : Word) (s : State) : Host.Outcome State Fault Refusal :=
  ran ((s.elapse dt).coreWrite c.val (F.EV_C_COMPLETE target.val).addr v fun s =>
    s.completeOn (c == target) target.val (v.toNat % 1024))

/-- The host's claim and completion of pin h's highest-ranked source (R288). -/
def State.claimPin (s : State) (h : Nat) : State :=
  match s.pinSources h with
  | src :: _ => (if s.levelSensed src then s else s.set (F.EV_S_STAT_COUNT src) 0).completeSource src
  | [] => s

/-- EV_H_CAUSE_READ (R288): a host read claims and completes the pin's highest-ranked source; a core's read changes nothing. -/
def execEvHCauseRead (dt : Nat) (r : Requester) (pin : Fin 2) (s : State) : Host.Outcome State Fault Refusal :=
  ran ((s.elapse dt).readGate r (F.EV_H_CAUSE_SOURCE pin.val).addr fun s =>
    let w := s.causeWord pin.val
    match r with
    | .host => (s.claimPin pin.val).readReturn r w
    | .core _ => s.readReturn r w)

/-- EV_GLOBAL_WRITE (R289). -/
def execEvGlobalWrite (dt : Nat) (c : Fin 8) (v : Word) (s : State) : Host.Outcome State Fault Refusal :=
  ran ((s.elapse dt).coreWrite c.val F.EV_GLOBAL.addr v fun s => s.set F.EV_GLOBAL (v.toNat % 2))

/-- A delivery of a newly masked source decided up to three EV cycles ago stands and reports LATE (R290). -/
def State.markLate (s : State) (who : Nat) (word mask : Nat) : Nat → State
  | 0 => s
  | c + 1 =>
    let s := s.markLate who word mask c
    match (s.evCore c).held with
    | some h =>
      if h.src / 32 == word && bitOf mask (h.src % 32) && !h.late && decide (s.evCycle ≤ h.cycle + 3) then
        let s := s.setEvCore c { s.evCore c with held := some { h with late := true } }
        { s with ev := { s.ev with late := setAt s.ev.late who (satNat 16 (s.ev.late.getD who 0 + 1)) } }
      else s
    | none => s

/-- Core c writes mask word w (R289, R290). -/
def State.maskWrite (s : State) (c w : Nat) (v : Word) : State :=
  let old := s.get (F.EV_MASK w)
  let fresh := (List.range 32).foldl (fun m i => putBit m i (bitOf v.toNat i && !bitOf old i)) 0
  (s.set (F.EV_MASK w) v.toNat).markLate (c + 1) w fresh 8

/-- EV_MASK_WRITE (R289, R290). -/
def execEvMaskWrite (dt : Nat) (c : Fin 8) (w : Fin 32) (v : Word) (s : State) : Host.Outcome State Fault Refusal :=
  ran ((s.elapse dt).coreWrite c.val (F.EV_MASK w.val).addr v fun s => s.maskWrite c.val w.val v)

/-- A requester's late count cleared (R290). -/
def State.clearLate (s : State) (r : Nat) : State := { s with ev := { s.ev with late := setAt s.ev.late r 0 } }

/-- EV_SYNC_READ (R290): the requester's late count, cleared. The stall of up to 3 EV cycles is time only (the scope of NOTES.md). -/
def execEvSyncRead (dt : Nat) (r : Requester) (s : State) : Host.Outcome State Fault Refusal :=
  ran ((s.elapse dt).readGate r F.EV_SYNC.addr fun s =>
    (s.clearLate r.num).readReturn r (BitVec.ofNat 32 (s.ev.late.getD r.num 0)))

/-- SOFTWARE_EVENT (R292, R294): EV_SWSET. -/
def execSoftwareEvent (dt : Nat) (c : Fin 8) (v : Word) (s : State) : Host.Outcome State Fault Refusal :=
  ran ((s.elapse dt).coreWrite c.val F.EV_SWSET.addr v fun s => s.raise (0x300 + v.toNat % 128))

/-- A write of EV_FW_VAL_HI arms watcher w; a value already reached fires at once (R293). -/
def State.watchWrite (s : State) (w : Nat) (hi : Word) : State :=
  let s := s.set (F.EV_FW_VAL_HI w) hi.toNat
  let s : State := { s with ev := { s.ev with armed := putBit s.ev.armed w true } }
  s.fireWatchers (s.get (F.EV_FW_FENCE_FENCE w)) 64

/-- FENCE_WATCHER_ARM (R293): the write of EV_FW_VAL_HI. -/
def execFenceWatcherArm (dt : Nat) (c : Fin 8) (w : Fin 64) (hi : Word) (s : State) : Host.Outcome State Fault Refusal :=
  ran ((s.elapse dt).coreWrite c.val (F.EV_FW_VAL_HI w.val).addr hi fun s => s.watchWrite w.val hi)

end Sys2Proof.Machine
end

