-- ==== Sys2Proof/Machine/Power.lean ====
section
/-! DEFINITION. The commands of power: parks, alarms, comparators, wake latches, the reference, PLLs (R291, R362 to R371). -/

namespace Sys2Proof.Machine

/-! ### Parks (R368, R369) -/

/-- What a requester of a park request that is not executed is answered: the host a rejected write (R368). -/
def State.parkRefuse (s : State) (r : Requester) (code : Nat) : State :=
  let s := (s.set F.PW_PARK_STAT_CODE code).raise 0x1A1
  match r with
  | .host => s.hostRejected opcodeWr4 F.PW_PARK_REQ_GO.addr
  | .core _ => s

/-- A write of PW_PARK_REQ after lock (R368). -/
def State.parkWrite (s : State) (r : Requester) (v : Word) : State :=
  if bitsOf v.toNat 16 16 != 0x504B || !bitOf v.toNat 0 then s.parkRefuse r 1
  else if s.parking then s.parkRefuse r 2
  else
    let s := s.setPw (fun p => { p with waiting := some (bitOf v.toNat 1) })
    (match r with
     | .host => s.hostOk
     | .core _ => s).parkCheck

/-- The host's write of PW_PARK_REQ after lock (R6, R368). -/
def State.hostPark (s : State) (v : Word) : State := if cleanWrite F.PW_PARK_REQ_GO.addr v then s.parkWrite .host v else s.hostLocked F.PW_PARK_REQ_GO.addr

/-- PARK_REQUEST (R368): of the host, or of a control core. -/
def execParkRequest (dt : Nat) (r : Requester) (v : Word) (s : State) : Host.Outcome State Fault Refusal :=
  let s := s.elapse dt
  let a := F.PW_PARK_REQ_GO.addr
  ran (match r with
    | .host => s.hostWrite a (fun s => s.hostPark v)
    | .core c => s.coreWrite c a v (fun s => s.parkWrite r v))

/-- PARK_DRAIN_LIMIT (R369 step 4): PW_DRAIN of device time has passed since acceptance. -/
def execParkDrainLimit (dt : Nat) (s : State) : Host.Outcome State Fault Refusal :=
  let s := s.elapse dt
  ran (if s.parking && !(s.cl.insts.isEmpty && s.cl.occs.isEmpty) && decide (s.pw.parkAt + s.get F.PW_DRAIN * 1000000 ≤ s.now) then (s.parkRemove).parkCheck else s)

/-! ### Alarms and comparators (R50, R364 to R366) -/

/-- A write of PW_ALARM_HI arms alarm a (R374); whether its time is past already is remembered (R50). -/
def State.alarmWrite (s : State) (a : Nat) (hi : Word) : State :=
  let s := (s.set (F.PW_ALARM_HI a) hi.toNat).setFlag (F.PW_ALARM_STAT_ARMED a) true
  let past := decide (s.get64 (F.PW_ALARM_LO a) (F.PW_ALARM_HI a) < s.cycleNow)
  s.setPw (fun p => { p with late := if past then a :: p.late else p.late.filter (fun x => x != a) })

/-- ALARM_ARM (R365, R374): a core writes PW_ALARM_HI. -/
def execAlarmArm (dt : Nat) (c : Fin 8) (a : Fin 4) (hi : Word) (s : State) : Host.Outcome State Fault Refusal :=
  ran ((s.elapse dt).coreWrite c (F.PW_ALARM_HI a).addr hi (fun s => s.alarmWrite a hi))

/-- An alarm fires: no longer armed, FIRED (R365, R374). -/
def State.alarmDone (s : State) (a : Nat) : State := (s.setFlag (F.PW_ALARM_STAT_ARMED a) false).setFlag (F.PW_ALARM_STAT_FIRED a) true

/-- ALARM_FIRE (R50, R365): in run state on device time, with its source; parked on the counter, with its latch. -/
def execAlarmFire (dt : Nat) (a : Fin 4) (boot : BootInputs) (s : State) : Host.Outcome State Fault Refusal :=
  let s := s.elapse dt
  let t := s.get64 (F.PW_ALARM_LO a) (F.PW_ALARM_HI a)
  ran (if !s.flag (F.PW_ALARM_STAT_ARMED a) then s
    else if s.parked then
      (match assocGet a.val s.pw.alarms with
       | some c => if s.thy.refPresent && decide (c ≤ s.thy.counter) then (s.alarmDone a).latchEdge (0x20 + a) (!s.latchFalls (0x20 + a)) boot else s
       | none => s)
    else if s.running && decide (t ≤ s.cycleNow) then
      let s := s.alarmDone a
      let s := if s.passedByStep t && !s.pw.late.contains a.val then s.setFlag (F.PW_ALARM_STAT_SKIPPED a) true else s
      (s.raise (0x20 + a)).latchEdge (0x20 + a) (!s.latchFalls (0x20 + a)) boot
    else s)

/-- COMPARATOR_OUTPUT_CHANGE (R366): the level after the filter time, a status source in run state, its latch from a park on. -/
def execComparatorOutputChange (dt : Nat) (c : Fin 4) (high : Bool) (boot : BootInputs) (s : State) : Host.Outcome State Fault Refusal :=
  let s := s.elapse dt
  ran (if !s.flag (F.PW_CMP_CFG_EN c) || s.flag (F.PW_CMP_STAT_LEVEL c) == high then s
    else
      let s := (s.setFlag (F.PW_CMP_STAT_LEVEL c) high).incSat (F.PW_CMP_STAT_CROSSINGS c)
      let s := if s.parked then s.setSignal (0x1C + c) high else s.statusSource (0x1C + c) high
      s.latchEdge (0x1C + c) high boot)

/-- WAKE_LATCH_EDGE (R291, R371): an edge at the input of a Lovage latch. -/
def execWakeLatchEdge (dt : Nat) (src : Fin 64) (rising : Bool) (boot : BootInputs) (s : State) : Host.Outcome State Fault Refusal :=
  ran ((s.elapse dt).latchEdge src rising boot)

/-! ### The reference and the PLLs (R362, R367) -/

/-- REFERENCE_LOSS (R367): the counter stops; parked it is remembered, in run state it is fatal (R306). -/
def execReferenceLoss (dt : Nat) (s : State) : Host.Outcome State Fault Refusal :=
  let s := s.elapse dt
  ran (if !s.thy.refPresent then s
    else
      let s := { s with thy := { s.thy with refPresent := false } }
      if s.parked then s.setFlag F.PW_STATUS_REF_LOST true
      else if s.running then s.fatal { SafetyRec.of 0x30 2 with object := 157, limit := 25000 }
      else s)

/-- REFERENCE_RESTORED (R367). -/
def execReferenceRestored (dt : Nat) (s : State) : Host.Outcome State Fault Refusal :=
  let s := s.elapse dt
  ran { s with thy := { s.thy with refPresent := true } }

/-- An island of PLL n and its expected kHz (R362, log entry 53). -/
def pllIsland (n : Nat) : Nat × Nat :=
  match n with
  | 0 => (156, 500000)
  | 1 => (159, 600000)
  | 2 => (173, 900000)
  | 3 => (177, 703125)
  | 4 => (171, 156250)
  | _ => (160, 300000)

/-- PLL_LOCK_LOSS (R362): counted, event 0x1A5; the clock monitor makes it fatal in run state (R306), where no loop relocks. -/
def execPllLockLoss (dt : Nat) (n : Fin 6) (s : State) : Host.Outcome State Fault Refusal :=
  let s := s.elapse dt
  ran (if !bitOf (s.get F.PW_PLL_STAT_LOCK) n then s
    else
      let s := (s.set F.PW_PLL_STAT_LOCK (putBit (s.get F.PW_PLL_STAT_LOCK) n false)).incSat F.PW_PLL_STAT_LOSSES
      let s := s.raise 0x1A5
      if s.running then s.fatal { SafetyRec.of 0x30 2 with object := (pllIsland n).1, limit := (pllIsland n).2 } else s)

end Sys2Proof.Machine
end

