-- ==== Sys2Proof/Machine/Thyme.lean ====
section
/-! DEFINITION. The commands of Thyme (R33 to R57). START_WAIT_TIMEOUT starts result sets and stands with fusion; CAPTURE_EDGE stands with the control outputs. -/

namespace Sys2Proof.Machine

/-- TB_NOW_LO_READ (R35). -/
def execTbNowLoRead (dt : Nat) (r : Requester) (s : State) : Host.Outcome State Fault Refusal :=
  ran ((s.elapse dt).readGate r F.TB_NOW_LO.addr fun s => (s.latchNow r.num).readReturn r (BitVec.ofNat 32 s.cycleNow))

/-- A rate commit and its code (R36, R37). -/
def State.rateCommit (s : State) : State :=
  let code := s.rateCode
  let s := s.set F.TB_COMMIT_STATUS_CODE code
  if code == 0 then
    let rate := s.getI F.TB_RATE_NEXT
    (s.setThy (fun t => { t.keepTriple with triple := t.triple.reanchor t.counter rate 0, rateAt := some t.counter })).incWrap F.TB_COMMIT_STATUS_COUNT
  else s

/-- RATE_COMMIT (R36, R37): the write of TB_COMMIT.GO. -/
def execRateCommit (dt : Nat) (c : Fin 8) (s : State) : Host.Outcome State Fault Refusal :=
  ran ((s.elapse dt).coreWrite c.val F.TB_COMMIT.addr 1 fun s => s.rateCommit)

/-- A write of TB_MEAS_HI submits the measurement (R39, R41); a forward step it commits seals the results whose deadlines it passes (R103). -/
def State.measWrite (s : State) (hi : Word) : State :=
  let s := s.set F.TB_MEAS_HI hi.toNat
  let t := s.measure (signedOf 64 (s.get64 F.TB_MEAS_LO F.TB_MEAS_HI))
  if decide (s.now < t.now) && t.fusionOn then ((List.range 4).foldl State.sealPassed t).parkCheck else t

/-- MEASUREMENT_SUBMIT (R39, R41, R103): the write of TB_MEAS_HI. -/
def execMeasurementSubmit (dt : Nat) (c : Fin 8) (hi : Word) (s : State) : Host.Outcome State Fault Refusal :=
  ran ((s.elapse dt).coreWrite c.val F.TB_MEAS_HI.addr hi fun s => s.measWrite hi)

/-- The time quality state after a timeout (R41). -/
def State.measTimeout (s : State) : State :=
  let once := s.flag F.TB_STATUS_LOCKED_ONCE
  let s := match s.thy.tq with
    | .free => s
    | .locking => s.enterTq (if once then .holdover else .free) 0
    | .locked => s.enterTq .holdover 0
    | .holdover => s.enterTq .holdover 0
    | .refused => (s.discardRun).enterTq (if once then .holdover else .free) 0
  ((s.setThy (fun t => { t with timedOut := true })).raise 0x0F3).refreshTq

/-- MEASUREMENT_TIMEOUT (R41): once per absence of TB_MEAS_TIMEOUT. -/
def execMeasurementTimeout (dt : Nat) (s : State) : Host.Outcome State Fault Refusal :=
  let s := s.elapse dt
  let due := decide (s.thy.lastMeas.getD 0 + s.get F.TB_MEAS_TIMEOUT * 10 ^ 6 ≤ s.now)
  ran (if due && !s.thy.timedOut then s.measTimeout else s)

/-- HOLDOVER_LIMIT_REACHED (R42). -/
def execHoldoverLimitReached (dt : Nat) (s : State) : Host.Outcome State Fault Refusal :=
  ran (s.elapse dt).refreshTq

/-- A write of TB_RELOCK_ARM executed: the arm valid for 1 s, or rejected (R46). -/
def State.relockWrite (s : State) (v : Word) : State :=
  if v.toNat / 2 ^ 16 == 0xA5C3 && v.toNat % 2 ^ 16 == s.get F.TB_JUMP_REFUSED_JUMP_ID &&
      s.flag F.TB_JUMP_REFUSED_PENDING && s.get F.TB_CFG_POLICY == 2 then
    (s.setThy (fun t => { t with arm := some (s.now + 10 ^ 9) })).hostOk
  else s.hostRejected opcodeWr4 F.TB_RELOCK_ARM_KEY.addr

/-- TB_RELOCK_ARM (R46): a host write. -/
def execTbRelockArm (dt : Nat) (v : Word) (s : State) : Host.Outcome State Fault Refusal :=
  ran ((s.elapse dt).hostWrite F.TB_RELOCK_ARM_KEY.addr (fun s => s.relockWrite v))

/-- RELOCK_ARM_EXPIRY (R46): the arm is no longer valid once 1 s of device time has passed. -/
def execRelockArmExpiry (dt : Nat) (s : State) : Host.Outcome State Fault Refusal :=
  let s := s.elapse dt
  match s.thy.arm with
  | some until_ => ran (if until_ < s.now then s.setThy (fun t => { t with arm := none }) else s)
  | none => ran s

/-- Every wheel input in TB_STILL.MASK has been without an edge for TB_STILL.MS (R4, R43). -/
def State.still (s : State) : Bool :=
  let mask := s.get F.TB_STILL_MASK
  mask != 0 && (List.range 12).all (fun i =>
    !bitOf mask i || decide (s.thy.wheelEdge.getD i 0 + s.get F.TB_STILL_MS * 10 ^ 6 ≤ s.now))

/-- STANDSTILL_REACHED (R43). -/
def execStandstillReached (dt : Nat) (s : State) : Host.Outcome State Fault Refusal :=
  let s := s.elapse dt
  ran (if s.still then s.set F.TB_STATUS_STILL 1 else s)

/-- FOLLOW_UP_TIMEOUT (R48): the Sync that waits one interval long is dropped with code 0x42. -/
def execFollowUpTimeout (dt : Nat) (s : State) : Host.Outcome State Fault Refusal :=
  let s := s.elapse dt
  match s.thy.sync with
  | some y =>
    if y.at_ + y.interval ≤ s.now then
      ran ((s.setThy (fun t => { t with sync := none })).violation (0x08 + y.mac) 0x42 (leBytes 2 y.seqId))
    else ran s
  | none => ran s

/-- ANNOUNCE_RECEIPT_TIMEOUT (R38): the servo changes to the alternate MAC where one is named. -/
def execAnnounceReceiptTimeout (dt : Nat) (s : State) : Host.Outcome State Fault Refusal :=
  let s := s.elapse dt
  ran (if s.flag F.TB_CFG_ALT_EN && !s.thy.altActive then
    s.setThy (fun t => { t with altActive := true, sync := none, lastAnnounce := none }) else s)

end Sys2Proof.Machine
end

