-- ==== Sys2Proof/Machine/HostPort.lean ====
section
/-! DEFINITION. The host port: transactions, the DRAM window, result slots, releases, the host warm reset (R375 to R385). -/

namespace Sys2Proof.Machine

/-! ### Transactions (R376, R378) -/

/-- The host CRC over opcode, address, most significant byte first, and write data (R376). -/
def hostCrc (opcode a : Nat) (data : Bytes) : Nat := crcN 16 0x1021 0xFFFF (BitVec.ofNat 8 opcode :: beBytes 4 a ++ data)

/-- The result read in progress has ended by the time of the next transaction: an emission that waited for it goes on (R383). -/
def State.endHostRead (s : State) : State :=
  match s.hp.reading with
  | some _ => (({ s with hp := { s.hp with reading := none } }).advanceEmission false).parkCheck
  | none => s

/-- A transaction with `n` bytes of read data whose host CRC has been received: `f` runs when it is right (R377, R378); in the Lovage-only state nothing answers (R370). -/
def State.hostTxn (s : State) (opcode a n : Nat) (data : Bytes) (crc : BitVec 16) (f : State → State) : State :=
  if s.pw.lovageOnly then s
  else
    let s := s.endHostRead
    if crc.toNat == hostCrc opcode a data then f s
    else ((s.violation 0x13 0x73 (BitVec.ofNat 8 opcode :: leBytes 4 a)).incSat F.HP_CRC_ERR).hostReply opcode 0xC1 0 (zerosB n)

/-- The opcodes known (R376). -/
def knownOpcode (op : Byte) : Bool := [0x02, 0x0B, 0x0C, 0x0D, 0x0E, 0x10, 0x1A, 0x1B, 0x99].contains op.toNat

/-! ### Reads (R351, R370, R377, R380) -/

/-- A register the host may read in minimal mode (R351). -/
def minimalMayRead (a : Nat) : Bool :=
  a == F.GLB_ID_STEPPING.addr || a == F.GLB_STATUS_RUN.addr || a == F.RC_LAST_SLOT.addr || a == F.RC_DEV_RESETS.addr || within 0x110000 a 0x11FFFF ||
    (within 0xF0000 a 0xFFFFF && !within 0xF0040 a 0xF00CB && !within 0xF0200 a 0xF029F && !within 0xF0400 a 0xF07FF)

/-- A register the host may read while the part is parked with DRAM retained (R370). -/
def parkedMayRead (a : Nat) : Bool :=
  a == F.GLB_ID_STEPPING.addr || a == F.GLB_STATUS_RUN.addr || within 0x100000 a 0x10FFFF || within 0xF0004 a 0xF0013

/-- The address is powered for a host read. -/
def State.hostMayRead (s : State) (a : Nat) : Bool := (!s.minimal || minimalMayRead a) && (!s.parkedRetained || parkedMayRead a)

/-- The block of the map an address lies in (R401). -/
def inBlocks (a : Nat) : Bool := decide (a < 0x150000)

/-- The result set whose ring region holds an address (R401). -/
def ringOf (a : Nat) : Option Nat :=
  (List.range 4).find? (fun n => within (0x01000000 + n * 0x10000000) a (0x01000000 + n * 0x10000000 + 0xFFFFFFF))

/-- The side effect of a host read of a register (R404). -/
def State.hostReadEffect (s : State) (a : Nat) : State :=
  if a == F.TB_NOW_LO.addr then s.latchNow 0
  else if within 0xA4000 a 0xABFFF && a % 8 == 0 then s.latchFence 0 ((a - 0xA4000) / 8)
  else if a == 0xC0200 || a == 0xC0210 then s.claimPin ((a - 0xC0200) / 16)
  else if a == F.EV_SYNC.addr then s.clearLate 0
  else if within 0x140000 a 0x1401FF && a % 32 == 8 then s.popCapture 0 ((a - 0x140000) / 32)
  else s

/-- `k` register words from `a` on, in ascending address, each with its side effects (R377). -/
def State.hostWords (s : State) (a : Nat) : Nat → State × Bytes
  | 0 => (s, [])
  | k + 1 =>
    let w := leBytes 4 (s.viewReg 0 a).toNat
    let (s, rest) := (s.hostReadEffect a).hostWords (a + 4) k
    (s, w ++ rest)

/-- An uncorrectable word in a host read of DRAM at device address `da`: 0xC3 (R378, R380). -/
def State.hostUe (s : State) (opcode da n : Nat) : State :=
  let s := match s.toLocal da with
    | some a => s.keepFaulty 0 (a / 2 ^ 28) a
    | none => s
  (((s.violation 0x13 0x7C (leBytes 5 da)).incSat F.HP_DRAM_UE).raise 0x192).hostReply opcode 0xC3 0 (zerosB n)

/-- `n` bytes of DRAM at device address `da` as a host read finds them (R380). -/
def State.hostDram (s : State) (opcode da n tag : Nat) (met : WindowMet) : State :=
  let s := met.notes.foldl State.noteAccess s
  match met.ue <|> (List.range n).find? (fun i => (s.faultyDram (da + i) 1).isSome) with
  | some o => s.hostUe opcode (da + 4 * (o % n / 4)) n
  | none => s.hostReply opcode 0 tag (s.dramRead da n)

/-- A read through the DRAM window (R380). -/
def State.windowRead (s : State) (opcode a n : Nat) (met : WindowMet) : State :=
  let da := s.get F.HP_WIN_BASE * 2 ^ 31 + (a - 0x80000000)
  if s.minimal || s.parkedRetained then s.hostUnpowered opcode a n
  else if a % 4 != 0 || decide (2 ^ 32 < a + n) || !((List.range n).all (fun i => (s.toLocal (da + i)).isSome)) then s.hostAddrErr opcode a n
  else s.hostDram opcode da n 0 met

/-- A read of registers or of the window (R376, R377). -/
def State.hostRead (s : State) (opcode a n : Nat) (met : WindowMet) : State :=
  if 0x80000000 ≤ a then s.windowRead opcode a n met
  else if !(List.range (n / 4)).all (fun i => s.hostMayRead (a + 4 * i)) then s.hostUnpowered opcode a n
  else if a % 4 != 0 || !inBlocks a || decide (0x10000 < a % 0x10000 + n) then s.hostAddrErr opcode a n
  else
    let (s, data) := s.hostWords a (n / 4)
    s.hostReply opcode 0 0 data

/-- RD4. -/
def execRd4 (dt : Nat) (addr : Word) (crc : BitVec 16) (met : WindowMet) (s : State) : Host.Outcome State Fault Refusal :=
  ran ((s.elapse dt).hostTxn 0x0B addr.toNat 4 [] crc (fun s => s.hostRead 0x0B addr.toNat 4 met))

/-- RD64. -/
def execRd64 (dt : Nat) (addr : Word) (crc : BitVec 16) (met : WindowMet) (s : State) : Host.Outcome State Fault Refusal :=
  ran ((s.elapse dt).hostTxn 0x0C addr.toNat 64 [] crc (fun s => s.hostRead 0x0C addr.toNat 64 met))

/-- RD256. -/
def execRd256 (dt : Nat) (addr : Word) (crc : BitVec 16) (met : WindowMet) (s : State) : Host.Outcome State Fault Refusal :=
  ran ((s.elapse dt).hostTxn 0x0D addr.toNat 256 [] crc (fun s => s.hostRead 0x0D addr.toNat 256 met))

/-- RD4K. -/
def execRd4k (dt : Nat) (addr : Word) (crc : BitVec 16) (met : WindowMet) (s : State) : Host.Outcome State Fault Refusal :=
  ran ((s.elapse dt).hostTxn 0x0E addr.toNat 4096 [] crc (fun s => s.hostRead 0x0E addr.toNat 4096 met))

/-! ### Writes (R346 to R348, R351, R379, R384) -/

/-- Result `sn` of set rs released, or a stale release (R382, R384). -/
def State.releaseSlot (s : State) (rs sn : Nat) : State :=
  let slot := s.slotOf rs sn
  if s.slotSeq rs slot == some sn then ((s.emptySlot rs slot).set (F.HP_RESULT_RELEASE rs) sn).hostOk
  else (((s.violation 0x13 0x77 (BitVec.ofNat 8 rs :: leBytes 4 sn)).incSat (F.HP_STALE rs)).raise 0x191).hostReply opcodeWr4 0x84 0 []

/-- HP_RESULT_RELEASE (R384): a host write. -/
def execHpResultRelease (dt : Nat) (rs : Fin 4) (sn : Word) (s : State) : Host.Outcome State Fault Refusal :=
  ran ((s.elapse dt).hostWrite (F.HP_RESULT_RELEASE rs).addr (fun s => (s.endHostRead).releaseSlot rs sn.toNat))

/-- A write of BT_MIN_CMD (R352). -/
def State.minWrite (s : State) (v : Word) : State :=
  if s.minimal && !cleanWrite F.BT_MIN_CMD_OP.addr v then s.hostLocked F.BT_MIN_CMD_OP.addr
  else s.minCommand (BitVec.ofNat 16 (v.toNat / 2 ^ 16)) (fun s =>
    match v.toNat % 16 with
    | 1 => s.flashBegin 1
    | 2 => s.flashBegin 2
    | 3 => s.flashBegin 3
    | 4 => s.minRetry
    | _ => s.minReject)

/-- A host write in minimal mode (R351). -/
def State.minimalWrite (s : State) (a : Nat) (v : Word) : State :=
  if !minimalMayWrite a then s.hostUnpowered opcodeWr4 a 0
  else if a == F.BT_MIN_CMD_OP.addr then s.minWrite v
  else if cleanWrite a v then (s.writeReg a v).hostOk
  else s.hostLocked a

/-- A write of an HW register after lock (R347). -/
def State.hwWrite (s : State) (a : Nat) (v : Word) : State :=
  if a == F.TB_RELOCK_ARM_KEY.addr then s.relockWrite v
  else if a == F.PW_PARK_REQ_GO.addr then s.hostPark v
  else if within 0xF0060 a 0xF006F then s.nonceWrite ((a - 0xF0060) / 4) v
  else s.releaseSlot ((a - (F.HP_RESULT_RELEASE 0).addr) / 32) v.toNat

/-- A host write of 32 bits (R377 to R380). -/
def State.hostStore (s : State) (a : Nat) (v : Word) : State :=
  if s.minimal then s.minimalWrite a v
  else if s.parkedRetained then s.hostUnpowered opcodeWr4 a 0
  else if 0x80000000 ≤ a || (ringOf a).isSome then (s.violation 0x13 0x76 (0 :: leBytes 4 a)).hostReply opcodeWr4 0xC5 0 []
  else if a % 4 != 0 || !inBlocks a then s.hostAddrErr opcodeWr4 a 0
  else if s.locked && hostMayWrite a then s.hwWrite a v
  else s.hostLocked a

/-- WR4. -/
def execWr4 (dt : Nat) (addr v : Word) (crc : BitVec 16) (s : State) : Host.Outcome State Fault Refusal :=
  ran ((s.elapse dt).hostTxn opcodeWr4 addr.toNat 0 (leBytes 4 v.toNat) crc (fun s => s.hostStore addr.toNat v))

/-! ### Commands (R376, R379) -/

/-- SETWIN (R376, R379). -/
def execSetwin (dt : Nat) (addr : Word) (crc : BitVec 16) (s : State) : Host.Outcome State Fault Refusal :=
  ran ((s.elapse dt).hostTxn 0x10 addr.toNat 0 [] crc (fun s =>
    if s.minimal then s.hostUnpowered 0x10 addr.toNat 0
    else if 512 ≤ addr.toNat then s.hostAddrErr 0x10 addr.toNat 0
    else (s.set F.HP_WIN_BASE addr.toNat).hostReply 0x10 0 0 []))

/-- The address WRESET must name (R376). -/
def wresetKey : Nat := 0x57525354

/-- WRESET (R330, R379): the status first, then the device warm reset with cause 10. -/
def execWreset (dt : Nat) (addr : Word) (crc : BitVec 16) (s : State) : Host.Outcome State Fault Refusal :=
  ran ((s.elapse dt).hostTxn 0x99 addr.toNat 0 [] crc (fun s =>
    if addr.toNat == wresetKey && s.running then ((s.hostReply 0x99 0 0 []).raise 0x193).devTrigger 10 none false
    else s.hostRejected 0x99 addr.toNat))

/-- A read inside a result slot (R383). -/
def State.slotRead (s : State) (opcode a n : Nat) (met : WindowMet) : State :=
  if s.minimal || s.parkedRetained then s.hostUnpowered opcode a n
  else match ringOf a with
    | none => s.hostAddrErr opcode a n
    | some rs =>
      let z := s.get (F.HP_RING_CFG_SLOT_4K rs) * 4096
      let o := a - (0x01000000 + rs * 0x10000000)
      let i := o / z
      if a % 4 != 0 || z == 0 || decide (s.get (F.HP_RING_CFG_SLOTS rs) ≤ i) || decide (z < o % z + n) then s.hostAddrErr opcode a n
      else match s.slotSeq rs i, s.slotAddr rs i with
        | some sn, some da => ({ s with hp := { s.hp with reading := some (rs, i) } }).hostDram opcode (da + o % z) n sn met
        | _, _ => s.hostReply opcode 0x81 0 (zerosB n)

/-- RRES64. -/
def execRres64 (dt : Nat) (addr : Word) (crc : BitVec 16) (met : WindowMet) (s : State) : Host.Outcome State Fault Refusal :=
  ran ((s.elapse dt).hostTxn 0x1A addr.toNat 64 [] crc (fun s => s.slotRead 0x1A addr.toNat 64 met))

/-- RRES4K. -/
def execRres4k (dt : Nat) (addr : Word) (crc : BitVec 16) (met : WindowMet) (s : State) : Host.Outcome State Fault Refusal :=
  ran ((s.elapse dt).hostTxn 0x1B addr.toNat 4096 [] crc (fun s => s.slotRead 0x1B addr.toNat 4096 met))

/-- UNKNOWN_OPCODE (R378): an opcode not in the table, or an inverse byte that does not match. -/
def execUnknownOpcode (dt : Nat) (opcode inverse : Byte) (s : State) : Host.Outcome State Fault Refusal :=
  let s := s.elapse dt
  ran (if s.pw.lovageOnly || (knownOpcode opcode && inverse == ~~~opcode) then s
    else ((s.endHostRead).violation 0x13 0x74 [opcode, inverse]).hostReply opcode.toNat 0xC0 0 [])

/-- TRANSACTION_CANCEL (R378): discarded without an answer, record 0x71. -/
def execTransactionCancel (dt : Nat) (opcode received : Byte) (s : State) : Host.Outcome State Fault Refusal :=
  let s := s.elapse dt
  ran (if s.pw.lovageOnly then s else (s.endHostRead).violation 0x13 0x71 [opcode, received])

/-- CL_FENCE_LO_READ (R266, R404). -/
def execClFenceLoRead (dt : Nat) (r : Requester) (f : Fin 4096) (s : State) : Host.Outcome State Fault Refusal :=
  ran ((s.elapse dt).readGate r (F.CL_FENCE_LO f).addr (fun s => (s.latchFence r.num f).readReturn r (s.readReg (F.CL_FENCE_LO f).addr)))

end Sys2Proof.Machine
end

