-- ==== Sys2Proof/Machine/Marjoram.lean ====
section
/-! DEFINITION. The commands of Marjoram (R267 to R278). -/

namespace Sys2Proof.Machine

/-- ENERGY_TICK (R267, R273): the refill, a cap change that is pending, an admission pass, and take-ups; the measured power is an open value (log entry 48). -/
def execEnergyTick (dt : Nat) (s : State) : Host.Outcome State Fault Refusal :=
  let s := s.elapse dt
  ran (if s.running then
    let s := (s.set F.MJ_POWER_MW (Config.measuredPower s.freeCtr)).nextFree
    s.settle true
  else s)

/-- CLASS0_SLACK_EXPIRY (R275, R276): a ready class-0 instance whose slack is spent. -/
def execClass0SlackExpiry (dt : Nat) (list : Fin 4095) (s : State) : Host.Outcome State Fault Refusal :=
  let s := s.elapse dt
  match s.inst? list.val with
  | some i => ran (if i.phase == .ready && (s.listHdr i.list).cls == 0 && s.slackLeft i == 0 then s.settle true else s)
  | none => ran s

/-- STARVE_TIMEOUT (R274): a deferred instance of class 1 or 2 begins to hold its class. -/
def execStarveTimeout (dt : Nat) (list : Fin 4095) (s : State) : Host.Outcome State Fault Refusal :=
  let s := s.elapse dt
  match s.inst? list.val with
  | some i =>
    let c := (s.listHdr i.list).cls
    let due := decide (i.readyAt + s.get F.MJ_STARVE * 1000 ≤ s.now)
    ran (if i.phase == .ready && i.deferred && c != 0 && due && (s.starver c).isNone then s.setStarver c (some i.list) else s)
  | none => ran s

/-- ENERGY_DEBT_TIMEOUT (R276, R304): a debt that has lasted MJ_WINDOW is reported once. -/
def execEnergyDebtTimeout (dt : Nat) (s : State) : Host.Outcome State Fault Refusal :=
  let s := s.elapse dt
  match s.mj.debtSince with
  | some c =>
    ran (if !s.mj.debtTold && decide (c + s.get F.MJ_WINDOW * 10 ^ 6 < s.now) then
      let s := (s.setMj (fun m => { m with debtTold := true })).raise 0x168
      (s.safetyLog (SafetyRec.of 0x36 1)).raise 0x174
    else s)
  | none => ran s

/-! ### Sensors and zones (R272) -/

/-- A temperature in an 8-bit field; above 127 °C what it shows is open (log entry 49). -/
def State.showTemp (s : State) (f : Field) (t : Int) : State := if 127 < t then s.set f (Config.hotShown t) else s.setI f t

/-- A sensor begins to count as reading its zone's LIMIT (R272, R304); `t` is what it read. -/
def State.sensorBad (s : State) (i : Nat) (t : Int) : State :=
  let limit := s.get (F.MJ_ZONE_LIMIT (zoneOfSensor i))
  let s := s.set (F.MJ_SENSOR_TEMP i) limit
  if s.flag (F.MJ_SENSOR_BAD_FLD i) then s
  else
    let s := ((s.setFlag (F.MJ_SENSOR_BAD_FLD i) true).incSat F.MJ_SENSOR_BAD).raise 0x169
    (s.safetyLog { SafetyRec.of 0x33 1 with object := zoneOfSensor i, detail := patternOf 32 t, limit := limit }).raise 0x174

/-- One sensor's sample; none when it gave none (R272). -/
def State.sampleSensor (s : State) (i : Nat) (t : Option Int) : State :=
  match t with
  | none => s
  | some t =>
    let s := s.setMj (fun m => { m with sampled := setAt m.sampled i s.now })
    if -55 ≤ t ∧ t ≤ 150 then ((s.setMj (fun m => { m with temps := setAt m.temps i t })).setFlag (F.MJ_SENSOR_BAD_FLD i) false).showTemp (F.MJ_SENSOR_TEMP i) t else s.sensorBad i t

/-- The zones' temperatures as MJ_ZONE shows them, and NOROOM (R280). -/
def State.refreshZones (s : State) : State :=
  ((List.range 12).foldl (fun s z => s.showTemp (F.MJ_ZONE_TEMP z) (s.zoneTemp z)) s).refreshNoroom

/-- ZONE_SAMPLE (R272): the readings of the 64 sensors, in order. -/
def execZoneSample (dt : Nat) (temps : List (Option Int)) (s : State) : Host.Outcome State Fault Refusal :=
  let s := s.elapse dt
  ran (if s.running then
    ((List.range 64).foldl (fun s i => s.sampleSensor i (temps.getD i none)) s).refreshZones
  else s)

/-- SENSOR_SAMPLE_TIMEOUT (R272): no sample for 100 µs. -/
def execSensorSampleTimeout (dt : Nat) (sensor : Fin 64) (s : State) : Host.Outcome State Fault Refusal :=
  let s := s.elapse dt
  ran (if s.running && decide (s.mj.sampled.getD sensor.val 0 + 100000 ≤ s.now) && !s.flag (F.MJ_SENSOR_BAD_FLD sensor.val) then
    (s.sensorBad sensor.val (s.mj.temps.getD sensor.val 0)).refreshZones
  else s)

/-! ### The cap (R270) -/

/-- A cap a control core may set (R269, R270). -/
def State.capAllowed (s : State) (v : Nat) : Bool :=
  decide (60000 ≤ v) && decide (v ≤ 300000) && decide (s.get F.MJ_BASE_MW + 10000 ≤ v)

/-- A write of MJ_CAP_MW: taken in at the next tick, or rejected (R270). -/
def State.capWrite (s : State) (v : Word) : State :=
  if s.capAllowed v.toNat then (s.set F.MJ_CAP_MW v.toNat).setMj (fun m => { m with pendingCap := some v.toNat })
  else (s.incSat F.MJ_CAP_REJ).raise 0x16A

/-- CAP_WRITE (R270). -/
def execCapWrite (dt : Nat) (c : Fin 8) (v : Word) (s : State) : Host.Outcome State Fault Refusal :=
  ran ((s.elapse dt).coreWrite c.val F.MJ_CAP_MW.addr v fun s => s.capWrite v)

end Sys2Proof.Machine
end

