-- ==== Sys2Proof/Machine/Recovery.lean ====
section
/-! DEFINITION. Hang detection, the windows and requests of recovery, crash records, aborts and backstops (R317 to R337). -/

namespace Sys2Proof.Machine

/-- What an instance waits for is a peer part's share of a collective, which the backstop governs (R317). -/
def Inst.waitsPeer (i : Inst) : Bool := i.wait == some .collective

/-- A queue hangs (R317): no command completes for RC_HANG_MS. -/
def execQueueHang (dt : Nat) (eng : Fin 6) (q : Fin 16) (s : State) : Host.Outcome State Fault Refusal :=
  let s := s.elapse dt
  ran (match s.instOn eng.val q.val with
    | some i =>
      let due := (i.phase == .running || i.phase == .waiting) && decide (i.progressAt + s.get F.RC_HANG_MS * 1000000 ≤ s.now)
      if s.running && due && !i.waitsPeer && !s.ctxHeld (s.runHdr i).ctx then (((s.incSat F.RC_HANGS).raise 0x180).ctxTriggerInst 1 i 0).parkCheck else s
    | none => s)

/-- The fusion engine hangs on a result of set rs (R318). -/
def execFusionHang (dt : Nat) (rs : Fin 4) (s : State) : Host.Outcome State Fault Refusal :=
  let s := s.elapse dt
  let due := s.instant rs (s.fuSet rs).k + s.get (F.FU_RS_H rs) + s.get F.RC_HANG_MS * 1000000
  ran (if s.running && s.rsRuns rs && !s.rc.fusionHeld && s.rc.devReset.isNone && decide (due ≤ s.now) then
      ((s.incSat F.RC_HANGS).raise 0x180).devTrigger 1 none true
    else s)

/-- The drain of a context reset is over at 100 µs: what is left is answered with errors (R324 step 3). -/
def execContextDrainTimeout (dt : Nat) (ctx : Fin 64) (s : State) : Host.Outcome State Fault Refusal :=
  let s := s.elapse dt
  ran (match s.ctxReset? ctx with
    | some x =>
      if s.get (F.RC_CTX_STAT_STATE ctx) == 1 && decide (x.start + 100000 ≤ s.now) then ((s.answerErrors ctx).ctxRemove ctx).parkCheck else s
    | none => s)

/-- A record still unfinished at a window's end is late, and what waits for it goes on (R321, R324 step 5). -/
def State.windowRecord (s : State) (slot : Nat) (done : Bool) : State := if done then s else (s.recordLate slot).settled slot

/-- The window of a context reset ends (R321, R324). -/
def execContextWindowExpiry (dt : Nat) (ctx : Fin 64) (s : State) : Host.Outcome State Fault Refusal :=
  let s := s.elapse dt
  ran (match s.ctxReset? ctx with
    | some x =>
      if x.start + s.get F.RC_CTX_WINDOW * 1000 ≤ s.now then
        let s := s.windowRecord x.slot x.settled
        (if s.get (F.RC_CTX_STAT_STATE ctx) == 1 && !s.covered ctx then s.escalate ctx else s).parkCheck
      else s
    | none => s)

/-- A write of RC_CTX_REQ (R322 cause 7, R338). -/
def State.ctxRequest (s : State) (v : Word) : State :=
  if bitOf v.toNat 31 then (s.ctxTriggerOf (bitsOf v.toNat 0 6) 7 0).parkCheck else s

/-- A core writes RC_CTX_REQ. -/
def execContextResetRequest (dt : Nat) (c : Fin 8) (v : Word) (s : State) : Host.Outcome State Fault Refusal :=
  ran ((s.elapse dt).coreWrite c F.RC_CTX_REQ_CTX.addr v fun s => s.ctxRequest v)

/-- A write of RC_PART_REQ (R322 cause 7, R338); a partition without tiles has nothing to reset. -/
def State.partRequest (s : State) (v : Word) : State :=
  let p := bitsOf v.toNat 0 4
  if bitOf v.toNat 31 && decide (p < 12) && !(s.tilesOfPart p).isEmpty then (s.partTrigger p 7).parkCheck else s

/-- A core writes RC_PART_REQ. -/
def execPartitionResetRequest (dt : Nat) (c : Fin 8) (v : Word) (s : State) : Host.Outcome State Fault Refusal :=
  ran ((s.elapse dt).coreWrite c F.RC_PART_REQ_PART.addr v fun s => s.partRequest v)

/-- The tiles of a partition in reset are ready to restart (R328 step 4). -/
def execPartitionResetComplete (dt : Nat) (p : Fin 12) (s : State) : Host.Outcome State Fault Refusal :=
  let s := s.elapse dt
  ran (match s.partReset? p with
    | some x => if x.cleared then ((s.putPartReset { x with ready := true }).tryPartDone p).parkCheck else s
    | none => s)

/-- The window of a partition reset ends (R321, R328): what is not ready goes on to the device level. -/
def execPartitionWindowExpiry (dt : Nat) (p : Fin 12) (s : State) : Host.Outcome State Fault Refusal :=
  let s := s.elapse dt
  ran (match s.partReset? p with
    | some x =>
      if x.start + s.get F.RC_PART_WINDOW * 1000000 ≤ s.now then
        let s := s.windowRecord x.slot x.settled
        (if (s.partReset? p).isSome then s.devTrigger 8 (some p.val) false else s).parkCheck
      else s
    | none => s)

/-- A write of RC_CR_DONE: the record is complete, and resets that wait for it go on (R321 step 3, R332 step 1). -/
def State.recordDone (s : State) (v : Word) : State :=
  let slot := bitsOf v.toNat 0 6
  match s.rc.jobs.find? (fun j => j.slot == slot) with
  | some j =>
    let s := (s.crashSections j).setRc (fun r => { r with jobs := r.jobs.filter (fun x => x.slot != slot) })
    let s := s.settled slot
    if s.rc.devReset.isSome && slot == s.get F.RC_LAST_SLOT then s.deviceReset else s.parkCheck
  | none => s

/-- A core writes RC_CR_DONE. -/
def execCrashRecordDone (dt : Nat) (c : Fin 8) (v : Word) (s : State) : Host.Outcome State Fault Refusal :=
  ran ((s.elapse dt).coreWrite c F.RC_CR_DONE.addr v fun s => s.recordDone v)

/-- A job abort arrives (R336). -/
def State.abortReceived (s : State) (sender resume : Nat) : State :=
  let s := ((s.incSat F.RC_JOB_ABORTS_RECEIVED).raise 0x189).keepResume resume
  let s := if resume == jobLeave then s.rankLeft sender else s
  s.resetJob 5 (sender + 256 * resume)

/-- A job abort arrives from a part of the job. -/
def execJobAbortReceive (dt : Nat) (sender : Fin 8) (_level : Fin 3) (resume : Word) (s : State) : Host.Outcome State Fault Refusal :=
  let s := s.elapse dt
  ran (if s.running && s.inJob then (s.abortReceived sender resume.toNat).parkCheck else s)

/-- The backstop of a peer rank is due: the job result set runs, and nothing came for RC_BACKSTOP_MS (R337). -/
def State.backstopDue (s : State) (r : Nat) : Bool :=
  s.running && s.inJob && s.rsRuns (s.get F.RC_CFG_JOB_RS) && decide (r ≤ s.get F.LK_JOB_CFG_SIZE) && r != s.get F.GLB_STATUS_RANK && !s.rc.absent.contains r &&
  (match assocGet r s.rc.heard with
   | some t => decide (t + s.get F.RC_BACKSTOP_MS * 1000000 ≤ s.now)
   | none => false)

/-- A peer has been silent (R337): as if it had sent an abort with LEAVE, and this part's own abort naming it. -/
def execBackstopTimeout (dt : Nat) (rank : Fin 8) (s : State) : Host.Outcome State Fault Refusal :=
  let s := s.elapse dt
  ran (if s.backstopDue rank then
      (((((s.incSat F.RC_BACKSTOPS).raise 0x18A).rankLeft rank).resetJob 6 (rank + 256 * jobLeave)).sendAbort 0 jobLeave rank).parkCheck
    else s)

end Sys2Proof.Machine
end

