-- ==== Sys2Proof/Machine/Cores.lean ====
section
/-! DEFINITION. Stores of control cores (R6, R348, R401, R402) and the boundary-scan port (R357). -/

namespace Sys2Proof.Machine

/-- A word stored over an old one, field by field: RW fields take it, W1C bits set in it are cleared, all else stays (R5). -/
def RegRow.stored (r : RegRow) (old v : Nat) : Nat :=
  r.fields.foldl (fun w f => match f.acc with
    | .rw => putBits w f.lo f.width (bitsOf v f.lo f.width)
    | .w1c => putBits w f.lo f.width (bitsOf old f.lo f.width &&& (2 ^ f.width - 1 - bitsOf v f.lo f.width))
    | _ => w) old

/-- A store with no effect but on the fields it names. -/
def State.plainStore (s : State) (a : Nat) (v : Word) : State :=
  match regRow? a with
  | some r => s.writeReg a (BitVec.ofNat 32 (r.stored (s.readReg a).toNat v.toNat))
  | none => s

/-- The instance whose register an address is, of `n` that lie `stride` apart from `base` on. -/
def instanceAt (a base stride n : Nat) : Option Nat :=
  if base ≤ a && (a - base) % stride == 0 && decide ((a - base) / stride < n) then some ((a - base) / stride) else none

/-- A store to a register whose write does more than change its fields: Thyme, caps, requests. -/
def State.storeSingle (s : State) (c : Fin 8) (a : Nat) (v : Word) : Option State :=
  if a == F.TB_COMMIT.addr then some (if bitOf v.toNat 0 then s.rateCommit else s)
  else if a == F.TB_MEAS_HI.addr then some (s.measWrite v)
  else if a == F.MJ_CAP_MW.addr then some (s.capWrite v)
  else if a == F.EV_GLOBAL.addr then some (s.set F.EV_GLOBAL (v.toNat % 2))
  else if a == F.EV_SWSET.addr then some (s.raise (0x300 + v.toNat % 128))
  else if a == F.RC_CTX_REQ_CTX.addr then some (s.ctxRequest v)
  else if a == F.RC_PART_REQ_PART.addr then some (s.partRequest v)
  else if a == F.RC_CR_DONE.addr then some (s.recordDone v)
  else if a == F.PW_PARK_REQ_GO.addr then some (s.parkWrite (.core c) v)
  else none

/-- A store to one of several registers of a kind whose write does more than change its fields. -/
def State.storeArray (s : State) (c : Fin 8) (a : Nat) (v : Word) : Option State :=
  match instanceAt a (F.EV_MASK 0).addr 4 32, instanceAt a (F.EV_C_COMPLETE 0).addr 32 8, instanceAt a (F.EV_FW_VAL_HI 0).addr 16 64 with
  | some w, _, _ => some (s.maskWrite c w v)
  | none, some t, _ => some (s.completeOn (c.val == t) t (v.toNat % 1024))
  | none, none, some w => some (s.watchWrite w v)
  | none, none, none => match instanceAt a (F.PW_ALARM_HI 0).addr 16 4, instanceAt a (F.IO_TRG_TIME_HI 0).addr 32 16 with
    | some x, _ => some (s.alarmWrite x v)
    | none, some o => some (s.trgTimeWrite o v)
    | none, none => none

/-- What an executed store of core c does (R402). -/
def State.storeEffect (s : State) (c : Fin 8) (a : Nat) (v : Word) : State :=
  match s.storeSingle c a v with
  | some t => t
  | none => (s.storeArray c a v).getD (s.plainStore a v)

/-- The address lies in a row of the control address map (R401). -/
def mapped (a : Nat) : Bool := inBlocks a || (ringOf a).isSome || decide (0x80000000 ≤ a)

/-- A control core's access to an unmapped address: no effect but its record (R401). -/
def State.coreUnmapped (s : State) (c a : Nat) : State := s.violation 0x13 0x75 (0 :: (leBytes 4 a ++ [BitVec.ofNat 8 (c + 1)]))

/-- CONTROL_CORE_STORE (R6, R348, R401, R402). -/
def execControlCoreStore (dt : Nat) (c : Fin 8) (addr : Word) (v : Word) (s : State) : Host.Outcome State Fault Refusal :=
  let s := s.elapse dt
  ran (if mapped addr.toNat then s.coreWrite c addr.toNat v (fun s => s.storeEffect c addr.toNat v)
    else if s.running then s.coreUnmapped c addr.toNat
    else s)

/-! ### Boundary scan (R357) -/

/-- The instruction that a code shifted in decodes to: with DEBUG_CLOSED burnt, all but the four are BYPASS. -/
def State.jtagDecode (s : State) (i : JtagInstr) : JtagInstr :=
  match i with
  | .other _ => if s.flag F.BT_OTP_CFG_DEBUG_CLOSED then .bypass else i
  | _ => i

/-- What the data register of an instruction captures: IDCODE's word, the zero of BYPASS. -/
def jtagCapture (i : JtagInstr) : Option Word :=
  match i with
  | .idcode => some 0x1098858B
  | .bypass => some 0
  | _ => none

/-- BOUNDARY_SCAN_INSTRUCTION, in every state. -/
def execBoundaryScanInstruction (dt : Nat) (i : JtagInstr) (s : State) : Host.Outcome State Fault Refusal :=
  let s := s.elapse dt
  let j := s.jtagDecode i
  ran { s with jt := ⟨j, jtagCapture j⟩ }

end Sys2Proof.Machine
end

