-- ==== Sys2Proof/Machine/PtpOps.lean ====
section
/-! DEFINITION. PTP messages as the servo receives them: the violations of R48, the Sync that waits for its Follow_Up, Announce and the UTC it carries, the mean link delay, and the answer to a peer-delay request (R38, R47, R48, R396). The layout of the messages is that of IEEE 1588-2019 (log entry 22). -/

namespace Sys2Proof.Machine

/-- The length in bytes a message of a type has at least. -/
def ptpLength (type : Nat) : Nat :=
  match type with
  | 0x0 => 44
  | 0x2 => 54
  | 0x3 => 54
  | 0x8 => 44
  | 0xA => 54
  | 0xB => 64
  | _ => 34

/-- A PTP violation in the ring of the MAC that carries PTP (R48). -/
def State.ptpViol (s : State) (mac code : Nat) (detail : Bytes) : State := s.violation (0x08 + mac) code detail

/-- The pair the servo takes from a Sync received at `rx` whose origin time message m carries: 48-bit seconds and 32-bit ns (R38, R56). -/
def ptpPair (m : Bytes) (rx : Nat) : PtpPair := ⟨beNat (sliceB m 34 6), beNat (sliceB m 40 4), rx⟩

/-- A Sync received at `rx` (R48): one that still waits is dropped first with code 0x42; a one-step Sync is complete by itself. -/
def State.ptpSync (s : State) (mac rx : Nat) (m : Bytes) : State :=
  let log := signedOf 8 (fieldB m 33 1)
  let seqId := beNat (sliceB m 30 2)
  if decide (log < -7) || decide (0 < log) then s.ptpViol mac 0x46 [BitVec.ofNat 8 (fieldB m 33 1)]
  else
    let s := match s.thy.sync with
      | some y => s.ptpViol y.mac 0x42 (leBytes 2 y.seqId)
      | none => s
    let interval := 10 ^ 9 / 2 ^ log.natAbs
    let twoStep := bitOf (fieldB m 6 1) 1
    s.setThy (fun t => { t with sync := if twoStep then some ⟨mac, seqId, interval, s.now, rx⟩ else none, pair := if twoStep then t.pair else some (ptpPair m rx) })

/-- A Follow_Up (R48). -/
def State.ptpFollowUp (s : State) (mac : Nat) (m : Bytes) : State :=
  let seqId := beNat (sliceB m 30 2)
  match s.thy.sync with
  | some y =>
    let s := s.setThy (fun t => { t with sync := none })
    if y.seqId == seqId then s.setThy (fun t => { t with pair := some (ptpPair m y.rx) }) else s.ptpViol mac 0x43 (leBytes 2 y.seqId ++ leBytes 2 seqId)
  | none => s

/-- TB_UTC from an Announce: currentUtcOffset, its valid flag, and the leap flags of the message's flag field (R47). -/
def State.utcCopy (s : State) (m : Bytes) : State :=
  let flags := fieldB m 7 1
  let s := (s.set F.TB_UTC_OFFSET (beNat (sliceB m 44 2))).setFlag F.TB_UTC_VALID (bitOf flags 2)
  (s.setFlag F.TB_UTC_LEAP61 (bitOf flags 0)).setFlag F.TB_UTC_LEAP59 (bitOf flags 1)

/-- An Announce (R38, R47, R48). -/
def State.ptpAnnounce (s : State) (mac : Nat) (m : Bytes) : State :=
  let steps := beNat (sliceB m 61 2)
  if 255 ≤ steps then s.ptpViol mac 0x45 (leBytes 2 steps) else (s.utcCopy m).setThy (fun t => { t with lastAnnounce := some t.counter })

/-- The mean link delay a peer-delay exchange gives (R48 code 0x44). -/
def State.ptpDelay (s : State) (mac : Nat) (d : Option Int) : State :=
  match d with
  | some d =>
    if decide (d < 0) || decide (10000 < d) then s.ptpViol mac 0x44 (leBytes 4 (patternOf 32 (satSigned 32 d)))
    else s.setThy (fun t => { t with linkDelay := d })
  | none => s

/-- A timestamp of MAC m in units of 250 ps, corrected by `ps` for the PHY (R396; the correction is rounded down to 250 ps, log entry 91). -/
def ptpStamp (v : Nat) (ps : Int) : Nat := (((v * 250 : Nat) : Int) + ps).toNat / 250

/-- The MAC's timestamp of an event message received `q` quarter-ns after the counter value (R396). -/
def State.rxStamp (s : State) (m q : Nat) : Nat := ptpStamp (s.edgeValue q 0) (-(s.get (F.EN_M_TS_LAT_RX_PS m) : Int))

/-- The MAC's timestamp of an event message sent `q` quarter-ns after the counter value (R396). -/
def State.txStamp (s : State) (m q : Nat) : Nat := ptpStamp (s.edgeValue q 0) (s.get (F.EN_M_TS_LAT_TX_PS m) : Int)

/-- An event message received is timestamped (R396). -/
def State.keepRx (s : State) (m v : Nat) : State := { s with en := { s.en with rxStamps := setAt s.en.rxStamps m v } }

/-- The port identity of MAC m: its address as an EUI-64, port 1 (log entry 22). -/
def State.ptpIdentity (s : State) (m : Nat) : Bytes :=
  let a := beBytes 6 (s.get64 (F.EN_M_MAC_LO m) (F.EN_M_MAC_HI m))
  a.take 3 ++ [0xFF, 0xFE] ++ a.drop 3 ++ [0, 1]

/-- A peer-delay answer of MAC m to request `r`, with its Ethernet header (log entry 22): its type and flags, and the time it carries, whose quarter-ns stand in the correction field. -/
def State.pdelayFrame (s : State) (m : Nat) (r : Bytes) (type flags time : Nat) : Bytes :=
  [0x01, 0x80, 0xC2, 0x00, 0x00, 0x0E] ++ beBytes 6 (s.get64 (F.EN_M_MAC_LO m) (F.EN_M_MAC_HI m)) ++ [0x88, 0xF7] ++
    [BitVec.ofNat 8 (0x10 + type), 0x02] ++ beBytes 2 54 ++ [BitVec.ofNat 8 (s.get F.TB_CFG_DOMAIN), 0] ++ beBytes 2 flags ++ beBytes 8 (time % 4 * 2 ^ 14) ++
    zerosB 4 ++ s.ptpIdentity m ++ sliceB r 30 2 ++ [0x05, 0x7F] ++ beBytes 6 (time / 4 / 10 ^ 9) ++ beBytes 4 (time / 4 % 10 ^ 9) ++ sliceB r 20 10

/-- A peer-delay request received at `rx` is answered (R38): a response with its receive time, and a follow-up with the response's transmit time, a free while later (log entry 91). -/
def State.ptpAnswer (s : State) (m rx : Nat) (r : Bytes) : State :=
  let tx := s.txStamp m (Config.pdelayTurn s.freeCtr)
  let out := [(m, s.pdelayFrame m r 0xA 0 tx), (m, s.pdelayFrame m r 0x3 0x0200 rx)]
  ({ s with en := { s.en with txStamps := setAt s.en.txStamps m tx, pdelay := out ++ s.en.pdelay } }).nextFree

/-- A gPTP message on the active port (R38, R48); `hwTs` tells that it carries a hardware timestamp, `rx` is that timestamp. -/
def State.ptpMessage (s : State) (mac : Nat) (m : Bytes) (hwTs : Bool) (rx : Nat) (delay : Option Int) : State :=
  let type := fieldB m 0 1 % 16
  let len := beNat (sliceB m 2 2)
  if decide (m.length < ptpLength type) || decide (len < ptpLength type) || fieldB m 1 1 % 16 != 2 then
    s.ptpViol mac 0x40 (BitVec.ofNat 8 type :: leBytes 2 len)
  else if fieldB m 4 1 != s.get F.TB_CFG_DOMAIN then s.ptpViol mac 0x41 [BitVec.ofNat 8 (fieldB m 4 1)]
  else if decide (type < 8) && !hwTs then s.ptpViol mac 0x47 (BitVec.ofNat 8 type :: leBytes 2 (beNat (sliceB m 30 2)))
  else match type with
    | 0x0 => s.ptpSync mac rx m
    | 0x2 => s.ptpAnswer mac rx m
    | 0x8 => s.ptpFollowUp mac m
    | 0xB => s.ptpAnnounce mac m
    | 0x3 => s.ptpDelay mac delay
    | 0xA => s.ptpDelay mac delay
    | _ => s

end Sys2Proof.Machine
end

