-- ==== Sys2Proof/Machine/Ethernet.lean ====
section
/-! DEFINITION. The commands of the Ethernet MACs: received frames, gate lists, the link (R64, R395 to R398). -/

namespace Sys2Proof.Machine

/-- A frame dropped without a record (R395). -/
def State.rxDrop (s : State) (m : Nat) : State := s.incWrap (F.EN_M_RX_DROP m)

/-- The MAC carries PTP: the configured MAC or the alternate (R38). -/
def State.isPtpMac (s : State) (m : Nat) : Bool := s.get F.TB_CFG_PTP_MAC == m || (s.flag F.TB_CFG_ALT_EN && s.get F.TB_CFG_ALT_MAC == m)

/-- A frame's Ethertype and payload past an 802.1Q tag. -/
def etherBody (f : Bytes) : Nat × Bytes :=
  let t := beNat (sliceB f 12 2)
  if t == 0x8100 then (beNat (sliceB f 16 2), f.drop 18) else (t, f.drop 14)

/-- The reply to an ARP request for this MAC's address, padded to 60 bytes, with its FCS. -/
def State.arpReply (s : State) (m : Nat) (body : Bytes) : Bytes :=
  let own := beBytes 6 (s.get64 (F.EN_M_MAC_LO m) (F.EN_M_MAC_HI m))
  let f := sliceB body 8 6 ++ own ++ [0x08, 0x06, 0x00, 0x01, 0x08, 0x00, 0x06, 0x04, 0x00, 0x02] ++ own ++ beBytes 4 (s.get (F.EN_M_IP m)) ++
    sliceB body 8 10 ++ zerosB 18
  f ++ leBytes 4 (crc32 f)

/-- An ARP frame (R395). -/
def State.arpFrame (s : State) (m : Nat) (body : Bytes) : State :=
  if beNat (sliceB body 6 2) == 1 && beNat (sliceB body 24 4) == s.get (F.EN_M_IP m) then
    { s with en := { s.en with arp := (m, s.arpReply m body) :: s.en.arp } }
  else s.rxDrop m

/-- The scanner stream a datagram serves (R60, R64). -/
def State.scannerStream (s : State) (m port srcIp : Nat) : Option Nat :=
  (List.range 48).find? (fun n => s.flag (F.IG_SCFG_EN n) && s.kindOf n == 2 && s.get (F.IG_SCFG_PORT n) % 4 == m &&
    s.get (igKind n 0) % 65536 == port && (s.get (igKind n 1) == 0 || s.get (igKind n 1) == srcIp))

/-- A violation of a datagram to a scanner port: recorded, and the stream's open block truncated (R83 codes 0x20, 0x21). -/
def State.gramViol (s : State) (m n code : Nat) (detail : Bytes) : State :=
  if (s.stream n).ovrPend then s else (s.streamViolation (0x08 + m) code detail n).truncateOpen n

/-- A UDP datagram to this MAC's address: `ip` begins at the IPv4 header, of `hl` bytes (R61, R64, R83). -/
def State.udpFrame (s : State) (m : Nat) (ip : Bytes) (hl : Nat) : State :=
  let srcIp := beNat (sliceB ip 12 4)
  let frag := beNat (sliceB ip 6 2)
  let u := ip.drop hl
  let port := beNat (sliceB u 2 2)
  let len := beNat (sliceB u 4 2)
  if !s.flag (F.EN_M_CFG_ROLE_IN m) || frag % 2 ^ 13 != 0 then s.rxDrop m
  else match s.scannerStream m port srcIp with
    | none => s.rxDrop m
    | some n =>
      if bitOf frag 13 then s.gramViol m n 0x20 (leBytes 4 srcIp)
      else
        let data := sliceB u 8 (len - 8)
        let head := sliceB ip 12 8 ++ [0, 17] ++ sliceB u 4 2
        let good := beNat (sliceB u 6 2) == 0 || foldSum (onesSum (head ++ sliceB u 0 8 ++ data) 0) == 65535
        if decide (len < 8) || decide (u.length < len) || !good then s.gramViol m n 0x21 (leBytes 2 port ++ leBytes 2 len)
        else s.scanGram n data

/-- An IPv4 packet (R395, R398 code 0x2A). -/
def State.ipFrame (s : State) (m : Nat) (ip : Bytes) : State :=
  let hl := 4 * (fieldB ip 0 1 % 16)
  let badHead := fieldB ip 0 1 / 16 != 4 || decide (hl < 20) || foldSum (onesSum (sliceB ip 0 hl) 0) != 65535
  if badHead then s.violation (0x08 + m) 0x2A (leBytes 4 (beNat (sliceB ip 12 4)))
  else if fieldB ip 9 1 == 17 && beNat (sliceB ip 16 4) == s.get (F.EN_M_IP m) then s.udpFrame m ip hl
  else s.rxDrop m

/-- A gPTP frame on a PTP MAC (R38, R395, R396): an event message is timestamped; the servo takes what comes on the active port. -/
def State.ptpFrame (s : State) (m : Nat) (body : Bytes) (hwTs : Bool) (q : Nat) (delay : Option Int) : State :=
  let v := s.rxStamp m q
  let s := if hwTs && decide (fieldB body 0 1 % 16 < 4) then s.keepRx m v else s
  if s.ptpMac == m then s.ptpMessage m body hwTs v delay else s

/-- A frame past its length and FCS checks (R395); it came `q` quarter-ns after the counter value. -/
def State.goodFrame (s : State) (m : Nat) (f : Bytes) (hwTs : Bool) (q : Nat) (delay : Option Int) : State :=
  let (type, body) := etherBody f
  match type with
  | 0x0800 => s.ipFrame m body
  | 0x0806 => s.arpFrame m body
  | 0x88F7 => if s.isPtpMac m then s.ptpFrame m body hwTs q delay else s.rxDrop m
  | _ => s.rxDrop m

/-- ETH_FRAME_RECEIVE (R395, R396, R398): a frame with its FCS, on an enabled MAC of a part in run state. -/
def execEthFrameReceive (dt : Nat) (mac : Fin 4) (frame : Bytes) (hwTs : Bool) (linkDelay : Option Int) (q : Fin 8) (s : State) :
    Host.Outcome State Fault Refusal :=
  let s := s.elapse dt
  let m := mac.val
  let len := frame.length
  if !s.running || !s.flag (F.EN_M_CFG_EN m) || !bitOf (s.get F.EN_STATUS) m then ran s
  else if decide (len < 64) || decide (9018 < len) then ran (s.violation (0x08 + m) 0x29 (leBytes 2 len))
  else if fieldB frame (len - 4) 4 != crc32 (frame.take (len - 4)) then
    ran ((s.incSat (F.EN_M_FCS_ERR m)).violation (0x08 + m) 0x28 (leBytes 2 len))
  else ran (s.goodFrame m frame hwTs q.val linkDelay)

/-- GATE_INTERVAL_EXPIRY (R397): the entry device time has reached applies. -/
def execGateIntervalExpiry (dt : Nat) (mac : Fin 4) (s : State) : Host.Outcome State Fault Refusal :=
  let s := s.elapse dt
  ran (if s.get (F.EN_M_GCL mac.val) == 0 then s
    else { s with en := { s.en with gates := setAt s.en.gates mac.val (s.gateNow mac.val).1 } })

/-- ETH_LINK_CHANGE (R124, R292, R398): EN_STATUS, the status source, and on loss the record 0x2B, event 0x1B0 and the datagrams that cannot leave. -/
def execEthLinkChange (dt : Nat) (mac : Fin 4) (up : Bool) (lanes : Byte) (s : State) : Host.Outcome State Fault Refusal :=
  let s := s.elapse dt
  let m := mac.val
  if bitOf (s.get F.EN_STATUS) m == up then ran s
  else
    let s := (s.set F.EN_STATUS (putBit (s.get F.EN_STATUS) m up)).statusSource (0x27 + m) up
    if up then ran s
    else ran (((s.violation (0x08 + m) 0x2B [lanes]).raise 0x1B0).advanceEmission true).parkCheck

end Sys2Proof.Machine
end

