-- ==== Sys2Proof/Machine/Fusion.lean ====
section
/-! DEFINITION. The commands of fusion and results: take-ups, starts, seals, votes, emission (R85 to R127). -/

namespace Sys2Proof.Machine

/-- PACKET_TAKE_UP (R67, R91, R92, R95, R101). -/
def execPacketTakeUp (dt : Nat) (stream : Fin 48) (upset : Bool) (s : State) : Host.Outcome State Fault Refusal :=
  let s := s.elapse dt
  ran (if s.fusionOn then s.takePacket stream.val upset else s)

/-- RESULT_SET_START (R86). -/
def execResultSetStart (dt : Nat) (rs : Fin 4) (s : State) : Host.Outcome State Fault Refusal :=
  ran ((s.elapse dt).tryStart rs.val)

/-- START_WAIT_TIMEOUT (R45): the hold has lasted START_TIMEOUT on the counter, and the waiting sets start. -/
def execStartWaitTimeout (dt : Nat) (s : State) : Host.Outcome State Fault Refusal :=
  let s := s.elapse dt
  match s.thy.holdStart with
  | some c =>
    if s.startHeld && decide (s.get F.TB_CFG_START_TIMEOUT * 10 ^ 9 ≤ (s.thy.counter + 2 ^ 64 - c) % 2 ^ 64) then
      ran ((List.range 4).foldl State.tryStart { s with thy := { s.thy with holdOver := true } })
    else ran s
  | none => ran s

/-- WATERMARK_SEAL (R94): the Open result seals with SEAL = 0 when every stream and the trajectory are past its mark. -/
def execWatermarkSeal (dt : Nat) (test : SealTest) (s : State) : Host.Outcome State Fault Refusal :=
  let s := s.elapse dt
  ran (if s.fusionOn && s.watermarkReady test.rs.val (s.fuSet test.rs.val).k then (s.sealTest test.rs.val test.ue).parkCheck else s)

/-- DEADLINE_SEAL (R94, R98, R103): device time has reached t_k + H. -/
def execDeadlineSeal (dt : Nat) (test : SealTest) (s : State) : Host.Outcome State Fault Refusal :=
  let s := s.elapse dt
  ran (if s.fusionOn && decide (s.instant test.rs.val (s.fuSet test.rs.val).k + s.get (F.FU_RS_H test.rs.val) ≤ s.now) then (s.sealTest test.rs.val test.ue).parkCheck else s)

/-- RESULT_VOTE (R112 to R126). -/
def execResultVote (dt : Nat) (rs : Fin 4) (s : State) : Host.Outcome State Fault Refusal :=
  let s := s.elapse dt
  ran (if s.fusionOn then (s.tryVote rs.val).parkCheck else s)

/-- EGRESS_QUEUE_ROOM (R397): frames left the queue of a MAC, and a stalled emission resumes. -/
def execEgressQueueRoom (dt : Nat) (mac : Fin 4) (sent : Nat) (s : State) : Host.Outcome State Fault Refusal :=
  ran ((((s.elapse dt).transmit mac.val sent).advanceEmission true).parkCheck)

/-- SLOT_OVERWRITE_AFTER_READ (R383): the host read of the slot has ended, and the emission that waited overwrites it. -/
def execSlotOverwriteAfterRead (dt : Nat) (rs : Fin 4) (slot : Fin 4096) (s : State) : Host.Outcome State Fault Refusal :=
  let s := s.elapse dt
  if s.hp.reading == some (rs.val, slot.val) then
    ran ((({ s with hp := { s.hp with reading := none } }).advanceEmission false).parkCheck)
  else ran s

end Sys2Proof.Machine
end

