-- ==== Sys2Proof/Machine/Ingress.lean ====
section
/-! DEFINITION. The commands of sensor ingress: cameras, encoders, IMUs, CAN FD, the packet timer and the overrun close (R60 to R80). -/

namespace Sys2Proof.Machine

/-! ### Cameras (R62, R63) -/

/-- The enabled stream of lowest number for which `p` holds (R60). -/
def State.findStream (s : State) (p : Nat → Bool) : Option Nat :=
  (List.range 48).find? (fun n => s.flag (F.IG_SCFG_EN n) && p n)

/-- Stream n is a camera stream on a port and virtual channel. -/
def State.cameraOn (s : State) (port vc n : Nat) : Bool :=
  decide (s.kindOf n ≤ 1) && s.get (F.IG_SCFG_PORT n) == port && s.get (F.IG_SCFG_VC n) == vc

/-- The stream a short packet serves (R60, R62). -/
def State.shortStream (s : State) (port vc : Nat) : Option Nat := s.findStream (s.cameraOn port vc)

/-- The stream an image line serves (R60). -/
def State.lineStream (s : State) (port vc dtype : Nat) : Option Nat :=
  s.findStream (fun n => s.cameraOn port vc n && s.get (F.IG_SCFG_DT n) == dtype)

/-- A CSI-2 packet no stream takes: code 0x12 (R61, R83). -/
def State.csiUnmatched (s : State) (port vc dtype wc : Nat) : State :=
  s.violation port 0x12 ([BitVec.ofNat 8 vc, BitVec.ofNat 8 dtype] ++ leBytes 2 wc)

/-- The part is in run state and port `port` is enabled (R62). -/
def State.csiOn (s : State) (port : Nat) : Bool := s.running && s.flag (F.IG_CSI_CFG_EN port)

/-- A header corrected by ECC is counted (R62). -/
def State.csiCorrected (s : State) (port : Nat) (corrected : Bool) : State := if corrected then s.incSat (F.IG_CSI_ECC_CORR port) else s

/-- Data outside a frame or line, or a line end without a line start: code 0x15, unless the stream resynchronises anyway (R73, R83). -/
def State.csiOutside (s : State) (n dtype bytes : Nat) : State :=
  if (s.stream n).ovrPend then s.lose n bytes
  else if s.inResync n then s.discard n bytes
  else s.streamViol n 0x15 [BitVec.ofNat 8 dtype]

/-- The frame of an area camera opens (R63). -/
def State.openFrame (s : State) (n fnum : Nat) (src : StampSource) : State :=
  let (s, ok) := s.openPacket n 1 0
  if ok then
    s.setStream n { s.stream n with frameOpen := true, fnum := fnum, frameLines := 0, frameSrc := some src, frameStamp := none,
                                    latCrc := 0xFFFFFFFF, wholeCrc := 0xFFFFFFFF, embedded := none }
  else s

/-- CSI_FRAME_START (R63, R73, code 0x13). -/
def execCsiFrameStart (dt : Nat) (port : Fin 8) (head : CsiHead) (fnum : BitVec 16) (ts : Option (BitVec 64)) (lock : Bool) (s : State) :
    Host.Outcome State Fault Refusal :=
  let s := s.elapse dt
  if !s.csiOn port.val then ran s
  else
    let s := s.csiCorrected port.val head.corrected
    match s.shortStream port.val head.vc.val with
    | none => ran (s.csiUnmatched port.val head.vc.val 0x00 fnum.toNat)
    | some n =>
      if s.kindOf n != 0 || (s.stream n).ovrPend then ran s
      else
        let s := if (s.stream n).frameOpen then s.truncate n 0x13 (leBytes 2 (s.stream n).frameLines) else s
        ran (s.openFrame n fnum.toNat ⟨ts.map (fun v => v.toNat), some lock, s.now⟩)

/-- CSI_FRAME_END (R63, R76): the open band closes as the frame's last; outside a frame it is recorded with code 0x15. -/
def execCsiFrameEnd (dt : Nat) (port : Fin 8) (head : CsiHead) (fnum : BitVec 16) (s : State) : Host.Outcome State Fault Refusal :=
  let s := s.elapse dt
  if !s.csiOn port.val then ran s
  else
    let s := s.csiCorrected port.val head.corrected
    match s.shortStream port.val head.vc.val with
    | none => ran (s.csiUnmatched port.val head.vc.val 0x01 fnum.toNat)
    | some n =>
      if s.kindOf n != 0 || (s.stream n).ovrPend then ran s
      else if (s.stream n).frameOpen then
        let s := s.closeBand n true
        ran (s.setStream n { s.stream n with frameOpen := false })
      else ran (s.csiOutside n 0x01 0)

/-- CSI_LINE_START (R63, R73, code 0x13 on a line-scan stream). -/
def execCsiLineStart (dt : Nat) (port : Fin 8) (head : CsiHead) (ts : Option (BitVec 64)) (lock : Bool) (s : State) :
    Host.Outcome State Fault Refusal :=
  let s := s.elapse dt
  if !s.csiOn port.val then ran s
  else
    let s := s.csiCorrected port.val head.corrected
    match s.shortStream port.val head.vc.val with
    | none => ran (s.csiUnmatched port.val head.vc.val 0x02 0)
    | some n =>
      if (s.stream n).ovrPend then ran s
      else if s.kindOf n == 0 then ran (s.setStream n { s.stream n with lineOpen := true })
      else
        let stored := match (s.stream n).open_ with
          | some p => p.lines
          | none => 0
        let s := if (s.stream n).lineOpen then s.truncate n 0x13 (leBytes 2 stored) else s
        let (s, ok) := match (s.stream n).open_ with
          | some _ => (s, true)
          | none => s.openPacket n 0 0
        if ok then
          let x := s.stream n
          match x.open_ with
          | some p =>
            ran (s.setStream n { x with lineOpen := true, open_ := some { p with stamps := p.stamps ++ [⟨ts.map (fun v => v.toNat), some lock, s.now⟩] } })
          | none => ran s
        else ran s

/-- CSI_LINE_END (R63): a line-scan band closes when it holds UNITS lines. -/
def execCsiLineEnd (dt : Nat) (port : Fin 8) (head : CsiHead) (s : State) : Host.Outcome State Fault Refusal :=
  let s := s.elapse dt
  if !s.csiOn port.val then ran s
  else
    let s := s.csiCorrected port.val head.corrected
    match s.shortStream port.val head.vc.val with
    | none => ran (s.csiUnmatched port.val head.vc.val 0x03 0)
    | some n =>
      let x := s.stream n
      if x.ovrPend then ran s
      else if !x.lineOpen then ran (s.csiOutside n 0x03 0)
      else
        let s := s.setStream n { x with lineOpen := false }
        match s.kindOf n, x.open_ with
        | 1, some p =>
          let s := s.setStream n { s.stream n with open_ := some { p with lines := p.lines + 1, count := p.count + 1 } }
          ran (if s.unitsOf n ≤ p.lines + 1 then s.closeLines n else s)
        | _, _ => ran s

/-- The pixels of a line as the data type packs them (R62, R76): RAW8, RAW10, RAW12, RAW14, and one pixel per YUV422 byte. -/
def pixelsOf (dtype : Nat) : Nat → Bytes → List Nat
  | 0, _ => []
  | k + 1, bs =>
    let b := fun i => fieldB bs i 1
    match dtype with
    | 0x2B =>
      if 5 ≤ bs.length then
        [b 0 * 4 + bitsOf (b 4) 0 2, b 1 * 4 + bitsOf (b 4) 2 2, b 2 * 4 + bitsOf (b 4) 4 2, b 3 * 4 + bitsOf (b 4) 6 2] ++ pixelsOf dtype k (bs.drop 5)
      else []
    | 0x2C =>
      if 3 ≤ bs.length then [b 0 * 16 + bitsOf (b 2) 0 4, b 1 * 16 + bitsOf (b 2) 4 4] ++ pixelsOf dtype k (bs.drop 3) else []
    | 0x2D =>
      if 7 ≤ bs.length then
        let low := fieldB bs 4 3
        [b 0 * 64 + bitsOf low 0 6, b 1 * 64 + bitsOf low 6 6, b 2 * 64 + bitsOf low 12 6, b 3 * 64 + bitsOf low 18 6] ++ pixelsOf dtype k (bs.drop 7)
      else []
    | _ =>
      match bs with
      | c :: cs => c.toNat :: pixelsOf dtype k cs
      | [] => []

/-- Every `step`-th entry of a list, counting `i` down to the next taken. -/
def everyNth (step : Nat) : Nat → List Nat → List Nat
  | _, [] => []
  | 0, x :: xs => x :: everyNth step (step - 1) xs
  | i + 1, _ :: xs => everyNth step i xs

/-- The CRC registers of a frame after a stored line (R76). Neither stride has a range check: LAT_X = 0 takes every pixel and LAT_Y = 0 line 0 alone (DESIGN CHOICE, log entry 103). -/
def State.signLine (s : State) (n dtype : Nat) (data : Bytes) : State :=
  let x := s.stream n
  let onLattice := x.frameLines % s.get (F.IG_FRZ_CFG_LAT_Y n) == 0
  let px := everyNth (s.get (F.IG_FRZ_CFG_LAT_X n)) 0 (pixelsOf dtype data.length data)
  let lat := if onLattice then crcR 0x82F63B78 x.latCrc (px.flatMap (fun p => leBytes 2 p)) else x.latCrc
  s.setStream n { x with latCrc := lat, wholeCrc := crcR 0x82F63B78 x.wholeCrc data, frameLines := x.frameLines + 1 }

/-- The CSI-2 payload CRC-16 (R62; the standard's polynomial and start value). -/
def csiCrc (data : Bytes) : Nat := crcR 0x8408 0xFFFF data

/-- The lines the open packet stores. -/
def State.linesStored (s : State) (n : Nat) : Nat :=
  match (s.stream n).open_ with
  | some p => p.lines
  | none => 0

/-- The image line number of codes 0x11 and 0x14: within the frame, or within the band of a line-scan camera. -/
def State.lineNumber (s : State) (n : Nat) : Nat := if s.kindOf n == 0 then (s.stream n).frameLines else s.linesStored n

/-- An image line that passed its checks is stored (R63): a full band of an area camera closes first. -/
def State.storeLine (s : State) (n dtype : Nat) (data : Bytes) : State :=
  if s.kindOf n == 0 then
    let full := decide (s.unitsOf n ≤ s.linesStored n)
    let (s, ok) := if full then (s.closeBand n false).openPacket n 0 data.length else (s, true)
    if !ok then s
    else
      let (s, w) := s.writePacket n data false
      match w, (s.stream n).open_ with
      | .stored, some p =>
        let s := s.setStream n { s.stream n with open_ := some { p with lines := p.lines + 1, count := 1 } }
        s.signLine n dtype data
      | _, _ => s
  else (s.writePacket n data false).1

/-- CSI_LONG_PACKET (R62, R63, codes 0x11, 0x12, 0x14, 0x15): an image line of `wc` bytes. -/
def execCsiLongPacket (dt : Nat) (port : Fin 8) (vc : Fin 16) (dtype : BitVec 6) (wc : BitVec 16) (data : Bytes) (crc : BitVec 16) (corrected : Bool)
    (s : State) : Host.Outcome State Fault Refusal :=
  let s := s.elapse dt
  if !s.csiOn port.val then ran s
  else
    let s := s.csiCorrected port.val corrected
    let line := sliceB data 0 wc.toNat
    match s.lineStream port.val vc.val dtype.toNat with
    | none => ran (s.csiUnmatched port.val vc.val dtype.toNat wc.toNat)
    | some n =>
      let x := s.stream n
      if x.ovrPend then ran (s.lose n wc.toNat)
      else if !(if s.kindOf n == 0 then x.frameOpen else x.lineOpen) then ran (s.csiOutside n dtype.toNat wc.toNat)
      else if csiCrc line != crc.toNat then ran (s.truncate n 0x11 (leBytes 2 (s.lineNumber n) ++ leBytes 2 crc.toNat))
      else if wc.toNat != s.get (F.IG_PKT_SHAPE_LINE_BYTES n) then ran (s.truncate n 0x14 (leBytes 2 (s.lineNumber n) ++ leBytes 2 wc.toNat))
      else ran (s.storeLine n dtype.toNat line)

/-- CSI_EMBEDDED_DATA (R63, R78): into the frame's first band ahead of its image lines; later it is dropped with code 0x15. -/
def execCsiEmbeddedData (dt : Nat) (port : Fin 8) (vc : Fin 16) (wc : BitVec 16) (data : Bytes) (crc : BitVec 16) (corrected : Bool)
    (s : State) : Host.Outcome State Fault Refusal :=
  let s := s.elapse dt
  if !s.csiOn port.val then ran s
  else
    let s := s.csiCorrected port.val corrected
    let line := sliceB data 0 wc.toNat
    match s.findStream (fun n => s.kindOf n == 0 && s.cameraOn port.val vc.val n) with
    | none => ran (s.csiUnmatched port.val vc.val 0x12 wc.toNat)
    | some n =>
      let x := s.stream n
      if x.ovrPend then ran (s.lose n wc.toNat)
      else if !x.frameOpen then ran (s.csiOutside n 0x12 wc.toNat)
      else if csiCrc line != crc.toNat then ran (s.truncate n 0x11 (leBytes 2 x.frameLines ++ leBytes 2 crc.toNat))
      else if 0 < x.frameLines then ran (s.streamViol n 0x15 [0x12])
      else
        let (s, w) := s.writePacket n line false
        ran (match w with
          | .stored => s.setStream n { s.stream n with embedded := some (x.embedded.getD line) }
          | .lost => s)

/-- Every camera packet open on a port is truncated (R83, codes 0x10 and 0x16); each counts in its own stream. -/
def State.truncatePort (s : State) (port : Nat) : Nat → State
  | 0 => s
  | n + 1 =>
    let s := s.truncatePort port n
    if s.flag (F.IG_SCFG_EN n) && decide (s.kindOf n ≤ 1) && s.get (F.IG_SCFG_PORT n) == port then s.truncate n 0 [] else s

/-- CSI_HEADER_ECC_ERROR (code 0x10). -/
def execCsiHeaderEccError (dt : Nat) (port : Fin 8) (header : Word) (s : State) : Host.Outcome State Fault Refusal :=
  let s := s.elapse dt
  ran (if s.csiOn port.val then
    (((s.incSat (F.IG_CSI_ECC_UNCORR port.val)).violation port.val 0x10 (leBytes 4 header.toNat)).truncatePort port.val 48) else s)

/-- CSI_SOT_SYNC_ERROR (code 0x16). -/
def execCsiSotSyncError (dt : Nat) (port : Fin 8) (lanes : Byte) (s : State) : Host.Outcome State Fault Refusal :=
  let s := s.elapse dt
  ran (if s.csiOn port.val then (s.violation port.val 0x16 [lanes]).truncatePort port.val 48 else s)

/-! ### Encoders (R65) -/

/-- The stream an encoder input serves. -/
def State.encoderStream (s : State) (input : Nat) : Option Nat :=
  s.findStream (fun n => s.kindOf n == 3 && s.get (F.IG_SCFG_PORT n) == input)

/-- The sense of a quadrature transition: 1 up (A leads B), 0 down; none when it is illegal (R65). -/
def quadrature (a0 b0 a1 b1 : Bool) : Option Bool :=
  if (a0 == a1) == (b0 == b1) then none
  else if a0 != a1 then some (a1 != b1)
  else some (a1 == b1)

/-- An encoder record (R65). -/
def encoderRecord (t4 : Nat) (up a b : Bool) (count : Nat) : Bytes :=
  leBytes 8 (t4 / 4) ++ [BitVec.ofNat 8 (t4 % 4 + 4 * b2n up + 8 * b2n a + 16 * b2n b)] ++ zerosB 3 ++ leBytes 4 count

/-- A counted edge: the count moves and the stream takes a record (R65). -/
def State.encoderCount (s : State) (input : Nat) (n : Option Nat) (up a b : Bool) (q : Nat) : State :=
  let rises := up != s.flag (F.IO_ENC_CFG_INVERT input)
  let c := patternOf 32 (s.getI (F.IO_ENC_COUNT input) + (if rises then 1 else -1))
  let s := s.set (F.IO_ENC_COUNT input) c
  let t4 := s.edgeValue q (10 * s.get (F.IO_ENC_CFG_FILT input))
  match n with
  | some n => s.putRecord n (t4 / 4) (encoderRecord t4 rises a b c)
  | none => s

/-- ENCODER_EDGE (R65, code 0x60): the phase levels after a transition that the input's glitch filter passes (R244); the standstill of R43 ends. -/
def execEncoderEdge (dt : Nat) (input : Fin 12) (a b : Bool) (edge : PinEdge) (s : State) : Host.Outcome State Fault Refusal :=
  let s := s.elapse dt
  if !s.running || !filterPasses (s.get (F.IO_ENC_CFG_FILT input.val)) edge.held then ran s
  else
    let (a0, b0) := s.ig.phases.getD input.val (false, false)
    let s := { s with ig := { s.ig with phases := setAt s.ig.phases input.val (a, b) } }
    let s := s.setThy (fun t => { t with wheelEdge := setAt t.wheelEdge input.val s.now })
    let s := if bitOf (s.get F.TB_STILL_MASK) input.val then s.set F.TB_STATUS_STILL 0 else s
    let s := s.statusSource (0x010 + input.val) a
    let n := s.encoderStream input.val
    let single := match n with
      | some n => bitOf (s.get (igKind n 0)) 0
      | none => false
    if single then ran (if a && !a0 then s.encoderCount input.val n true a false edge.q.val else s)
    else if a == a0 && b == b0 then ran s
    else
      match quadrature a0 b0 a b with
      | some up => ran (s.encoderCount input.val n up a b edge.q.val)
      | none =>
        let s := s.incSat (F.IO_ENC_ILLEGAL input.val)
        ran (match n with
          | some n => s.streamViol n 0x60 [BitVec.ofNat 8 (b2n a0 + 2 * b2n b0 + 4 * b2n a + 8 * b2n b)]
          | none => s)

/-! ### IMUs (R65) -/

/-- The stream an SPI controller serves. -/
def State.imuStream (s : State) (spi : Nat) : Option Nat :=
  s.findStream (fun n => s.kindOf n == 4 && s.get (F.IG_SCFG_PORT n) == spi)

/-- The read in progress of an SPI controller set. -/
def State.setImu (s : State) (spi : Nat) (t : Option Nat) : State := { s with ig := { s.ig with imu := setAt s.ig.imu spi t } }

/-- IMU_DATA_READY (R65, code 0x50): the read starts with the command byte; one during a read drops the new reading. -/
def execImuDataReady (dt : Nat) (spi : Fin 4) (s : State) : Host.Outcome State Fault Refusal :=
  let s := s.elapse dt
  match s.running, s.imuStream spi.val with
  | true, some n =>
    match s.ig.imu.getD spi.val none with
    | some _ => ran (s.streamViol n 0x50 [])
    | none =>
      let s := s.setImu spi.val (some s.now)
      ran { s with ig := { s.ig with spi := setAt s.ig.spi spi.val (some (bitsOf (s.get (igKind n 0)) 24 8)) } }
  | _, _ => ran s

/-- Zero bytes up to the next multiple of `k`. -/
def padTo (k : Nat) (bs : Bytes) : Bytes := bs ++ zerosB ((k - bs.length % k) % k)

/-- An IMU record (R65). -/
def imuRecord (t : Nat) (data : Bytes) : Bytes := leBytes 8 t ++ [BitVec.ofNat 8 data.length] ++ zerosB 7 ++ padTo 8 data

/-- IMU_READ_COMPLETE (R65, R67, code 0x51): the bytes read become a record unless the sensor's CRC-8 fails. -/
def execImuReadComplete (dt : Nat) (spi : Fin 4) (data : Bytes) (s : State) : Host.Outcome State Fault Refusal :=
  let s := s.elapse dt
  match s.running, s.imuStream spi.val, s.ig.imu.getD spi.val none with
  | true, some n, some t =>
    let s := s.setImu spi.val none
    let k0 := s.get (igKind n 0)
    let k1 := s.get (igKind n 1)
    let raw := sliceB data 0 (bitsOf k0 16 7)
    let pos := bitsOf k1 16 6
    let received := fieldB raw pos 1
    let computed := crcN 8 (bitsOf k1 0 8) (bitsOf k1 8 8) (raw.take pos)
    if bitOf k0 23 && received != computed then ran (s.streamViol n 0x51 [BitVec.ofNat 8 received, BitVec.ofNat 8 computed])
    else ran (s.putRecord n t (imuRecord t raw))
  | _, _, _ => ran s

/-! ### CAN FD (R65, R245) -/

/-- Bytes a DLC stands for: 0 to 8, then 12, 16, 20, 24, 32, 48, 64 in an FD frame (ISO 11898-1). -/
def dlcBytes (fdf : Bool) (dlc : Nat) : Nat :=
  if dlc ≤ 8 then dlc
  else if !fdf then 8
  else match dlc with
    | 9 => 12
    | 10 => 16
    | 11 => 20
    | 12 => 24
    | 13 => 32
    | 14 => 48
    | _ => 64

/-- A CAN record of 80 bytes (R65). -/
def canRecord (t : Nat) (f : CanFrame) : Bytes :=
  leBytes 8 t ++ leBytes 4 (f.ident.toNat + 2 ^ 29 * b2n f.ide + 2 ^ 30 * b2n f.fdf + 2 ^ 31 * b2n f.brs) ++
    [BitVec.ofNat 8 (b2n f.esi), BitVec.ofNat 8 f.dlc.val, 0, 0] ++ sliceB (f.data.take (dlcBytes f.fdf f.dlc.val)) 0 64

/-- The stream whose filter takes a frame (R84, kind 5): identifier and IDE under the mask. -/
def State.canStream (s : State) (ctrl : Nat) (f : CanFrame) : Option Nat :=
  s.findStream (fun n =>
    let k := s.get (igKind n 0)
    let mask := bitsOf (s.get (igKind n 1)) 0 29
    s.kindOf n == 5 && s.get (F.IG_SCFG_PORT n) == ctrl && bitOf k 29 == f.ide &&
      Nat.land (bitsOf k 0 29) mask == Nat.land f.ident.toNat mask)

/-- A controller drives its bus; with LISTEN it sends neither an acknowledge nor an error frame (R245). -/
def State.canDrive (s : State) (c : Nat) (x : CanDrive) : State :=
  { s with io := { s.io with can := setAt s.io.can c (if s.flag (F.IO_CAN_CTRL_LISTEN c) then .none else x) } }

/-- CAN_FRAME_RECEIVE (R65, R245, code 0x5A): a frame with an error is answered by an error frame and not received, an FD frame that FD_EN = 0 bars by the protocol exception, any other acknowledged and filtered. -/
def execCanFrameReceive (dt : Nat) (ctrl : Fin 2) (frame : CanFrame) (s : State) : Host.Outcome State Fault Refusal :=
  let s := s.elapse dt
  if !s.running || !s.flag (F.IO_CAN_CTRL_EN ctrl.val) || s.get (F.IO_CAN_STAT_STATE ctrl.val) == 2 then ran s
  else if frame.fdf && (frame.res || !s.flag (F.IO_CAN_CTRL_FD_EN ctrl.val)) then
    ran ((s.canDrive ctrl.val .none).violation (0x10 + ctrl.val) 0x5A (leBytes 4 frame.ident.toNat))
  else if frame.faulty then ran (s.canDrive ctrl.val .errorFrame)
  else
    let s := s.canDrive ctrl.val .acknowledge
    match s.canStream ctrl.val frame with
    | some n => ran (s.putRecord n s.now (canRecord s.now frame))
    | none => ran (s.incWrap (F.IO_CAN_UNMATCHED ctrl.val))

/-- CAN_ERROR_PASSIVE (R83, code 0x58). -/
def execCanErrorPassive (dt : Nat) (ctrl : Fin 2) (tec rec : Byte) (s : State) : Host.Outcome State Fault Refusal :=
  let s := s.elapse dt
  if s.running && s.flag (F.IO_CAN_CTRL_EN ctrl.val) && s.get (F.IO_CAN_STAT_STATE ctrl.val) == 0 then
    let s := ((s.set (F.IO_CAN_STAT_TEC ctrl.val) tec.toNat).set (F.IO_CAN_STAT_REC ctrl.val) rec.toNat).set (F.IO_CAN_STAT_STATE ctrl.val) 1
    ran (s.violation (0x10 + ctrl.val) 0x58 [tec, rec])
  else ran s

/-- CAN_BUS_OFF (R83, code 0x59). -/
def execCanBusOff (dt : Nat) (ctrl : Fin 2) (tec : Byte) (s : State) : Host.Outcome State Fault Refusal :=
  let s := s.elapse dt
  if s.running && s.flag (F.IO_CAN_CTRL_EN ctrl.val) && s.get (F.IO_CAN_STAT_STATE ctrl.val) != 2 then
    let s := (s.set (F.IO_CAN_STAT_TEC ctrl.val) tec.toNat).set (F.IO_CAN_STAT_STATE ctrl.val) 2
    ran (s.violation (0x10 + ctrl.val) 0x59 [tec])
  else ran s

/-- CAN_BUS_OFF_RECOVERY (code 0x59: 128 × 11 recessive bits): the controller is error active again with its counts cleared. -/
def execCanBusOffRecovery (dt : Nat) (ctrl : Fin 2) (s : State) : Host.Outcome State Fault Refusal :=
  let s := s.elapse dt
  if s.running && s.get (F.IO_CAN_STAT_STATE ctrl.val) == 2 then
    ran (((s.set (F.IO_CAN_STAT_STATE ctrl.val) 0).set (F.IO_CAN_STAT_TEC ctrl.val) 0).set (F.IO_CAN_STAT_REC ctrl.val) 0)
  else ran s

/-! ### The packet timer and the overrun (R70, R72) -/

/-- The stream's timer has run IG_TIMEOUT of device time (R72, log entry 14). -/
def State.packetLate (s : State) (n : Nat) : Bool := decide ((s.stream n).timer + s.get (F.IG_TIMEOUT n) * 1000 ≤ s.now)

/-- An empty encoder packet (R72): it says that no edge occurred up to its stamp. It is no record, so a resynchronisation goes on (R73). -/
def State.emptyPacket (s : State) (n : Nat) : State := if s.freeUnits n == 0 then s else (s.reserveHeader n 0).closeRecords n

/-- PACKET_TIMEOUT (R72): bands and blocks are truncated with code 0x01, record packets close, an encoder without edges closes an empty packet. An expiry that closes an open encoder packet closes no empty one too: that takes a further IG_TIMEOUT (DESIGN CHOICE, log entry 104). -/
def execPacketTimeout (dt : Nat) (stream : Fin 48) (s : State) : Host.Outcome State Fault Refusal :=
  let s := s.elapse dt
  let n := stream.val
  if !s.running || !s.flag (F.IG_SCFG_EN n) || !s.packetLate n || (s.stream n).ovrPend then ran s
  else if s.kindOf n ≤ 2 then ran (s.truncate n 0x01 (s.payloadDetail n))
  else
    match (s.stream n).open_ with
    | some _ => ran ((s.closeRecords n).touch n)
    | none => ran (if s.kindOf n == 3 && decide (0 < s.freeUnits n) then (s.emptyPacket n).touch n else s)

/-- OVERRUN_CLOSE (R70): the pending overrun closes once 64 bytes are free. -/
def execOverrunClose (dt : Nat) (stream : Fin 48) (s : State) : Host.Outcome State Fault Refusal :=
  ran ((s.elapse dt).closeOverrun stream.val)

end Sys2Proof.Machine
end

