-- ==== Sys2Proof/Machine/Links.lean ====
section
/-! DEFINITION. Commands of the peer links: flits received, resends, training (R386 to R394). -/

namespace Sys2Proof.Machine

/-! ### Delivery -/

/-- A delivered flit of the abort class: a take-over (level 3) is recorded, everything else is a job abort (R336, R394). -/
def State.abortFlit (s : State) (fields : List Nat) : State :=
  let r := fields.getD 1 0 % 2 ^ 32
  let d := fields.getD 2 0 % 8
  if fields.getD 0 0 == 3 then
    let s := (s.set F.LK_TAKEOVER_RANK d).set F.LK_TAKEOVER_SEQ r
    ((s.setFlag F.LK_TAKEOVER_DONE true).raise 0x1AB).keepResume r
  else (s.abortReceived d r).parkCheck

/-- A flit in sequence is delivered on this part, or forwarded (R391, R392). -/
def State.deliver (s : State) (l : Nat) (f : LinkFlit) : State :=
  if 4 ≤ f.cls || (f.cls == 2 && decide (s.get F.LK_JOB_CFG_SIZE < f.src)) then
    s.violation (0x14 + l) 0x86 [BitVec.ofNat 8 f.src, BitVec.ofNat 8 f.cls]
  else if s.posOf f.dst != s.get F.LK_JOB_CFG_RANK then s.sendFlit { f with back := [0, 0, 0] }
  else
    let (fields, data) := Config.linkPart f.cls f.payload
    match f.cls with
    | 0 => s.dramWrite (fields.headD 0) data
    | 1 => s.collectPart l f.src fields data
    | _ => s.abortFlit fields

/-! ### Reception (R386 to R388) -/

/-- The fields of a flit. -/
def flitOf (b : Bytes) : LinkFlit :=
  let cr := fieldB b 6 2
  ⟨fieldB b 0 1, bitsOf (fieldB b 1 1) 0 3, bitsOf (fieldB b 1 1) 3 3, sliceB b 8 256, [bitsOf cr 0 4, bitsOf cr 4 4, bitsOf cr 8 4]⟩

/-- The sequence number of a flit. -/
def flitSeq (b : Bytes) : Nat := bitsOf (fieldB b 2 2) 0 12

/-- The sequence number a flit acknowledges. -/
def flitAck (b : Bytes) : Nat := bitsOf (fieldB b 4 2) 0 12

/-- A flit is whole: 272 bytes with the CRC they give. -/
def flitIntact (b : Bytes) : Bool := b.length == 272 && fieldB b 268 4 == crc32 (b.take 268)

/-- One NAK naming the flit expected on link l, until that flit comes (R387). -/
def State.nak (s : State) (l : Nat) : State :=
  let x := s.link l
  if x.naked then s else (s.setLink l { x with naked := true }).sendControl l [x.expect]

/-- The credits a flit returns are held again. -/
def State.creditsBack (s : State) (l : Nat) (back : List Nat) : State :=
  let x := s.link l
  s.setLink l { x with credits := List.zipWith (fun a b => a + b) x.credits back }

/-- What was received is acknowledged: by flits that go now, or by a control flit. -/
def State.respond (s : State) (l : Nat) : State :=
  let n := (s.link l).sent.length
  let s := s.pumpLink l
  if s.linkUp l && (s.link l).sent.length == n then s.sendControl l [] else s

/-- Link control received on link l: acknowledgement, credits, a NAK (R386, R387). -/
def State.controlFlit (s : State) (l : Nat) (f : LinkFlit) : State :=
  let s := s.creditsBack l f.back
  let s := match Config.linkNak f.payload with
    | some n => s.resend l (n % 4096)
    | none => s
  s.pumpLink l

/-- A flit of a class with credits takes the one the peer holds for it. -/
def State.takeCredit (s : State) (l c : Nat) : State :=
  let x := s.link l
  s.setLink l { x with given := setAt x.given c (x.given.getD c 0 - 1), owed := setAt x.owed c (x.owed.getD c 0 + 1) }

/-- The flit expected on link l (R387, R388): without a credit it is dropped with a NAK; else the next is expected, and it is delivered. -/
def State.inSequence (s : State) (l : Nat) (f : LinkFlit) : State :=
  let x := s.link l
  if f.cls < 3 && x.given.getD f.cls 0 == 0 then
    (s.violation (0x14 + l) 0x82 [BitVec.ofNat 8 f.cls]).nak l
  else
    let s := s.setLink l { x with expect := (x.expect + 1) % 4096, naked := false }
    let s := if f.cls < 3 then s.takeCredit l f.cls else s
    ((s.creditsBack l f.back).deliver l f).respond l

/-- A flit received on a trained link. -/
def State.flitIn (s : State) (l : Nat) (b : Bytes) : State :=
  let f := flitOf b
  if !flitIntact b then
    ((s.incSat (F.LK_L_CRC_ERR l)).violation (0x14 + l) 0x80 (BitVec.ofNat 8 f.cls :: leBytes 2 (flitSeq b))).nak l
  else if f.cls == 3 then (s.acked l (flitAck b)).controlFlit l f
  else if flitSeq b != (s.link l).expect then s.incSat (F.LK_L_OOS l)
  else (s.acked l (flitAck b)).inSequence l f

/-- FLIT_RECEIVE (R386 to R388, R391, R392). -/
def execFlitReceive (dt : Nat) (link : Fin 4) (flit : Bytes) (s : State) : Host.Outcome State Fault Refusal :=
  let s := s.elapse dt
  ran (if s.linkUp link then s.flitIn link flit else s)

/-- Link l has gone 10 µs without an acknowledgement of what it sent. -/
def State.ackDue (s : State) (l : Nat) : Bool :=
  s.linkUp l && !(s.link l).unacked.isEmpty && decide ((s.link l).quiet + 10000 ≤ s.now)

/-- All unacknowledged flits of link l sent again. -/
def State.resendAll (s : State) (l : Nat) : State :=
  match (s.link l).unacked with
  | u :: _ => s.resend l u.1
  | [] => s

/-- ACK_TIMEOUT (R387). -/
def execAckTimeout (dt : Nat) (link : Fin 4) (s : State) : Host.Outcome State Fault Refusal :=
  let s := s.elapse dt
  ran (if s.ackDue link then s.resendAll link else s)

/-! ### Training (R389, R390) -/

/-- LINK_DOWN (R389). -/
def execLinkDown (dt : Nat) (link : Fin 4) (s : State) : Host.Outcome State Fault Refusal :=
  let s := s.elapse dt
  ran (if s.linkUp link then s.linkLost link else s)

/-- The rank at the other end of link l (R391). -/
def State.neighbour (s : State) (l : Nat) : Nat :=
  let own := s.get F.LK_JOB_CFG_RANK
  let n := s.jobSize
  let w := s.get F.LK_JOB_CFG_X + 2
  let x := own % w
  let y := own / w
  if s.flag F.LK_JOB_CFG_TOPO then
    match l with
    | 0 => (x + 1) % w + w * y
    | 1 => (x + w - 1) % w + w * y
    | _ => x + w * (1 - y)
  else if l % 2 == 0 then (own + 1) % n
  else (own + n - 1) % n

/-- The image identifier of the manifest. -/
def State.imageId (s : State) : Nat := fieldB s.bt.manifest 0x0C 4

/-- The job result set starts where its links held it (R390). -/
def State.startJob (s : State) : State := s.tryStart (s.get F.RC_CFG_JOB_RS)

/-- Link l begins its first traffic with the credits of LK_CREDITS (R388). -/
def State.firstCredits (s : State) (l : Nat) : State :=
  let c := [s.get F.LK_CREDITS_DATA, s.get F.LK_CREDITS_COLL, s.get F.LK_CREDITS_ABORT]
  s.setLink l { s.link l with credits := c, given := c }

/-- Link l has trained in run state again: what was not acknowledged is sent again (R389). -/
def State.linkAgain (s : State) (l : Nat) : State :=
  ((s.setLink l { s.link l with resends := 0 }).raise 0x1A9).resendAll l

/-- Link l passes training. -/
def State.trained (s : State) (l : Nat) : State :=
  let s := s.set (F.LK_L_STAT_STATE l) 2
  let s := if s.get (F.LK_L_STAT_RETRAINS l) == 0 then s.firstCredits l else s.linkAgain l
  ((s.statusSource (0x2B + l) true).pumpLink l).startJob

/-- Link l is held down: its peer reports other values (R389). -/
def State.heldDown (s : State) (l rank size image : Nat) : State :=
  let s := s.set (F.LK_L_STAT_STATE l) 3
  (s.violation (0x14 + l) 0x84 ([BitVec.ofNat 8 rank, BitVec.ofNat 8 size] ++ leBytes 4 image)).raise 0x1AA

/-- LINK_TRAINED (R389): the peer's rank, its job size less one, its image identifier. -/
def execLinkTrained (dt : Nat) (link : Fin 4) (rank size : Fin 8) (image : Word) (s : State) : Host.Outcome State Fault Refusal :=
  let s := s.elapse dt
  ran (if s.get (F.LK_L_STAT_STATE link) == 1 then
      if rank.val == s.neighbour link && size.val == s.get F.LK_JOB_CFG_SIZE && image.toNat == s.imageId then s.trained link
      else s.heldDown link rank (size + 1) image.toNat
    else s)

/-- LINK_START_TIMEOUT (R390). -/
def execLinkStartTimeout (dt : Nat) (s : State) : Host.Outcome State Fault Refusal :=
  let s := s.elapse dt
  ran (match s.lk.startFrom with
    | some t => if s.running && s.inJob && decide (t + s.get F.LK_START_MS * 1000000 ≤ s.now) then (s.setLk (fun k => { k with startOver := true })).startJob else s
    | none => s)

end Sys2Proof.Machine
end

