-- ==== Sys2Proof/Machine/Lists.lean ====
section
/-! DEFINITION. The commands of command lists (R248 to R264, R317): one meaning per opcode, and the commands by which waits end, builds go on, and occurrences arise. -/

namespace Sys2Proof.Machine

/-- LOAD (R185, R188, R256). -/
def execLoad (dt : Nat) (c : QCmd) (s : State) : Host.Outcome State Fault Refusal :=
  ran ((s.elapse dt).runCmd c .load (fun s i record => s.loadBody i record))

/-- STORE (R186, R256). -/
def execStore (dt : Nat) (c : QCmd) (s : State) : Host.Outcome State Fault Refusal :=
  ran ((s.elapse dt).runCmd c .store (fun s i record => s.storeBody i record))

/-- MATMUL (R151 to R156). -/
def execMatmul (dt : Nat) (c : QCmd) (s : State) : Host.Outcome State Fault Refusal :=
  ran ((s.elapse dt).runCmd c .matmul (fun s _ record => s.matmulBody record))

/-- VECTOR (R157, R158). -/
def execVector (dt : Nat) (c : QCmd) (s : State) : Host.Outcome State Fault Refusal :=
  ran ((s.elapse dt).runCmd c .vector (fun s _ record => s.vectorBody record))

/-- ATTEND (R192 to R207). -/
def execAttend (dt : Nat) (c : QCmd) (s : State) : Host.Outcome State Fault Refusal :=
  ran ((s.elapse dt).runCmd c .attend (fun s i record => s.attendBody i record))

/-- POINT_BUILD (R128, R139). -/
def execPointBuild (dt : Nat) (c : QCmd) (s : State) : Host.Outcome State Fault Refusal :=
  ran ((s.elapse dt).runCmd c .pointBuild (fun s i record => s.pointBuildBody i record))

/-- QUERY (R140 to R145). -/
def execQuery (dt : Nat) (c : QCmd) (s : State) : Host.Outcome State Fault Refusal :=
  ran ((s.elapse dt).runCmd c .query (fun s i record => s.queryBody i record))

/-- The streams a FUSE names. -/
def fuseMask (record : Bytes) : Nat := fieldB record 12 6

/-- What FUSE computes its output from: the mode, and each merged sample of the named streams in the order of R99, a camera's frame or line with its relative pose, any other with what brings it to the instant (R106). -/
def State.fuseKey (s : State) (record : Bytes) (r : Result) : List Nat :=
  let xs := r.samples.filter (fun x => bitOf (fuseMask record) x.stream)
  fieldB record 9 1 % 2 :: xs.flatMap (fun x => [x.stream, x.time, x.data.length, leNat x.data, x.index] ++
    (if s.kindOf x.stream ≤ 1 then s.relativePose r x.stream x.time (s.cbOfResult r) else s.poseOperands r x.stream x.time (s.cbOfResult r)))

/-- FUSE of a result into the extent of a descriptor (R99, R106, R256; log entry 36). -/
def State.fuseInto (s : State) (record : Bytes) (d : Desc) (r : Result) : State :=
  let key := s.fuseKey record r
  (List.range d.extent).foldl (fun s j => s.dramPut (d.base + j) (Config.fuseByte key j (s.dramByte (d.base + j)))) s

/-- FUSE (R106, R256). -/
def State.fuseBody (s : State) (i : Inst) (record : Bytes) : State × CmdEnd :=
  s.withDesc i (fieldB record 18 2) fun s d =>
    match i.bound[bitsOf (fieldB record 8 1) 0 4]? with
    | none => (s, .done)
    | some b => match s.result? b.1 b.2 with
      | none => (s, .done)
      | some r => (s.fuseInto record d r, .done)

/-- FUSE. -/
def execFuse (dt : Nat) (c : QCmd) (s : State) : Host.Outcome State Fault Refusal :=
  ran ((s.elapse dt).runCmd c .fuse (fun s i record => s.fuseBody i record))

/-- SOLVE (R233, R239). -/
def execSolve (dt : Nat) (c : QCmd) (s : State) : Host.Outcome State Fault Refusal :=
  ran ((s.elapse dt).runCmd c .solve (fun s i record => s.solveBody i record))

/-- COPY (R186, R188). -/
def execCopy (dt : Nat) (c : QCmd) (s : State) : Host.Outcome State Fault Refusal :=
  ran ((s.elapse dt).runCmd c .copy (fun s i record => s.copyBody i record))

/-- COLLECT (R256, R392). -/
def execCollect (dt : Nat) (c : QCmd) (s : State) : Host.Outcome State Fault Refusal :=
  ran ((s.elapse dt).runCmd c .collect (fun s i record => s.collectBody i record))

/-- CREATE_DESC (R182, R183). -/
def execCreateDesc (dt : Nat) (c : QCmd) (s : State) : Host.Outcome State Fault Refusal :=
  ran ((s.elapse dt).runCmd c .createDesc (fun s i record => s.createBody i record))

/-- WAIT_FENCE (R261): it completes, or its instance waits for BASE + STEP × IDX. -/
def State.waitFenceBody (s : State) (i : Inst) (record : Bytes) : State × CmdEnd :=
  let f := fenceOf record
  let v := fenceValue record i
  if s.fenceReached f v then (s, .done) else (s, .waitDone (.fence f v))

/-- WAIT_FENCE. -/
def execWaitFence (dt : Nat) (c : QCmd) (s : State) : Host.Outcome State Fault Refusal :=
  ran ((s.elapse dt).runCmd c .waitFence (fun s i record => s.waitFenceBody i record))

/-- SIGNAL_FENCE (R261): BASE added, or the fence set to BASE + STEP × IDX. -/
def State.signalFenceBody (s : State) (i : Inst) (record : Bytes) : State × CmdEnd :=
  let f := fenceOf record
  if bitOf (fieldB record 10 1) 0 then (s.fenceSet f (fenceValue record i), .done) else (s.fenceAdd f (fieldB record 16 8), .done)

/-- SIGNAL_FENCE. -/
def execSignalFence (dt : Nat) (c : QCmd) (s : State) : Host.Outcome State Fault Refusal :=
  ran ((s.elapse dt).runCmd c .signalFence (fun s i record => s.signalFenceBody i record))

/-- SEM_ACQUIRE (R262): served at once when the count suffices and no acquirer ahead of it waits. -/
def State.semAcquireBody (s : State) (i : Inst) (record : Bytes) : State × CmdEnd :=
  let n := fieldB record 8 1
  let k := fieldB record 10 2
  let mine := queueNo (s.runHdr i).engine (s.runHdr i).queue
  let first := (s.acquirers n).all (fun x => decide (mine < queueNo (s.runHdr x).engine (s.runHdr x).queue))
  if k ≤ s.sem n && first then
    ((s.set (F.CL_SEM n) (s.sem n - k)).setInst { i with sems := i.sems ++ [(n, k)] }, .done)
  else (s, .waitDone (.sem n k))

/-- SEM_ACQUIRE. -/
def execSemAcquire (dt : Nat) (c : QCmd) (s : State) : Host.Outcome State Fault Refusal :=
  ran ((s.elapse dt).runCmd c .semAcquire (fun s i record => s.semAcquireBody i record))

/-- Counts held on semaphores less `k` of semaphore n. -/
def lessHeld (n : Nat) : Nat → List (Nat × Nat) → List (Nat × Nat)
  | _, [] => []
  | k, (m, c) :: rest =>
    if m != n then (m, c) :: lessHeld n k rest
    else if c ≤ k then lessHeld n (k - c) rest
    else (m, c - k) :: rest

/-- SEM_RELEASE (R262): its count added, waiting acquirers served in order. -/
def State.semReleaseBody (s : State) (i : Inst) (record : Bytes) : State × CmdEnd :=
  let n := fieldB record 8 1
  let k := fieldB record 10 2
  ((((s.setInst { i with sems := lessHeld n k i.sems }).semRelease n k).serve n 96), .done)

/-- SEM_RELEASE. -/
def execSemRelease (dt : Nat) (c : QCmd) (s : State) : Host.Outcome State Fault Refusal :=
  ran ((s.elapse dt).runCmd c .semRelease (fun s i record => s.semReleaseBody i record))

/-- The VARIANT code recorded for a bound result of an instance; 0 where it binds none (R263). -/
def State.boundVariant (s : State) (i : Inst) (b : Nat) : Nat :=
  match i.bound[b]? with
  | some rk => ((s.result? rk.1 rk.2).map (fun r => r.variantCode)).getD 0
  | none => 0

/-- BRANCH_VARIANT (R256, R263). -/
def State.branchBody (s : State) (i : Inst) (record : Bytes) : State × CmdEnd :=
  let v := s.boundVariant i (bitsOf (fieldB record 12 1) 0 4)
  let taken := if bitOf (fieldB record 10 1) 0 then v == fieldB record 11 1 else v != 0
  (s, if taken then .jump (fieldB record 8 2) else .done)

/-- BRANCH_VARIANT. -/
def execBranchVariant (dt : Nat) (c : QCmd) (s : State) : Host.Outcome State Fault Refusal :=
  ran ((s.elapse dt).runCmd c .branchVariant (fun s i record => s.branchBody i record))

/-- END (R139, R255, R264). -/
def execEndList (dt : Nat) (c : QCmd) (s : State) : Host.Outcome State Fault Refusal :=
  ran ((s.elapse dt).runCmd c .end_ (fun s i record => (s.endBuild i.list (bitOf (fieldB record 8 1) 0), .ended)))

/-- WAIT_SATISFIED (R205, R255, R261, R262): the instance waiting on a queue goes on when its condition is met. -/
def execWaitSatisfied (dt : Nat) (c : QCmd) (s : State) : Host.Outcome State Fault Refusal :=
  let s := s.elapse dt
  match s.instOn c.eng.val c.q.val with
  | some i =>
    match i.wait with
    | some w => ran (if s.ctxHeld (s.runHdr i).ctx then s else s.wake i w)
    | none => ran s
  | none => ran s

/-- Device time a list has waited under R203, in µs, counted in AT_ORDER_WAIT. -/
def State.countOrderWait (s : State) (list : Nat) : State :=
  match assocGet list s.at_.waits with
  | some t => (s.addSat F.AT_ORDER_WAIT ((s.now - t) / 1000)).setAt_ (fun a => { a with waits := assocDrop list a.waits })
  | none => s

/-- What an instance waits for under R198, R203 and R204 has come about: earlier writes, the reads before its write, the writes before the segment it comes to next, the read of another list. -/
def State.orderOver (s : State) (i : Inst) : Bool :=
  if bitsOf (fieldB (s.nextCmd i) 8 1) 0 2 == 1 then
    match i.bound.getLast? with
    | some b => !s.writesAhead i.list b.2 && s.writeMay b.2
    | none => true
  else
    let seg := match s.at_.reading with
      | some r => if r.list == i.list then r.seg else 0
      | none => 0
    s.at_.reading.all (fun r => r.list == i.list) &&
    (match i.bound[seg]? with
     | some b => s.readMay b.2
     | none => true)

/-- CORRIDOR_ORDER_WAIT_END (R203): the wait is over and the ATTEND begins, or goes on. -/
def execCorridorOrderWaitEnd (dt : Nat) (c : QCmd) (s : State) : Host.Outcome State Fault Refusal :=
  let s := s.elapse dt
  match s.instOn c.eng.val c.q.val with
  | some i =>
    if i.wait == some .corridorOrder && s.orderOver i && !s.ctxHeld (s.runHdr i).ctx then
      ran (((s.countOrderWait i.list).rerun i).runCmd c .attend (fun s i record => s.attendBody i record))
    else ran s
  | none => ran s

/-- SOLVE_READ_DATA_READY (R239): the watermark has reached t_k, and the read copies its record. -/
def execSolveReadDataReady (dt : Nat) (c : QCmd) (s : State) : Host.Outcome State Fault Refusal :=
  let s := s.elapse dt
  match s.instOn c.eng.val c.q.val with
  | some i =>
    match i.wait with
    | some (.solveRead p t) =>
      let past := match (s.prob p).wm with
        | some w => decide (t ≤ w)
        | none => false
      if past && !s.ctxHeld (s.runHdr i).ctx then ran ((s.rerun i).runCmd c .solve (fun s i record => s.solveBody i record)) else ran s
    | _ => ran s
  | none => ran s

/-! ### The stages of a build (R139) -/

/-- The build at a stage goes on by `f`. -/
def State.atStage (s : State) (stage : Nat) (f : State → PtBuild → State) : State :=
  match s.pt with
  | some b => if s.get F.PT_STATUS_STAGE == stage && !s.ctxHeld (s.listHdr b.owner).ctx then f s b else s
  | none => s

/-- INGEST_DONE (R128 to R132, R139). -/
def execIngestDone (dt : Nat) (s : State) : Host.Outcome State Fault Refusal :=
  ran ((s.elapse dt).atStage 1 State.ingestBuild)

/-- SORT_DONE (R133, R139). -/
def execSortDone (dt : Nat) (s : State) : Host.Outcome State Fault Refusal :=
  ran ((s.elapse dt).atStage 2 State.sortBuild)

/-- LEAF_PASS_DONE (R134 to R136, R139). -/
def execLeafPassDone (dt : Nat) (s : State) : Host.Outcome State Fault Refusal :=
  ran ((s.elapse dt).atStage 3 State.leafBuild)

/-- The build is resident and its POINT_BUILD completes (R137 to R139). -/
def State.buildResident (s : State) (b : PtBuild) : State :=
  let s := s.interiorBuild b
  match s.inst? b.owner with
  | some i => if opcodeOf (s.nextCmd i) == some .pointBuild then s.finish i.list .done else s
  | none => s

/-- INTERIOR_DONE (R137 to R139). -/
def execInteriorDone (dt : Nat) (s : State) : Host.Outcome State Fault Refusal :=
  ran ((s.elapse dt).atStage 4 State.buildResident)

/-! ### Occurrences in time (R252, R253) -/

/-- LIST_TIME_TRIGGER (R36, R50, R252): the comparator of a kind-3 list fires at its next time. -/
def execListTimeTrigger (dt : Nat) (list : Fin 4095) (s : State) : Host.Outcome State Fault Refusal :=
  let s := s.elapse dt
  match assocGet list.val s.cl.fires with
  | some t =>
    if s.running && decide (t ≤ s.cycleNow) then
      let s := { s with cl := { s.cl with fires := assocPut list.val (t + (s.listHdr list.val).period) s.cl.fires } }
      ran ((s.occur list.val 1).settle false)
    else ran s
  | none => ran s

/-- BATCH_WAIT_EXPIRY (R253): lists whose oldest pending result has waited BATCH_WAIT become ready. -/
def execBatchWaitExpiry (dt : Nat) (list : Fin 4095) (s : State) : Host.Outcome State Fault Refusal :=
  let s := s.elapse dt
  let due := match s.occsOf list.val with
    | o :: _ => (s.listHdr list.val).kind == 1 && decide (o.sealTime + (s.listHdr list.val).batchWait ≤ s.now)
    | [] => false
  ran (if due && s.running then s.settle false else s)

end Sys2Proof.Machine
end

