-- ==== Sys2Proof/Machine/Tiles.lean ====
section
/-! DEFINITION. The commands of tiles, vaults and the mesh (R159 to R169, R329). -/

namespace Sys2Proof.Machine

/-! ### Operating points (R169) -/

/-- TILE_TEMP_SAMPLE (R169). -/
def execTileTempSample (dt : Nat) (tile : Fin 144) (temp : BitVec 8) (s : State) : Host.Outcome State Fault Refusal :=
  let s := s.elapse dt
  ran (if s.running && decide (tile.val < s.tiles) then
    (s.set (F.TL_T_STAT_TEMP tile.val) temp.toNat).retarget tile.val
  else s)

/-- A change of operating point that ends (R169, R363): a regulator that has not settled leaves the tile at the lower point. The tile then chooses anew, so that a grant or a temperature that rose meanwhile is not lost (R169, R277). -/
def State.endChange (s : State) (c : OpChange) (settled : Bool) : State :=
  let cur := s.get (F.TL_T_STAT_OP c.tile)
  let s := s.setTl (fun t => { t with opChanges := t.opChanges.filter (fun x => x.tile != c.tile) })
  let s := s.set (F.TL_T_STAT_OP c.tile) (if settled then c.target else min c.target cur)
  let s := s.incWrap (F.TL_T_OPCHG c.tile)
  if settled then s.retarget c.tile else s

/-- OP_CHANGE_DONE (R169): 1.5 µs after the change began. -/
def execOpChangeDone (dt : Nat) (tile : Fin 144) (settled : Bool) (s : State) : Host.Outcome State Fault Refusal :=
  let s := s.elapse dt
  match s.tl.opChanges.find? (fun c => c.tile == tile.val) with
  | some c => ran (if c.start + 1500 ≤ s.now then s.endChange c settled else s)
  | none => ran s

/-! ### Spills (R160) -/

/-- The crossing of HIGH, counted once until occupancy is at or below it again: spillable buffers leave, and the tile stalls when its spill area gave out. -/
def State.spill (s : State) (l : Nat) : State :=
  let s := if s.tl.above.contains l then s else (s.incSat (F.TL_SPILL_EVENTS l)).setTl (fun t => { t with above := l :: t.above })
  let bs := (s.bufsOf l).filter (fun b => b.phase == .present && b.spillable)
  let (s, gaveOut) := s.spillFrom l (sortByKey (fun b => sramSize - b.ofs) bs)
  if gaveOut then s.setTl (fun t => { t with stalls := assocPut l s.thy.counter t.stalls }) else s

/-- AUTONOMOUS_SPILL (R160): occupancy, but for what is already leaving, is above HIGH. -/
def execAutonomousSpill (dt : Nat) (tile : Fin 144) (s : State) : Host.Outcome State Fault Refusal :=
  let s := s.elapse dt
  ran (if s.running && decide (markBytes (s.get F.TL_SPILL_CFG_HIGH) < s.sramAfter tile.val) && (assocGet tile.val s.tl.stalls).isNone then
    s.spill tile.val
  else s)

/-- 64-byte units of a buffer. -/
def SramBuf.units (b : SramBuf) : Nat := cdiv b.len 64

/-- SPILL_OUT_COMPLETE (R160): the buffer lies in the spill area and its space is free. -/
def execSpillOutComplete (dt : Nat) (tile : Fin 144) (offset : Nat) (s : State) : Host.Outcome State Fault Refusal :=
  let s := s.elapse dt
  match s.bufAt tile.val offset with
  | some b =>
    ran (if b.phase == .leaving then
      let s := s.dramWrite (s.spillAddr tile.val b.spill) (s.sramRead tile.val b.ofs b.len)
      let f := F.TL_SPILL_OUT tile.val
      ((s.putBuf { b with phase := .spilled }).set f (s.get f + b.units)).settleMark tile.val
    else s)
  | none => ran s

/-- RELOAD_COMPLETE (R160): the buffer is in SRAM again. -/
def execReloadComplete (dt : Nat) (tile : Fin 144) (offset : Nat) (s : State) : Host.Outcome State Fault Refusal :=
  let s := s.elapse dt
  match s.bufAt tile.val offset with
  | some b =>
    ran (if b.phase == .returning then
      let s := s.sramWrite tile.val b.ofs (s.dramRead (s.spillAddr tile.val b.spill) b.len)
      let f := F.TL_SPILL_IN tile.val
      (s.putBuf { b with phase := .present }).set f (s.get f + b.units)
    else s)
  | none => ran s

/-! ### Vaults (R162, R164) -/

/-- Spare rows left in a layer (R162). -/
def State.sparesLeft (s : State) (vault layer : Nat) : Nat :=
  Config.spareRows vault layer - (assocGet (4 * vault + layer) s.tl.rowsUsed).getD 0

/-- A row remapped to a spare row of its layer, or denied (R162). -/
def State.remapRow (s : State) (vault layer row : Nat) : State :=
  let k := rowKey vault layer row
  let l := 4 * vault + layer
  if 0 < s.sparesLeft vault layer then
    let s := s.setTl (fun t => { t with rowCe := assocDrop k t.rowCe, rowsUsed := assocPut l ((assocGet l t.rowsUsed).getD 0 + 1) t.rowsUsed })
    ((s.incSat (F.TL_VAULT_REPAIR_DONE vault)).set (F.TL_VAULT_REPAIR_LEFT vault) (s.get (F.TL_VAULT_REPAIR_LEFT vault) - 1)).raise 0x119
  else (s.setTl (fun t => { t with denied := k :: t.denied })).incSat (F.TL_VAULT_REPAIR_DENIED vault)

/-- VAULT_ROW_REMAP (R162). -/
def execVaultRowRemap (dt : Nat) (vault : Fin 144) (layer : Fin 4) (row : Nat) (s : State) : Host.Outcome State Fault Refusal :=
  let s := s.elapse dt
  let k := rowKey vault.val layer.val row
  let reached := decide (s.get F.TL_CE_LIMIT ≤ (assocGet k s.tl.rowCe).getD 0)
  ran (if s.running && reached && !s.tl.denied.contains k then s.remapRow vault.val layer.val row else s)

/-- VAULT_SCRUB (R164): the word at an offset of a vault. -/
def execVaultScrub (dt : Nat) (vault : Fin 144) (offset : Nat) (f : ScrubFinding) (s : State) : Host.Outcome State Fault Refusal :=
  let s := s.elapse dt
  ran (if s.running && s.get F.TL_SCRUB_CFG != 0 then
    (match f with
     | .clean => s
     | .corrected row => s.vaultCe vault.val (offset / 2 ^ 26) row
     | .uncorrectable => s.recordUe none 0 vault.val (vault.val * 2 ^ 28 + offset))
  else s)

/-! ### The mesh (R166 to R168, R329) -/

/-- The traffic class of a message (R166): a list's class, 3 for shadow and golden traffic, 0 for a forced golden run. -/
def useClass (u : MeshUse) : Nat :=
  match u with
  | .list c => c.val
  | .shadow => 3
  | .golden forced => if forced then 0 else 3

/-- The flow of a message (R166, R167). -/
def msgFlow (m : MeshMsg) : MeshFlow := ⟨m.kind, m.src, m.dst, m.ctx.val, useClass m.use⟩

/-- The next sequence number due in a flow. -/
def State.flowDue (s : State) (f : MeshFlow) : Nat := ((s.tl.flows.find? (fun x => x.1 == f)).map (fun x => x.2)).getD 0

/-- A flow's next sequence number changed. -/
def State.setFlow (s : State) (f : MeshFlow) (n : Nat) : State :=
  s.setTl (fun t => { t with flows := (f, n % 2 ^ 16) :: t.flows.filter (fun x => x.1 != f) })

/-- A reply's age on the tick passes 1,000 µs by serial arithmetic (R168). -/
def State.tooOld (s : State) (m : MeshMsg) : Bool :=
  let d := (s.thy.counter / 1000 + 2 ^ 12 - m.tick.toNat) % 2 ^ 12
  m.kind == .reply && decide (1000 < d) && decide (d < 2 ^ 11)

/-- The request a reply answers: the oldest of the opposite flow that waits. -/
def State.answeredBy (s : State) (m : MeshMsg) : Option MeshMsg :=
  s.tl.reqs.find? (fun q => q.src == m.dst && q.dst == m.src && q.ctx == m.ctx && useClass q.use == useClass m.use)

/-- The first request equal to `q` removed. -/
def dropReq (q : MeshMsg) : List MeshMsg → List MeshMsg
  | [] => []
  | x :: xs => if x == q then xs else x :: dropReq q xs

/-- A message handed to its tile or engine (R167): a request waits for its reply; a reply of an old generation is dropped (R329). -/
def State.deliverMsg (s : State) (m : MeshMsg) : State :=
  match m.kind with
  | .request => s.setTl (fun t => { t with reqs := t.reqs ++ [m] })
  | .reply =>
    if m.gen.toNat != s.genOf m.part.val then s.incSat F.RC_GEN_DROPS
    else match s.answeredBy m with
      | some q => ((s.setTl (fun t => { t with reqs := dropReq q t.reqs })).drainCheck m.ctx.val).parkCheck
      | none => s

/-- The message due in a flow, or its retirement, passes; then those held behind it, at most `n`. -/
def State.passFlow (s : State) (m : MeshMsg) (retired : Bool) : Nat → State
  | 0 => s
  | n + 1 =>
    let s := if retired then s else s.deliverMsg m
    let due := (m.seqNo.toNat + 1) % 2 ^ 16
    let s := s.setFlow (msgFlow m) due
    match s.tl.early.find? (fun x => msgFlow x.1 == msgFlow m && x.1.seqNo.toNat == due) with
    | some x => (s.setTl (fun t => { t with early := t.early.filter (fun y => y.1 != x.1) })).passFlow x.1 x.2 n
    | none => s

/-- A message, or the retirement of one, in its flow's order (R167). -/
def State.meshOrder (s : State) (m : MeshMsg) (retired : Bool) : State :=
  let due := s.flowDue (msgFlow m)
  if m.seqNo.toNat == due then s.passFlow m retired (s.tl.early.length + 1)
  else if serialLater 16 m.seqNo.toNat due then s.setTl (fun t => { t with early := t.early ++ [(m, retired)] })
  else s

/-- A reply retired on age (R168). -/
def State.retire (s : State) (m : MeshMsg) : State := (s.incSat F.TL_MESH_RETIRED).meshOrder m true

/-- MESH_MESSAGE_ARRIVAL (R167, R168, R329). -/
def execMeshMessageArrival (dt : Nat) (m : MeshMsg) (s : State) : Host.Outcome State Fault Refusal :=
  let s := s.elapse dt
  ran (if s.running then (if s.tooOld m then s.retire m else s.meshOrder m false) else s)

/-- MESH_REPLY_RETIRE (R168). -/
def execMeshReplyRetire (dt : Nat) (m : MeshMsg) (s : State) : Host.Outcome State Fault Refusal :=
  let s := s.elapse dt
  ran (if s.running && s.tooOld m then s.retire m else s)

end Sys2Proof.Machine
end

