-- ==== Sys2Proof/Machine/Dispatch.lean ====
section
/-! DEFINITION. The dispatch: one arm per command of the table, one meaning per arm. -/

namespace Sys2Proof.Machine

def exec (i : Instr) (s : State) : Host.Outcome State Fault Refusal :=
  match i with
  | .tbNowLoRead dt r => Sys2Proof.Machine.execTbNowLoRead dt r s
  | .rateCommit dt c => Sys2Proof.Machine.execRateCommit dt c s
  | .measurementSubmit dt c hi => Sys2Proof.Machine.execMeasurementSubmit dt c hi s
  | .measurementTimeout dt => Sys2Proof.Machine.execMeasurementTimeout dt s
  | .holdoverLimitReached dt => Sys2Proof.Machine.execHoldoverLimitReached dt s
  | .tbRelockArm dt v => Sys2Proof.Machine.execTbRelockArm dt v s
  | .relockArmExpiry dt => Sys2Proof.Machine.execRelockArmExpiry dt s
  | .standstillReached dt => Sys2Proof.Machine.execStandstillReached dt s
  | .startWaitTimeout dt => Sys2Proof.Machine.execStartWaitTimeout dt s
  | .followUpTimeout dt => Sys2Proof.Machine.execFollowUpTimeout dt s
  | .announceReceiptTimeout dt => Sys2Proof.Machine.execAnnounceReceiptTimeout dt s
  | .captureEdge dt line rising edge => Sys2Proof.Machine.execCaptureEdge dt line rising edge s
  | .csiFrameStart dt port head fnum ts lock => Sys2Proof.Machine.execCsiFrameStart dt port head fnum ts lock s
  | .csiFrameEnd dt port head fnum => Sys2Proof.Machine.execCsiFrameEnd dt port head fnum s
  | .csiLineStart dt port head ts lock => Sys2Proof.Machine.execCsiLineStart dt port head ts lock s
  | .csiLineEnd dt port head => Sys2Proof.Machine.execCsiLineEnd dt port head s
  | .csiLongPacket dt port vc dtype wc data crc corrected => Sys2Proof.Machine.execCsiLongPacket dt port vc dtype wc data crc corrected s
  | .csiEmbeddedData dt port vc wc data crc corrected => Sys2Proof.Machine.execCsiEmbeddedData dt port vc wc data crc corrected s
  | .csiHeaderEccError dt port header => Sys2Proof.Machine.execCsiHeaderEccError dt port header s
  | .csiSotSyncError dt port lanes => Sys2Proof.Machine.execCsiSotSyncError dt port lanes s
  | .ethFrameReceive dt mac frame hwTs linkDelay q => Sys2Proof.Machine.execEthFrameReceive dt mac frame hwTs linkDelay q s
  | .encoderEdge dt input a b edge => Sys2Proof.Machine.execEncoderEdge dt input a b edge s
  | .imuDataReady dt spi => Sys2Proof.Machine.execImuDataReady dt spi s
  | .imuReadComplete dt spi data => Sys2Proof.Machine.execImuReadComplete dt spi data s
  | .canFrameReceive dt ctrl frame => Sys2Proof.Machine.execCanFrameReceive dt ctrl frame s
  | .canErrorPassive dt ctrl tec rec => Sys2Proof.Machine.execCanErrorPassive dt ctrl tec rec s
  | .canBusOff dt ctrl tec => Sys2Proof.Machine.execCanBusOff dt ctrl tec s
  | .canBusOffRecovery dt ctrl => Sys2Proof.Machine.execCanBusOffRecovery dt ctrl s
  | .packetTimeout dt stream => Sys2Proof.Machine.execPacketTimeout dt stream s
  | .overrunClose dt stream => Sys2Proof.Machine.execOverrunClose dt stream s
  | .packetTakeUp dt stream upset => Sys2Proof.Machine.execPacketTakeUp dt stream upset s
  | .resultSetStart dt rs => Sys2Proof.Machine.execResultSetStart dt rs s
  | .watermarkSeal dt test => Sys2Proof.Machine.execWatermarkSeal dt test s
  | .deadlineSeal dt test => Sys2Proof.Machine.execDeadlineSeal dt test s
  | .resultVote dt rs => Sys2Proof.Machine.execResultVote dt rs s
  | .egressQueueRoom dt mac sent => Sys2Proof.Machine.execEgressQueueRoom dt mac sent s
  | .slotOverwriteAfterRead dt rs slot => Sys2Proof.Machine.execSlotOverwriteAfterRead dt rs slot s
  | .load dt c => Sys2Proof.Machine.execLoad dt c s
  | .store dt c => Sys2Proof.Machine.execStore dt c s
  | .matmul dt c => Sys2Proof.Machine.execMatmul dt c s
  | .vector dt c => Sys2Proof.Machine.execVector dt c s
  | .attend dt c => Sys2Proof.Machine.execAttend dt c s
  | .corridorOrderWaitEnd dt c => Sys2Proof.Machine.execCorridorOrderWaitEnd dt c s
  | .pointBuild dt c => Sys2Proof.Machine.execPointBuild dt c s
  | .ingestDone dt => Sys2Proof.Machine.execIngestDone dt s
  | .sortDone dt => Sys2Proof.Machine.execSortDone dt s
  | .leafPassDone dt => Sys2Proof.Machine.execLeafPassDone dt s
  | .interiorDone dt => Sys2Proof.Machine.execInteriorDone dt s
  | .query dt c => Sys2Proof.Machine.execQuery dt c s
  | .fuse dt c => Sys2Proof.Machine.execFuse dt c s
  | .solve dt c => Sys2Proof.Machine.execSolve dt c s
  | .solveReadDataReady dt c => Sys2Proof.Machine.execSolveReadDataReady dt c s
  | .copy dt c => Sys2Proof.Machine.execCopy dt c s
  | .collect dt c => Sys2Proof.Machine.execCollect dt c s
  | .createDesc dt c => Sys2Proof.Machine.execCreateDesc dt c s
  | .waitFence dt c => Sys2Proof.Machine.execWaitFence dt c s
  | .signalFence dt c => Sys2Proof.Machine.execSignalFence dt c s
  | .semAcquire dt c => Sys2Proof.Machine.execSemAcquire dt c s
  | .semRelease dt c => Sys2Proof.Machine.execSemRelease dt c s
  | .branchVariant dt c => Sys2Proof.Machine.execBranchVariant dt c s
  | .endList dt c => Sys2Proof.Machine.execEndList dt c s
  | .waitSatisfied dt c => Sys2Proof.Machine.execWaitSatisfied dt c s
  | .listTimeTrigger dt list => Sys2Proof.Machine.execListTimeTrigger dt list s
  | .batchWaitExpiry dt list => Sys2Proof.Machine.execBatchWaitExpiry dt list s
  | .energyTick dt => Sys2Proof.Machine.execEnergyTick dt s
  | .class0SlackExpiry dt list => Sys2Proof.Machine.execClass0SlackExpiry dt list s
  | .starveTimeout dt list => Sys2Proof.Machine.execStarveTimeout dt list s
  | .energyDebtTimeout dt => Sys2Proof.Machine.execEnergyDebtTimeout dt s
  | .zoneSample dt temps => Sys2Proof.Machine.execZoneSample dt temps s
  | .sensorSampleTimeout dt sensor => Sys2Proof.Machine.execSensorSampleTimeout dt sensor s
  | .capWrite dt c v => Sys2Proof.Machine.execCapWrite dt c v s
  | .tileTempSample dt tile temp => Sys2Proof.Machine.execTileTempSample dt tile temp s
  | .opChangeDone dt tile settled => Sys2Proof.Machine.execOpChangeDone dt tile settled s
  | .autonomousSpill dt tile => Sys2Proof.Machine.execAutonomousSpill dt tile s
  | .spillOutComplete dt tile offset => Sys2Proof.Machine.execSpillOutComplete dt tile offset s
  | .reloadComplete dt tile offset => Sys2Proof.Machine.execReloadComplete dt tile offset s
  | .vaultRowRemap dt vault layer row => Sys2Proof.Machine.execVaultRowRemap dt vault layer row s
  | .vaultScrub dt vault offset f => Sys2Proof.Machine.execVaultScrub dt vault offset f s
  | .meshMessageArrival dt m => Sys2Proof.Machine.execMeshMessageArrival dt m s
  | .meshReplyRetire dt m => Sys2Proof.Machine.execMeshReplyRetire dt m s
  | .tickReady dt p => Sys2Proof.Machine.execTickReady dt p s
  | .tickInputsReady dt p => Sys2Proof.Machine.execTickInputsReady dt p s
  | .tickShort dt p => Sys2Proof.Machine.execTickShort dt p s
  | .kernelStepComplete dt stall ue => Sys2Proof.Machine.execKernelStepComplete dt stall ue s
  | .solverBudgetStop dt p => Sys2Proof.Machine.execSolverBudgetStop dt p s
  | .pwmPeriodBoundary dt w => Sys2Proof.Machine.execPwmPeriodBoundary dt w s
  | .triggerFire dt o => Sys2Proof.Machine.execTriggerFire dt o s
  | .triggerPulseEnd dt o => Sys2Proof.Machine.execTriggerPulseEnd dt o s
  | .triggerTimePush dt c o hi => Sys2Proof.Machine.execTriggerTimePush dt c o hi s
  | .ioCapPopLoRead dt r cap => Sys2Proof.Machine.execIoCapPopLoRead dt r cap s
  | .statusSourceChange dt src level => Sys2Proof.Machine.execStatusSourceChange dt src level s
  | .coalesceTimeout dt src => Sys2Proof.Machine.execCoalesceTimeout dt src s
  | .eventDelivery dt mie => Sys2Proof.Machine.execEventDelivery dt mie s
  | .evCClaimRead dt r c => Sys2Proof.Machine.execEvCClaimRead dt r c s
  | .eventComplete dt c target v => Sys2Proof.Machine.execEventComplete dt c target v s
  | .evHCauseRead dt r pin => Sys2Proof.Machine.execEvHCauseRead dt r pin s
  | .evGlobalWrite dt c v => Sys2Proof.Machine.execEvGlobalWrite dt c v s
  | .evMaskWrite dt c w v => Sys2Proof.Machine.execEvMaskWrite dt c w v s
  | .evSyncRead dt r => Sys2Proof.Machine.execEvSyncRead dt r s
  | .softwareEvent dt c v => Sys2Proof.Machine.execSoftwareEvent dt c v s
  | .fenceWatcherArm dt c w hi => Sys2Proof.Machine.execFenceWatcherArm dt c w hi s
  | .wakeLatchEdge dt src rising boot => Sys2Proof.Machine.execWakeLatchEdge dt src rising boot s
  | .supervisionPass dt => Sys2Proof.Machine.execSupervisionPass dt s
  | .lockstepMismatch dt => Sys2Proof.Machine.execLockstepMismatch dt s
  | .budgetStop dt c => Sys2Proof.Machine.execBudgetStop dt c s
  | .budgetStopDrainTimeout dt c => Sys2Proof.Machine.execBudgetStopDrainTimeout dt c s
  | .resultDeadlineTest dt rs => Sys2Proof.Machine.execResultDeadlineTest dt rs s
  | .clockMonitorWindow dt island khz opChange => Sys2Proof.Machine.execClockMonitorWindow dt island khz opChange s
  | .voltageFault dt domain mv nominal => Sys2Proof.Machine.execVoltageFault dt domain mv nominal s
  | .temperatureFault dt sensor temp => Sys2Proof.Machine.execTemperatureFault dt sensor temp s
  | .shadowCompare dt rs behind tileCrc spareCrc goldCrc => Sys2Proof.Machine.execShadowCompare dt rs behind tileCrc spareCrc goldCrc s
  | .goldenRunComplete dt crcs => Sys2Proof.Machine.execGoldenRunComplete dt crcs s
  | .selfTestAttempt dt zone => Sys2Proof.Machine.execSelfTestAttempt dt zone s
  | .selfTestSliceEnd dt zone passed => Sys2Proof.Machine.execSelfTestSliceEnd dt zone passed s
  | .selfTestSliceOverrun dt zone => Sys2Proof.Machine.execSelfTestSliceOverrun dt zone s
  | .queueHang dt eng q => Sys2Proof.Machine.execQueueHang dt eng q s
  | .fusionHang dt rs => Sys2Proof.Machine.execFusionHang dt rs s
  | .contextDrainTimeout dt ctx => Sys2Proof.Machine.execContextDrainTimeout dt ctx s
  | .contextWindowExpiry dt ctx => Sys2Proof.Machine.execContextWindowExpiry dt ctx s
  | .contextResetRequest dt c v => Sys2Proof.Machine.execContextResetRequest dt c v s
  | .partitionResetRequest dt c v => Sys2Proof.Machine.execPartitionResetRequest dt c v s
  | .partitionResetComplete dt p => Sys2Proof.Machine.execPartitionResetComplete dt p s
  | .partitionWindowExpiry dt p => Sys2Proof.Machine.execPartitionWindowExpiry dt p s
  | .crashRecordDone dt c v => Sys2Proof.Machine.execCrashRecordDone dt c v s
  | .jobAbortReceive dt sender level resume => Sys2Proof.Machine.execJobAbortReceive dt sender level resume s
  | .backstopTimeout dt rank => Sys2Proof.Machine.execBackstopTimeout dt rank s
  | .powerOnResetRelease dt b => Sys2Proof.Machine.execPowerOnResetRelease dt b s
  | .porstAssert dt lowNs => Sys2Proof.Machine.execPorstAssert dt lowNs s
  | .bootWatchdogExpiry dt => Sys2Proof.Machine.execBootWatchdogExpiry dt s
  | .bootSupplyFault dt => Sys2Proof.Machine.execBootSupplyFault dt s
  | .sfdpTimeout dt => Sys2Proof.Machine.execSfdpTimeout dt s
  | .nvmReadTimeout dt addr => Sys2Proof.Machine.execNvmReadTimeout dt addr s
  | .bootRetryHoldExpiry dt => Sys2Proof.Machine.execBootRetryHoldExpiry dt s
  | .minRead dt key => Sys2Proof.Machine.execMinRead dt key s
  | .minProgram dt key => Sys2Proof.Machine.execMinProgram dt key s
  | .minErase dt key => Sys2Proof.Machine.execMinErase dt key s
  | .minRetry dt key => Sys2Proof.Machine.execMinRetry dt key s
  | .nvmOperationComplete dt failed status => Sys2Proof.Machine.execNvmOperationComplete dt failed status s
  | .attestationRequest dt nonce3 => Sys2Proof.Machine.execAttestationRequest dt nonce3 s
  | .attestationDone dt => Sys2Proof.Machine.execAttestationDone dt s
  | .parkRequest dt r v => Sys2Proof.Machine.execParkRequest dt r v s
  | .parkDrainLimit dt => Sys2Proof.Machine.execParkDrainLimit dt s
  | .alarmArm dt c a hi => Sys2Proof.Machine.execAlarmArm dt c a hi s
  | .alarmFire dt a boot => Sys2Proof.Machine.execAlarmFire dt a boot s
  | .comparatorOutputChange dt c high boot => Sys2Proof.Machine.execComparatorOutputChange dt c high boot s
  | .referenceLoss dt => Sys2Proof.Machine.execReferenceLoss dt s
  | .pllLockLoss dt n => Sys2Proof.Machine.execPllLockLoss dt n s
  | .rd4 dt addr crc met => Sys2Proof.Machine.execRd4 dt addr crc met s
  | .rd64 dt addr crc met => Sys2Proof.Machine.execRd64 dt addr crc met s
  | .rd256 dt addr crc met => Sys2Proof.Machine.execRd256 dt addr crc met s
  | .rd4k dt addr crc met => Sys2Proof.Machine.execRd4k dt addr crc met s
  | .wr4 dt addr v crc => Sys2Proof.Machine.execWr4 dt addr v crc s
  | .setwin dt addr crc => Sys2Proof.Machine.execSetwin dt addr crc s
  | .rres64 dt addr crc met => Sys2Proof.Machine.execRres64 dt addr crc met s
  | .rres4k dt addr crc met => Sys2Proof.Machine.execRres4k dt addr crc met s
  | .wreset dt addr crc => Sys2Proof.Machine.execWreset dt addr crc s
  | .unknownOpcode dt opcode inverse => Sys2Proof.Machine.execUnknownOpcode dt opcode inverse s
  | .transactionCancel dt opcode received => Sys2Proof.Machine.execTransactionCancel dt opcode received s
  | .hpResultRelease dt rs sn => Sys2Proof.Machine.execHpResultRelease dt rs sn s
  | .clFenceLoRead dt r f => Sys2Proof.Machine.execClFenceLoRead dt r f s
  | .flitReceive dt link flit => Sys2Proof.Machine.execFlitReceive dt link flit s
  | .ackTimeout dt link => Sys2Proof.Machine.execAckTimeout dt link s
  | .linkDown dt link => Sys2Proof.Machine.execLinkDown dt link s
  | .linkTrained dt link rank size image => Sys2Proof.Machine.execLinkTrained dt link rank size image s
  | .linkStartTimeout dt => Sys2Proof.Machine.execLinkStartTimeout dt s
  | .gateIntervalExpiry dt mac => Sys2Proof.Machine.execGateIntervalExpiry dt mac s
  | .ethLinkChange dt mac up lanes => Sys2Proof.Machine.execEthLinkChange dt mac up lanes s
  | .controlCoreStore dt c addr v => Sys2Proof.Machine.execControlCoreStore dt c addr v s
  | .referenceRestored dt => Sys2Proof.Machine.execReferenceRestored dt s
  | .boundaryScanInstruction dt code => Sys2Proof.Machine.execBoundaryScanInstruction dt code s

end Sys2Proof.Machine
end

