-- ==== Sys2Proof/Safety.lean ====
section
/-! DEFINITION. What claims mean by a good state: memories in canonical form, and pins that say what the block's state says. -/

namespace Sys2Proof.Machine

/-- Registers, DRAM, SRAM and NVM are in canonical form. -/
def State.memoriesWf (s : State) : Bool :=
  Memory.wf regReset s.regs && Memory.wf ramDefault s.dram && Memory.wf ramDefault s.sram && Memory.wf nvmDefault s.nvm

/-- Every register outside the named 64 KiB blocks of the control map (R401) reads in `t` as in `s`. -/
def State.sameRegsOutside (s t : State) (blocks : List Nat) : Prop := ∀ a, a / 0x10000 ∉ blocks → t.readReg a = s.readReg a

/-- Every byte of DRAM, of tile SRAM and of the NVM reads in `t` as in `s`. -/
def State.sameMemories (s t : State) : Prop := t.dram = s.dram ∧ t.sram = s.sram ∧ t.nvm = s.nvm

/-- From `s` to `t` no memory changed, and no register outside the named blocks. -/
def State.changesOnly (s t : State) (blocks : List Nat) : Prop := s.sameRegsOutside t blocks ∧ s.sameMemories t

/-- A source asserts host pin h: it is routed to the pin, deliverable and not masked, and delivery is not held back (R288, R289). -/
def State.assertsPin (s : State) (h src : Nat) : Prop :=
  src < 1024 ∧ s.get (F.EV_S_CFG_HOST src) = h + 1 ∧ s.get (F.EV_S_STAT_STATE src) = 2 ∧
    bitOf (s.get (F.EV_MASK (src / 32))) (src % 32) = false ∧ s.flag F.EV_GLOBAL = false ∧ s.parked = false

/-- The pins say what the state says: FAULT_N and HEARTBEAT follow SF_STATUS (R296, R316), each host pin is asserted while some source asserts it (R288), and EXTEST drives the pins while it is the instruction of a part held in reset (R357). -/
def PinsAgree (s : State) : Prop :=
  (s.pins.faultN = s.flag F.SF_STATUS_FAULT) ∧ (s.pins.heartbeat = s.flag F.SF_STATUS_HB) ∧
  (s.pins.hostIntA = true ↔ ∃ src, s.assertsPin 0 src) ∧ (s.pins.hostIntB = true ↔ ∃ src, s.assertsPin 1 src) ∧
  (s.pins.extest = true ↔ s.jt.instr = .extest ∧ s.bt.inReset = true)

/-- A state but for its registers, Thyme's and the event controller's own state, the pins, and what was answered to host and cores. -/
def State.rest (s : State) : State :=
  { s with regs := [], thy := State.reset.thy, ev := State.reset.ev, pins := State.reset.pins, hostResp := State.reset.hostResp, coreData := [] }

/-- From `s` to `t` no memory changed, no register outside the named blocks, and nothing else but Thyme's and the event controller's own state, the pins, and what was answered to host and cores. -/
def State.light (s t : State) (blocks : List Nat) : Prop := s.changesOnly t blocks ∧ t.rest = s.rest

/-- A host transaction reaches the blocks it names: the part is not in the Lovage-only state, not parked with DRAM retained, not in minimal mode (R351, R370). -/
def State.hostReaches (s : State) : Prop := s.pw.lovageOnly = false ∧ s.parkedRetained = false ∧ s.minimal = false

/-- Instance i on the queue of `c` is at a command of opcode `op`, and nothing holds, faults or stops it: it runs (R255, R299, R311, R324), every buffer it touches is in SRAM (R160), no error meets it (R163). -/
def State.atCommand (s : State) (c : QCmd) (op : Opcode) (i : Inst) : Prop :=
  s.instOn c.eng.val c.q.val = some i ∧ opcodeOf (s.nextCmd i) = some op ∧ i.phase = .running ∧ s.sliceHolds i op (s.nextCmd i) = false ∧
    s.ctxHeld (s.runHdr i).ctx = false ∧ c.notes = [] ∧ c.ue = none ∧
    (s.setInst (s.takenUp i op (s.nextCmd i))).cmdUe (s.takenUp i op (s.nextCmd i)) op (s.nextCmd i) = none ∧
    ((s.setInst (s.takenUp i op (s.nextCmd i))).touched (s.takenUp i op (s.nextCmd i)) op (s.nextCmd i)).all (fun b => b.phase != .spilled && b.phase != .returning) = true ∧
    s.tileStalled op (s.nextCmd i) = false ∧ s.pastBudget i (cycleKeys c.eng.val op (s.nextCmd i)) c.cycles = false

/-- What follows a command's body that came out as `e`: its cycles are counted, its output's buffers come into use, and its instance goes on, waits or ends (R160, R255, R299). -/
def State.cmdOut (s : State) (c : QCmd) (op : Opcode) (i : Inst) (record : Bytes) (e : CmdEnd) : State :=
  s.runBody c op i record (fun s _ _ => (s, e))

end Sys2Proof.Machine
end

