-- ==== Sys2Proof/Certificates/Slice0/Obligations.lean ====
section
/-! DEFINITION. The statements for the provers. -/

open Sys2Proof Sys2Proof.Machine

/-- A step on a queue with a command in front is `exec` of that command with the queue's rest. -/
def Obligations.StepRunsFrontCommand : Prop :=
  ∀ (c : Instr) (q : List Instr) (s : State), s.pending = c :: q → step s = exec c { s with pending := q }

/-- The model's choice (log entry 2): with nothing queued the block idles. -/
def Obligations.StepIdlesOnEmptyQueue : Prop :=
  ∀ s : State, s.pending = [] → step s = .next s

/-- Every command ends in a next state, whatever its operands and the state: this block neither faults nor refuses. -/
def Obligations.EveryCommandEndsInANextState : Prop :=
  ∀ (c : Instr) (s : State), ∃ t, exec c s = .next t

/-- At reset the pins say what the state says (R298, R316). -/
def Obligations.ResetPinsAgree : Prop := PinsAgree State.reset

/-- Every step leaves the pins saying what the state says: FAULT_N follows SF_STATUS.FAULT, HEARTBEAT follows SF_STATUS.HB, a host pin is asserted exactly while a deliverable, unmasked source is routed to it, and EXTEST drives the pins of a part held in reset (R288, R289, R296, R316, R357). -/
def Obligations.StepKeepsPinsAgree : Prop :=
  ∀ s s' : State, PinsAgree s → step s = .next s' → PinsAgree s'


/-- Each command of Thyme has its effect where its condition holds (R35, R37, R39, R41, R42, R43, R46, R48, R38). `u` is the state once the command's cycles have passed. -/
def Obligations.ThymeCommandsComplete : Prop :=
  ∀ (dt : Nat) (s u : State), u = s.elapse dt →
    (∀ c : Fin 8, u.running = true → exec (.tbNowLoRead dt (.core c)) s = .next ((u.latchNow (c.val + 1)).coreReturn c.val (BitVec.ofNat 32 u.cycleNow)).drive) ∧
    (u.hostReaches → exec (.tbNowLoRead dt .host) s = .next ((u.latchNow 0).hostReply 0x0B 0 0 (leBytes 4 (BitVec.ofNat 32 u.cycleNow).toNat)).drive) ∧
    (∀ c : Fin 8, u.running = true → u.rateCode = 0 → exec (.rateCommit dt c) s = .next (((u.set F.TB_COMMIT_STATUS_CODE 0).setThy (fun t =>
        { t.keepTriple with triple := t.triple.reanchor t.counter (u.getI F.TB_RATE_NEXT) 0, rateAt := some t.counter })).incWrap F.TB_COMMIT_STATUS_COUNT).drive) ∧
    (∀ c : Fin 8, u.running = true → u.rateCode ≠ 0 → exec (.rateCommit dt c) s = .next (u.set F.TB_COMMIT_STATUS_CODE u.rateCode).drive) ∧
    (∀ (c : Fin 8) (hi : Word) (t : State), u.running = true → t = (u.set F.TB_MEAS_HI hi.toNat).measure (signedOf 64 ((u.set F.TB_MEAS_HI hi.toNat).get64 F.TB_MEAS_LO F.TB_MEAS_HI)) →
      (t.now ≤ u.now ∨ t.fusionOn = false → exec (.measurementSubmit dt c hi) s = .next t.drive) ∧
      (u.now < t.now → t.fusionOn = true → exec (.measurementSubmit dt c hi) s = .next (((List.range 4).foldl State.sealPassed t).parkCheck).drive)) ∧
    (∀ (c : Fin 8) (hi : Word), u.running = true → u.thy.tq = .locked → (signedOf 64 ((u.set F.TB_MEAS_HI hi.toNat).get64 F.TB_MEAS_LO F.TB_MEAS_HI)).natAbs ≤ u.get F.TB_JUMP_NS →
      exec (.measurementSubmit dt c hi) s = .next (((u.set F.TB_MEAS_HI hi.toNat).setThy (fun t =>
        { t with holdFrom := some u.thy.counter, lastMeas := some u.now, timedOut := false })).refreshTq).drive) ∧
    (u.thy.lastMeas.getD 0 + u.get F.TB_MEAS_TIMEOUT * 10 ^ 6 ≤ u.now → u.thy.timedOut = false → u.thy.tq = .locked →
      exec (.measurementTimeout dt) s = .next (((u.setThy (fun t => { t with tq := .holdover, consec := 0, timedOut := true })).raise 0x0F3).refreshTq).drive) ∧
    (u.thy.lastMeas.getD 0 + u.get F.TB_MEAS_TIMEOUT * 10 ^ 6 ≤ u.now → u.thy.timedOut = false → exec (.measurementTimeout dt) s = .next u.measTimeout.drive) ∧
    (u.tqCode ≠ u.tq → exec (.holdoverLimitReached dt) s = .next ((u.set F.TB_STATUS_TQ u.tqCode).raise 0x0F2).drive) ∧
    (∀ t : Nat, u.thy.arm = some t → t < u.now → exec (.relockArmExpiry dt) s = .next (u.setThy (fun x => { x with arm := none })).drive) ∧
    (u.still = true → exec (.standstillReached dt) s = .next (u.set F.TB_STATUS_STILL 1).drive) ∧
    (∀ y : PtpSync, u.thy.sync = some y → y.at_ + y.interval ≤ u.now →
      exec (.followUpTimeout dt) s = .next ((u.setThy (fun t => { t with sync := none })).violation (0x08 + y.mac) 0x42 (leBytes 2 y.seqId)).drive) ∧
    (u.flag F.TB_CFG_ALT_EN = true → u.thy.altActive = false →
      exec (.announceReceiptTimeout dt) s = .next (u.setThy (fun t => { t with altActive := true, sync := none, lastAnnounce := none })).drive)

/-- A camera's packets are taken by the stream of their port and channel: a frame opens and closes, lines open and close, image lines and embedded lines are stored, errors truncate what is open on the port; a header that ECC corrected is counted (R62, R63, R73, R83). -/
def Obligations.CameraCommandsComplete : Prop :=
  ∀ (dt : Nat) (s u : State) (port : Fin 8) (vc : Fin 16) (corrected : Bool), u = (s.elapse dt).csiCorrected port.val corrected → (s.elapse dt).csiOn port.val = true →
    (∀ (fnum : BitVec 16) (ts : Option (BitVec 64)) (lock : Bool) (n : Nat), u.shortStream port.val vc.val = some n → u.kindOf n = 0 → (u.stream n).ovrPend = false →
      ((u.stream n).frameOpen = false → exec (.csiFrameStart dt port ⟨vc, corrected⟩ fnum ts lock) s = .next (u.openFrame n fnum.toNat ⟨ts.map (fun v => v.toNat), some lock, u.now⟩).drive) ∧
      ((u.stream n).frameOpen = true → exec (.csiFrameStart dt port ⟨vc, corrected⟩ fnum ts lock) s =
        .next ((u.truncate n 0x13 (leBytes 2 (u.stream n).frameLines)).openFrame n fnum.toNat ⟨ts.map (fun v => v.toNat), some lock, (u.truncate n 0x13 (leBytes 2 (u.stream n).frameLines)).now⟩).drive) ∧
      ((u.stream n).frameOpen = true → exec (.csiFrameEnd dt port ⟨vc, corrected⟩ fnum) s =
        .next ((u.closeBand n true).setStream n { (u.closeBand n true).stream n with frameOpen := false }).drive)) ∧
    (∀ (fnum : BitVec 16) (ts : Option (BitVec 64)) (lock : Bool), u.shortStream port.val vc.val = none →
      exec (.csiFrameStart dt port ⟨vc, corrected⟩ fnum ts lock) s = .next (u.violation port.val 0x12 ([BitVec.ofNat 8 vc.val, BitVec.ofNat 8 0] ++ leBytes 2 fnum.toNat)).drive) ∧
    (∀ (ts : Option (BitVec 64)) (lock : Bool) (n : Nat), u.shortStream port.val vc.val = some n → (u.stream n).ovrPend = false →
      (u.kindOf n = 0 → exec (.csiLineStart dt port ⟨vc, corrected⟩ ts lock) s = .next (u.setStream n { u.stream n with lineOpen := true }).drive) ∧
      (∀ p : OpenPacket, u.kindOf n = 1 → (u.stream n).lineOpen = false → (u.stream n).open_ = some p → exec (.csiLineStart dt port ⟨vc, corrected⟩ ts lock) s =
        .next (u.setStream n { u.stream n with lineOpen := true, open_ := some { p with stamps := p.stamps ++ [⟨ts.map (fun v => v.toNat), some lock, u.now⟩] } }).drive) ∧
      (u.kindOf n = 0 → (u.stream n).lineOpen = true → exec (.csiLineEnd dt port ⟨vc, corrected⟩) s = .next (u.setStream n { u.stream n with lineOpen := false }).drive)) ∧
    (∀ (dtype : BitVec 6) (wc : BitVec 16) (data : Bytes) (crc : BitVec 16) (n : Nat),
      u.lineStream port.val vc.val dtype.toNat = some n → u.kindOf n = 0 → (u.stream n).ovrPend = false → (u.stream n).frameOpen = true →
      csiCrc (sliceB data 0 wc.toNat) = crc.toNat → wc.toNat = u.get (F.IG_PKT_SHAPE_LINE_BYTES n) →
      exec (.csiLongPacket dt port vc dtype wc data crc corrected) s = .next (u.storeLine n dtype.toNat (sliceB data 0 wc.toNat)).drive) ∧
    (∀ (dtype : BitVec 6) (wc : BitVec 16) (data : Bytes) (crc : BitVec 16) (n : Nat),
      u.lineStream port.val vc.val dtype.toNat = some n → u.kindOf n = 0 → (u.stream n).ovrPend = false → (u.stream n).frameOpen = true →
      csiCrc (sliceB data 0 wc.toNat) ≠ crc.toNat →
      exec (.csiLongPacket dt port vc dtype wc data crc corrected) s = .next (u.truncate n 0x11 (leBytes 2 (u.stream n).frameLines ++ leBytes 2 crc.toNat)).drive) ∧
    (∀ (wc : BitVec 16) (data : Bytes) (crc : BitVec 16) (n : Nat) (t : State),
      u.findStream (fun n => u.kindOf n == 0 && u.cameraOn port.val vc.val n) = some n → (u.stream n).ovrPend = false → (u.stream n).frameOpen = true →
      (u.stream n).frameLines = 0 → csiCrc (sliceB data 0 wc.toNat) = crc.toNat → u.writePacket n (sliceB data 0 wc.toNat) false = (t, .stored) →
      exec (.csiEmbeddedData dt port vc wc data crc corrected) s = .next (t.setStream n { t.stream n with embedded := some ((u.stream n).embedded.getD (sliceB data 0 wc.toNat)) }).drive) ∧
    (∀ header : Word, corrected = false → exec (.csiHeaderEccError dt port header) s =
      .next (((u.incSat (F.IG_CSI_ECC_UNCORR port.val)).violation port.val 0x10 (leBytes 4 header.toNat)).truncatePort port.val 48).drive) ∧
    (∀ lanes : Byte, corrected = false → exec (.csiSotSyncError dt port lanes) s = .next ((u.violation port.val 0x16 [lanes]).truncatePort port.val 48).drive)

/-- Encoders, IMUs and CAN controllers: a counted edge, a read begun and one that becomes a record, a frame received, the error states; and the streams' packet timer and overrun close (R65, R70, R72, R83, R245). -/
def Obligations.SensorCommandsComplete : Prop :=
  ∀ (dt : Nat) (s u : State), u = s.elapse dt → u.running = true →
    (∀ (input : Fin 12) (a b up : Bool) (q : Fin 8) (held : Nat), u.encoderStream input.val = none → 10 * u.get (F.IO_ENC_CFG_FILT input.val) ≤ held →
      quadrature (u.ig.phases.getD input.val (false, false)).1 (u.ig.phases.getD input.val (false, false)).2 a b = some up →
      ∃ t, exec (.encoderEdge dt input a b ⟨q, held⟩) s = .next t ∧ t.ig = { u.ig with phases := setAt u.ig.phases input.val (a, b) } ∧
        t.getI (F.IO_ENC_COUNT input.val) = signedOf 32 (patternOf 32 (u.getI (F.IO_ENC_COUNT input.val) + (if up != u.flag (F.IO_ENC_CFG_INVERT input.val) then 1 else -1)))) ∧
    (∀ (spi : Fin 4) (n : Nat), u.imuStream spi.val = some n → u.ig.imu.getD spi.val none = none → exec (.imuDataReady dt spi) s =
      .next (State.drive { u with ig := { u.ig with imu := setAt u.ig.imu spi.val (some u.now), spi := setAt u.ig.spi spi.val (some (bitsOf (u.get (igKind n 0)) 24 8)) } })) ∧
    (∀ (spi : Fin 4) (n t : Nat), u.imuStream spi.val = some n → u.ig.imu.getD spi.val none = some t → exec (.imuDataReady dt spi) s = .next (u.streamViol n 0x50 []).drive) ∧
    (∀ (spi : Fin 4) (data : Bytes) (n t : Nat), u.imuStream spi.val = some n → u.ig.imu.getD spi.val none = some t → bitOf (u.get (igKind n 0)) 23 = false →
      exec (.imuReadComplete dt spi data) s = .next ((u.setImu spi.val none).putRecord n t (imuRecord t (sliceB data 0 (bitsOf (u.get (igKind n 0)) 16 7)))).drive) ∧
    (∀ (ctrl : Fin 2) (frame : CanFrame), u.flag (F.IO_CAN_CTRL_EN ctrl.val) = true → u.get (F.IO_CAN_STAT_STATE ctrl.val) ≠ 2 →
      (∀ n : Nat, frame.fdf = false ∨ (frame.res = false ∧ u.flag (F.IO_CAN_CTRL_FD_EN ctrl.val) = true) → frame.faulty = false → u.canStream ctrl.val frame = some n →
        exec (.canFrameReceive dt ctrl frame) s = .next ((u.canDrive ctrl.val .acknowledge).putRecord n u.now (canRecord u.now frame)).drive) ∧
      (frame.fdf = false ∨ (frame.res = false ∧ u.flag (F.IO_CAN_CTRL_FD_EN ctrl.val) = true) → frame.faulty = false → u.canStream ctrl.val frame = none →
        exec (.canFrameReceive dt ctrl frame) s = .next ((u.canDrive ctrl.val .acknowledge).incWrap (F.IO_CAN_UNMATCHED ctrl.val)).drive) ∧
      (frame.fdf = false ∨ (frame.res = false ∧ u.flag (F.IO_CAN_CTRL_FD_EN ctrl.val) = true) → frame.faulty = true →
        exec (.canFrameReceive dt ctrl frame) s = .next (u.canDrive ctrl.val .errorFrame).drive) ∧
      (frame.fdf = true → u.flag (F.IO_CAN_CTRL_FD_EN ctrl.val) = false →
        exec (.canFrameReceive dt ctrl frame) s = .next ((u.canDrive ctrl.val .none).violation (0x10 + ctrl.val) 0x5A (leBytes 4 frame.ident.toNat)).drive) ∧
      (∀ tec rec : Byte, u.get (F.IO_CAN_STAT_STATE ctrl.val) = 0 → exec (.canErrorPassive dt ctrl tec rec) s =
        .next ((((u.set (F.IO_CAN_STAT_TEC ctrl.val) tec.toNat).set (F.IO_CAN_STAT_REC ctrl.val) rec.toNat).set (F.IO_CAN_STAT_STATE ctrl.val) 1).violation (0x10 + ctrl.val) 0x58 [tec, rec]).drive) ∧
      (∀ tec : Byte, exec (.canBusOff dt ctrl tec) s =
        .next (((u.set (F.IO_CAN_STAT_TEC ctrl.val) tec.toNat).set (F.IO_CAN_STAT_STATE ctrl.val) 2).violation (0x10 + ctrl.val) 0x59 [tec]).drive)) ∧
    (∀ ctrl : Fin 2, u.get (F.IO_CAN_STAT_STATE ctrl.val) = 2 → exec (.canBusOffRecovery dt ctrl) s =
      .next (((u.set (F.IO_CAN_STAT_STATE ctrl.val) 0).set (F.IO_CAN_STAT_TEC ctrl.val) 0).set (F.IO_CAN_STAT_REC ctrl.val) 0).drive) ∧
    (∀ stream : Fin 48, u.flag (F.IG_SCFG_EN stream.val) = true → u.packetLate stream.val = true → (u.stream stream.val).ovrPend = false →
      (u.kindOf stream.val ≤ 2 → exec (.packetTimeout dt stream) s = .next (u.truncate stream.val 0x01 (u.payloadDetail stream.val)).drive) ∧
      (∀ p : OpenPacket, 3 ≤ u.kindOf stream.val → (u.stream stream.val).open_ = some p → exec (.packetTimeout dt stream) s = .next ((u.closeRecords stream.val).touch stream.val).drive) ∧
      (u.kindOf stream.val = 3 → (u.stream stream.val).open_ = none → 0 < u.freeUnits stream.val → exec (.packetTimeout dt stream) s = .next ((u.emptyPacket stream.val).touch stream.val).drive)) ∧
    (∀ stream : Fin 48, (u.stream stream.val).ovrPend = true → 0 < u.freeUnits stream.val →
      exec (.overrunClose dt stream) s = .next (((u.closeEarly stream.val true).streamViol stream.val 0x03 (u.payloadDetail stream.val)).enterResync stream.val).drive)

/-- A frame on an enabled MAC with its link up is judged by length, FCS and Ethertype; gate lists and the link move (R395, R397, R398). -/
def Obligations.EthernetCommandsComplete : Prop :=
  ∀ (dt : Nat) (s u : State) (mac : Fin 4), u = s.elapse dt →
    (∀ (frame : Bytes) (hwTs : Bool) (delay : Option Int) (q : Fin 8), u.running = true → u.flag (F.EN_M_CFG_EN mac.val) = true → bitOf (u.get F.EN_STATUS) mac.val = true →
      (frame.length < 64 ∨ 9018 < frame.length → exec (.ethFrameReceive dt mac frame hwTs delay q) s = .next (u.violation (0x08 + mac.val) 0x29 (leBytes 2 frame.length)).drive) ∧
      (64 ≤ frame.length → frame.length ≤ 9018 → fieldB frame (frame.length - 4) 4 ≠ crc32 (frame.take (frame.length - 4)) →
        exec (.ethFrameReceive dt mac frame hwTs delay q) s = .next ((u.incSat (F.EN_M_FCS_ERR mac.val)).violation (0x08 + mac.val) 0x28 (leBytes 2 frame.length)).drive) ∧
      (64 ≤ frame.length → frame.length ≤ 9018 → fieldB frame (frame.length - 4) 4 = crc32 (frame.take (frame.length - 4)) →
        exec (.ethFrameReceive dt mac frame hwTs delay q) s = .next (State.drive (match (etherBody frame).1 with
          | 0x0800 => u.ipFrame mac.val (etherBody frame).2
          | 0x0806 => u.arpFrame mac.val (etherBody frame).2
          | 0x88F7 => if u.isPtpMac mac.val = false then u.rxDrop mac.val else u.ptpFrame mac.val (etherBody frame).2 hwTs q.val delay
          | _ => u.rxDrop mac.val)))) ∧
    (u.get (F.EN_M_GCL mac.val) ≠ 0 → exec (.gateIntervalExpiry dt mac) s = .next (State.drive { u with en := { u.en with gates := setAt u.en.gates mac.val (u.gateNow mac.val).1 } })) ∧
    (∀ lanes : Byte, bitOf (u.get F.EN_STATUS) mac.val = false →
      exec (.ethLinkChange dt mac true lanes) s = .next ((u.set F.EN_STATUS (putBit (u.get F.EN_STATUS) mac.val true)).statusSource (0x27 + mac.val) true).drive) ∧
    (∀ lanes : Byte, bitOf (u.get F.EN_STATUS) mac.val = true → exec (.ethLinkChange dt mac false lanes) s =
      .next (((((u.set F.EN_STATUS (putBit (u.get F.EN_STATUS) mac.val false)).statusSource (0x27 + mac.val) false).violation (0x08 + mac.val) 0x2B [lanes]).raise 0x1B0).advanceEmission true).parkCheck.drive)

/-- Fusion: a packet is taken up, a set starts, a result seals by watermark or by deadline and is voted, and emission goes on when a queue or a slot is free (R45, R67, R86, R91, R94, R98, R112, R383, R397). -/
def Obligations.FusionCommandsComplete : Prop :=
  ∀ (dt : Nat) (s u : State), u = s.elapse dt →
    (∀ (stream : Fin 48) (p : Packet), u.fusionOn = true → (u.stream stream.val).fifo.find? (fun p => !p.taken) = some p →
      (p.trunc = false → p.stamp < u.get64 (F.FU_WM_LO stream.val) (F.FU_WM_HI stream.val) → u.lateAgain p = false → exec (.packetTakeUp dt stream false) s =
        .next (((u.outOfOrder p).mapPacket stream.val p.seqNo (fun q => { q with taken := true })).discardPacket p).drive) ∧
      (p.trunc = false → u.get64 (F.FU_WM_LO stream.val) (F.FU_WM_HI stream.val) ≤ p.stamp → exec (.packetTakeUp dt stream false) s =
        .next (((u.putFuStream stream.val { u.fuStream stream.val with caught := u.thy.backs }).mapPacket stream.val p.seqNo (fun q => { q with taken := true })).inOrder { p with taken := true }).drive) ∧
      (p.trunc = false → p.stamp < u.get64 (F.FU_WM_LO stream.val) (F.FU_WM_HI stream.val) → u.lateAgain p = true → exec (.packetTakeUp dt stream false) s =
        .next ((u.mapPacket stream.val p.seqNo (fun q => { q with taken := true })).inOrder { p with taken := true }).drive) ∧
      (p.trunc = true → exec (.packetTakeUp dt stream false) s = .next (((u.openHole stream.val).mapPacket stream.val p.seqNo (fun q => { q with taken := true })).discardPacket p).drive) ∧
      (exec (.packetTakeUp dt stream true) s = .next ((((u.incSat (F.IG_CRC_FAIL stream.val)).streamViol stream.val 0x07 (leBytes 4 p.seqNo)).mapPacket stream.val p.seqNo
        (fun q => { q with taken := true })).discardPacket p).drive)) ∧
    (∀ rs : Fin 4, u.running = true → u.get (F.FU_RS_STAT_STATE rs.val) = 1 → u.startHeld = false → u.jobHeld rs.val = false →
      exec (.resultSetStart dt rs) s = .next (u.startSet rs.val).drive) ∧
    (∀ c : Nat, u.thy.holdStart = some c → u.startHeld = true → u.get F.TB_CFG_START_TIMEOUT * 10 ^ 9 ≤ (u.thy.counter + 2 ^ 64 - c) % 2 ^ 64 →
      exec (.startWaitTimeout dt) s = .next ((((State.tryStart { u with thy := { u.thy with holdOver := true } } 0).tryStart 1).tryStart 2).tryStart 3).drive) ∧
    (∀ (rs : Fin 4) (ue : Option UeReport), u.fusionOn = true → u.rsRuns rs.val = true → (u.fuSet rs.val).sealAt ≠ some u.thy.counter →
      (u.watermarkReady rs.val (u.fuSet rs.val).k = true → exec (.watermarkSeal dt ⟨rs, ue⟩) s = .next (u.sealResult rs.val (u.fuSet rs.val).k 0 ue).parkCheck.drive) ∧
      (u.watermarkReady rs.val (u.fuSet rs.val).k = false → u.instant rs.val (u.fuSet rs.val).k + u.get (F.FU_RS_H rs.val) ≤ u.now →
        exec (.deadlineSeal dt ⟨rs, ue⟩) s = .next (u.sealResult rs.val (u.fuSet rs.val).k 1 ue).parkCheck.drive)) ∧
    (∀ (rs : Fin 4) (r : Result), u.fusionOn = true → u.result? rs.val (u.fuSet rs.val).next = some r → u.fu.emit = none → r.emitted = false → (r.sealCode = 2 ∨ u.listsDone rs.val r.k = true) →
      u.voteTurn rs.val r = true →
      exec (.resultVote dt rs) s = .next (u.voteResult r).parkCheck.drive) ∧
    (∀ (mac : Fin 4) (sent : Nat), exec (.egressQueueRoom dt mac sent) s = .next ((u.transmit mac.val sent).advanceEmission true).parkCheck.drive) ∧
    (∀ (rs : Fin 4) (slot : Fin 4096), u.hp.reading = some (rs.val, slot.val) →
      exec (.slotOverwriteAfterRead dt rs slot) s = .next ((State.advanceEmission { u with hp := { u.hp with reading := none } } false).parkCheck).drive)

/-- The command at hand of a queue's instance is run by its engine when nothing holds it, its effect is its body's, and its instance goes on with the next command (R251, R255, R256): loads, stores, copies, the matrix, vector, attention, point and query engines, fusion reads, solves, collectives, descriptors. `j` is the instance with the descriptors the command names read once (R184), `v` the state that holds it. A POINT_BUILD begins its build, whose last stage completes it (R139). -/
def Obligations.EngineCommandsComplete : Prop :=
  ∀ (dt : Nat) (s u : State) (c : QCmd) (i : Inst) (r : Bytes), u = s.elapse dt → r = u.nextCmd i →
    ∀ (j : Inst) (v : State),
    (u.atCommand c .load i → j = u.takenUp i .load r → v = u.setInst j → (v.loadBody j r).2 = .done → exec (.load dt c) s = .next ((v.loadBody j r).1.cmdOut c .load j r .done).parkCheck.drive) ∧
    (u.atCommand c .store i → j = u.takenUp i .store r → v = u.setInst j → (v.storeBody j r).2 = .done → exec (.store dt c) s = .next ((v.storeBody j r).1.cmdOut c .store j r .done).parkCheck.drive) ∧
    (u.atCommand c .matmul i → j = u.takenUp i .matmul r → v = u.setInst j → (v.matmulBody r).2 = .done → exec (.matmul dt c) s = .next ((v.matmulBody r).1.cmdOut c .matmul j r .done).parkCheck.drive) ∧
    (u.atCommand c .vector i → j = u.takenUp i .vector r → v = u.setInst j → (v.vectorBody r).2 = .done → exec (.vector dt c) s = .next ((v.vectorBody r).1.cmdOut c .vector j r .done).parkCheck.drive) ∧
    (u.atCommand c .attend i → j = u.takenUp i .attend r → v = u.setInst j → (v.attendBody j r).2 = .done → exec (.attend dt c) s = .next ((v.attendBody j r).1.cmdOut c .attend j r .done).parkCheck.drive) ∧
    (u.atCommand c .pointBuild i → j = u.takenUp i .pointBuild r → v = u.setInst j → (v.pointBuildBody j r).2 = .busy → exec (.pointBuild dt c) s = .next ((v.pointBuildBody j r).1.cmdOut c .pointBuild j r .busy).parkCheck.drive) ∧
    (u.atCommand c .query i → j = u.takenUp i .query r → v = u.setInst j → (v.queryBody j r).2 = .done → exec (.query dt c) s = .next ((v.queryBody j r).1.cmdOut c .query j r .done).parkCheck.drive) ∧
    (u.atCommand c .fuse i → j = u.takenUp i .fuse r → v = u.setInst j → (v.fuseBody j r).2 = .done → exec (.fuse dt c) s = .next ((v.fuseBody j r).1.cmdOut c .fuse j r .done).parkCheck.drive) ∧
    (u.atCommand c .solve i → j = u.takenUp i .solve r → v = u.setInst j → (v.solveBody j r).2 = .done → exec (.solve dt c) s = .next ((v.solveBody j r).1.cmdOut c .solve j r .done).parkCheck.drive) ∧
    (u.atCommand c .copy i → j = u.takenUp i .copy r → v = u.setInst j → (v.copyBody j r).2 = .done → exec (.copy dt c) s = .next ((v.copyBody j r).1.cmdOut c .copy j r .done).parkCheck.drive) ∧
    (u.atCommand c .collect i → j = u.takenUp i .collect r → v = u.setInst j → (v.collectBody j r).2 = .done → exec (.collect dt c) s = .next ((v.collectBody j r).1.cmdOut c .collect j r .done).parkCheck.drive) ∧
    (u.atCommand c .createDesc i → j = u.takenUp i .createDesc r → v = u.setInst j → (v.createBody j r).2 = .done → exec (.createDesc dt c) s = .next ((v.createBody j r).1.cmdOut c .createDesc j r .done).parkCheck.drive)

/-- Fences, semaphores, branches and ends of lists (R255, R261, R262, R263, R264): the command has its effect and its instance goes on, jumps, or ends. -/
def Obligations.ListControlCommandsComplete : Prop :=
  ∀ (dt : Nat) (s u : State) (c : QCmd) (i : Inst) (r : Bytes), u = s.elapse dt → r = u.nextCmd i →
    (∀ (op : Opcode) (j : Inst) (v : State), u.atCommand c op i → j = u.takenUp i op r → v = u.setInst j →
      (op = .waitFence → v.fenceReached (fenceOf r) (fenceValue r j) = true → exec (.waitFence dt c) s = .next (v.cmdOut c op j r .done).parkCheck.drive) ∧
      (op = .signalFence → bitOf (fieldB r 10 1) 0 = false → exec (.signalFence dt c) s = .next ((v.fenceAdd (fenceOf r) (fieldB r 16 8)).cmdOut c op j r .done).parkCheck.drive) ∧
      (op = .signalFence → bitOf (fieldB r 10 1) 0 = true → exec (.signalFence dt c) s = .next ((v.fenceSet (fenceOf r) (fenceValue r j)).cmdOut c op j r .done).parkCheck.drive) ∧
      (op = .semAcquire → fieldB r 10 2 ≤ v.sem (fieldB r 8 1) → v.acquirers (fieldB r 8 1) = [] → exec (.semAcquire dt c) s =
        .next (((v.set (F.CL_SEM (fieldB r 8 1)) (v.sem (fieldB r 8 1) - fieldB r 10 2)).setInst { j with sems := j.sems ++ [(fieldB r 8 1, fieldB r 10 2)] }).cmdOut c op j r .done).parkCheck.drive) ∧
      (op = .semRelease → exec (.semRelease dt c) s =
        .next ((((v.setInst { j with sems := lessHeld (fieldB r 8 1) (fieldB r 10 2) j.sems }).semRelease (fieldB r 8 1) (fieldB r 10 2)).serve (fieldB r 8 1) 96).cmdOut c op j r .done).parkCheck.drive) ∧
      (op = .branchVariant → bitOf (fieldB r 10 1) 0 = false → v.boundVariant j (bitsOf (fieldB r 12 1) 0 4) ≠ 0 →
        exec (.branchVariant dt c) s = .next (v.cmdOut c op j r (.jump (fieldB r 8 2))).parkCheck.drive) ∧
      (op = .branchVariant → bitOf (fieldB r 10 1) 0 = false → v.boundVariant j (bitsOf (fieldB r 12 1) 0 4) = 0 →
        exec (.branchVariant dt c) s = .next (v.cmdOut c op j r .done).parkCheck.drive) ∧
      (op = .branchVariant → bitOf (fieldB r 10 1) 0 = true → v.boundVariant j (bitsOf (fieldB r 12 1) 0 4) = fieldB r 11 1 →
        exec (.branchVariant dt c) s = .next (v.cmdOut c op j r (.jump (fieldB r 8 2))).parkCheck.drive) ∧
      (op = .branchVariant → bitOf (fieldB r 10 1) 0 = true → v.boundVariant j (bitsOf (fieldB r 12 1) 0 4) ≠ fieldB r 11 1 →
        exec (.branchVariant dt c) s = .next (v.cmdOut c op j r .done).parkCheck.drive) ∧
      (op = .end_ → exec (.endList dt c) s = .next ((v.endBuild j.list (bitOf (fieldB r 8 1) 0)).cmdOut c op j r .ended).parkCheck.drive)) ∧
    (∀ f v : Nat, u.instOn c.eng.val c.q.val = some i → i.wait = some (.fence f v) → u.ctxHeld (u.runHdr i).ctx = false → u.fenceReached f v = true →
      exec (.waitSatisfied dt c) s = .next ((u.advance i (i.cmd + 1)).settle false).drive) ∧
    (∀ n k : Nat, u.instOn c.eng.val c.q.val = some i → i.wait = some (.sem n k) → u.ctxHeld (u.runHdr i).ctx = false → k ≤ u.sem n →
      exec (.waitSatisfied dt c) s = .next ((u.serve n 96).settle false).drive) ∧
    (u.instOn c.eng.val c.q.val = some i → i.wait = some .corridorOrder → u.orderOver i = true → u.ctxHeld (u.runHdr i).ctx = false → exec (.corridorOrderWaitEnd dt c) s =
      .next (((u.countOrderWait i.list).rerun i).runCmd c .attend (fun s i r => s.attendBody i r)).drive) ∧
    (∀ p t w : Nat, u.instOn c.eng.val c.q.val = some i → i.wait = some (.solveRead p t) → (u.prob p).wm = some w → t ≤ w → u.ctxHeld (u.runHdr i).ctx = false →
      exec (.solveReadDataReady dt c) s = .next ((u.rerun i).runCmd c .solve (fun s i r => s.solveBody i r)).drive)

/-- A build passes its stages in order, and lists become ready at their times (R50, R139, R252, R253). -/
def Obligations.StageAndTriggerCommandsComplete : Prop :=
  ∀ (dt : Nat) (s u : State), u = s.elapse dt →
    (∀ b : PtBuild, u.pt = some b → u.ctxHeld (u.listHdr b.owner).ctx = false →
      (u.get F.PT_STATUS_STAGE = 1 → exec (.ingestDone dt) s = .next (u.ingestBuild b).drive) ∧
      (u.get F.PT_STATUS_STAGE = 2 → exec (.sortDone dt) s = .next (u.sortBuild b).drive) ∧
      (u.get F.PT_STATUS_STAGE = 3 → exec (.leafPassDone dt) s = .next (u.leafBuild b).drive) ∧
      (∀ i : Inst, u.get F.PT_STATUS_STAGE = 4 → (u.interiorBuild b).inst? b.owner = some i → opcodeOf ((u.interiorBuild b).nextCmd i) = some .pointBuild →
        exec (.interiorDone dt) s = .next ((u.interiorBuild b).finish i.list .done).drive)) ∧
    (∀ (list : Fin 4095) (t : Nat), u.running = true → assocGet list.val u.cl.fires = some t → t ≤ u.cycleNow → exec (.listTimeTrigger dt list) s =
      .next ((State.occur { u with cl := { u.cl with fires := assocPut list.val (t + (u.listHdr list.val).period) u.cl.fires } } list.val 1).settle false).drive) ∧
    (∀ (list : Fin 4095) (o : Occ) (os : List Occ), u.running = true → u.occsOf list.val = o :: os → (u.listHdr list.val).kind = 1 →
      o.sealTime + (u.listHdr list.val).batchWait ≤ u.now → exec (.batchWaitExpiry dt list) s = .next (u.settle false).drive)

/-- Marjoram's ticks, timeouts, samples and caps (R267, R270, R272 to R276). -/
def Obligations.MarjoramCommandsComplete : Prop :=
  ∀ (dt : Nat) (s u : State), u = s.elapse dt →
    (u.running = true → exec (.energyTick dt) s = .next (((u.set F.MJ_POWER_MW (Config.measuredPower u.freeCtr)).nextFree).settle true).drive) ∧
    (∀ (list : Fin 4095) (i : Inst), u.inst? list.val = some i → i.phase = .ready → (u.listHdr i.list).cls = 0 → u.slackLeft i = 0 →
      exec (.class0SlackExpiry dt list) s = .next (u.settle true).drive) ∧
    (∀ (list : Fin 4095) (i : Inst), u.inst? list.val = some i → i.phase = .ready → i.deferred = true → (u.listHdr i.list).cls ≠ 0 →
      i.readyAt + u.get F.MJ_STARVE * 1000 ≤ u.now → u.starver (u.listHdr i.list).cls = none →
      exec (.starveTimeout dt list) s = .next (u.setStarver (u.listHdr i.list).cls (some i.list)).drive) ∧
    (∀ c : Nat, u.mj.debtSince = some c → u.mj.debtTold = false → c + u.get F.MJ_WINDOW * 10 ^ 6 < u.now → exec (.energyDebtTimeout dt) s =
      .next ((((u.setMj (fun m => { m with debtTold := true })).raise 0x168).safetyLog (SafetyRec.of 0x36 1)).raise 0x174).drive) ∧
    (∀ temps : List (Option Int), u.running = true → exec (.zoneSample dt temps) s =
      .next ((List.range 64).foldl (fun s i => s.sampleSensor i (temps.getD i none)) u).refreshZones.drive) ∧
    (∀ sensor : Fin 64, u.running = true → u.mj.sampled.getD sensor.val 0 + 100000 ≤ u.now → u.flag (F.MJ_SENSOR_BAD_FLD sensor.val) = false →
      exec (.sensorSampleTimeout dt sensor) s = .next ((u.sensorBad sensor.val (u.mj.temps.getD sensor.val 0)).refreshZones).drive) ∧
    (∀ (c : Fin 8) (v : Word), u.running = true → 60000 ≤ v.toNat → v.toNat ≤ 300000 → u.get F.MJ_BASE_MW + 10000 ≤ v.toNat →
      exec (.capWrite dt c v) s = .next ((u.set F.MJ_CAP_MW v.toNat).setMj (fun m => { m with pendingCap := some v.toNat })).drive) ∧
    (∀ (c : Fin 8) (v : Word), u.running = true → cleanWrite F.MJ_CAP_MW.addr v = true → v.toNat < 60000 ∨ 300000 < v.toNat →
      exec (.capWrite dt c v) s = .next ((u.incSat F.MJ_CAP_REJ).raise 0x16A).drive)

/-- Tiles change their points, spill and reload buffers, vaults remap and scrub, mesh messages pass in their flows' order (R160, R162, R164, R167 to R169). -/
def Obligations.TileCommandsComplete : Prop :=
  ∀ (dt : Nat) (s u : State), u = s.elapse dt →
    (∀ (tile : Fin 144) (temp : BitVec 8), u.running = true → tile.val < u.tiles →
      exec (.tileTempSample dt tile temp) s = .next ((u.set (F.TL_T_STAT_TEMP tile.val) temp.toNat).retarget tile.val).drive) ∧
    (∀ (tile : Fin 144) (settled : Bool) (c : OpChange), u.tl.opChanges.find? (fun c => c.tile == tile.val) = some c → c.start + 1500 ≤ u.now →
      (settled = true → exec (.opChangeDone dt tile settled) s = .next ((((u.setTl (fun t => { t with opChanges := t.opChanges.filter (fun x => x.tile != c.tile) })).set
        (F.TL_T_STAT_OP c.tile) c.target).incWrap (F.TL_T_OPCHG c.tile)).retarget c.tile).drive) ∧
      (settled = false → exec (.opChangeDone dt tile settled) s = .next (((u.setTl (fun t => { t with opChanges := t.opChanges.filter (fun x => x.tile != c.tile) })).set
        (F.TL_T_STAT_OP c.tile) (min c.target (u.get (F.TL_T_STAT_OP c.tile)))).incWrap (F.TL_T_OPCHG c.tile)).drive)) ∧
    (∀ tile : Fin 144, u.running = true → markBytes (u.get F.TL_SPILL_CFG_HIGH) < u.sramAfter tile.val → assocGet tile.val u.tl.stalls = none →
      exec (.autonomousSpill dt tile) s = .next (u.spill tile.val).drive) ∧
    (∀ (tile : Fin 144) (offset : Nat) (b : SramBuf), u.bufAt tile.val offset = some b → b.phase = .leaving → exec (.spillOutComplete dt tile offset) s =
      .next (((((u.dramWrite (u.spillAddr tile.val b.spill) (u.sramRead tile.val b.ofs b.len)).putBuf { b with phase := .spilled }).set (F.TL_SPILL_OUT tile.val)
        ((u.dramWrite (u.spillAddr tile.val b.spill) (u.sramRead tile.val b.ofs b.len)).get (F.TL_SPILL_OUT tile.val) + cdiv b.len 64)).settleMark tile.val)).drive) ∧
    (∀ (tile : Fin 144) (offset : Nat) (b : SramBuf), u.bufAt tile.val offset = some b → b.phase = .returning → exec (.reloadComplete dt tile offset) s =
      .next ((((u.sramWrite tile.val b.ofs (u.dramRead (u.spillAddr tile.val b.spill) b.len)).putBuf { b with phase := .present }).set (F.TL_SPILL_IN tile.val)
        (u.get (F.TL_SPILL_IN tile.val) + cdiv b.len 64))).drive) ∧
    (∀ (vault : Fin 144) (layer : Fin 4) (row : Nat), u.running = true → u.get F.TL_CE_LIMIT ≤ (assocGet (rowKey vault.val layer.val row) u.tl.rowCe).getD 0 →
      rowKey vault.val layer.val row ∉ u.tl.denied → exec (.vaultRowRemap dt vault layer row) s = .next (u.remapRow vault.val layer.val row).drive) ∧
    (∀ (vault : Fin 144) (offset row : Nat), u.running = true → u.get F.TL_SCRUB_CFG ≠ 0 →
      exec (.vaultScrub dt vault offset (.corrected row)) s = .next (u.vaultCe vault.val (offset / 2 ^ 26) row).drive ∧
      exec (.vaultScrub dt vault offset .uncorrectable) s = .next (u.recordUe none 0 vault.val (vault.val * 2 ^ 28 + offset)).drive) ∧
    (∀ m : MeshMsg, u.running = true → u.tooOld m = false → m.seqNo.toNat = u.flowDue (msgFlow m) →
      exec (.meshMessageArrival dt m) s = .next (u.passFlow m false (u.tl.early.length + 1)).drive) ∧
    (∀ m : MeshMsg, u.running = true → u.tooOld m = true → exec (.meshReplyRetire dt m) s = .next ((u.incSat F.TL_MESH_RETIRED).meshOrder m true).drive)

/-- Tarragon's ticks arise, become ready or run short, and its kernel steps complete or stop at the budget (R229 to R233, R238). -/
def Obligations.TarragonCommandsComplete : Prop :=
  ∀ (dt : Nat) (s u : State), u = s.elapse dt →
    (∀ (p : Fin 32) (t0 : Nat), u.running = true → (u.prob p.val).t0 = some t0 → t0 + (u.prob p.val).next * u.get (F.SV_P_PERIOD p.val) ≤ u.now →
      exec (.tickReady dt p) s = .next ((u.putProb p.val { u.prob p.val with next := (u.prob p.val).next + 1 }).addTick p.val (u.prob p.val).next
        (t0 + (u.prob p.val).next * u.get (F.SV_P_PERIOD p.val)) 0 none).drive) ∧
    (∀ (p : Fin 32) (k : SvTick), u.headTick p.val = some k → (k.ready = true ∨ u.inputsPast p.val k.t = true) → exec (.tickInputsReady dt p) s = .next (u.readyTick p.val k).drive) ∧
    (∀ (p : Fin 32) (k : SvTick), u.headTick p.val = some k → k.ready = false → u.inputsPast p.val k.t = false → k.t + u.get (F.SV_P_WAIT p.val) ≤ u.now →
      exec (.tickShort dt p) s = .next ((u.incSat (F.SV_P_STOPS_SHORT p.val)).readyTick p.val { k with short := true }).drive) ∧
    (∀ (stall p : Nat) (k : SvTick), u.sv.cur = some p → u.headTick p = some k → k.cycles + (u.stepCycles p k k.pos + stall) ≤ u.get (F.SV_P_BUDGET p) →
      exec (.kernelStepComplete dt stall none) s = .next (u.stepDone p k (u.stepCycles p k k.pos + stall)).drive) ∧
    (∀ (p : Fin 32) (k : SvTick), u.sv.cur = some p.val → u.headTick p.val = some k → exec (.solverBudgetStop dt p) s = .next ((u.stopTick p.val k).completeSolve k).drive)

/-- Control outputs and captures: duties applied, triggers fired and ended, times pushed, edges captured, captures popped (R49, R50, R241, R243, R244). -/
def Obligations.ControlOutputCommandsComplete : Prop :=
  ∀ (dt : Nat) (s u : State), u = s.elapse dt →
    (∀ w : Fin 12, u.flag (F.IO_PWM_CFG_EN w.val) = true → (u.flag (F.IO_PWM_CFG_PAIR (w.val / 2 * 2)) = false ∨ w.val % 2 = 0) → exec (.pwmPeriodBoundary dt w) s = .next (u.applyTicks w.val (u.dueCount w.val)).drive) ∧
    (∀ (o : Fin 16) (t : Nat), u.running = true → u.flag (F.IO_TRG_CFG_EN o.val) = true → u.flag (F.IO_TRG_CFG_PERIODIC o.val) = true → assocGet o.val u.io.next = some t → t ≤ u.cycleNow →
      exec (.triggerFire dt o) s = .next ((u.setIo (fun x => { x with next := assocPut o.val (t + u.get (F.IO_TRG_PERIOD o.val)) x.next })).fireTime o.val t false).drive) ∧
    (∀ (o : Fin 16) (x : TrgTime), u.running = true → u.flag (F.IO_TRG_CFG_EN o.val) = true → u.flag (F.IO_TRG_CFG_PERIODIC o.val) = false → u.dueQueued o.val = some x →
      exec (.triggerFire dt o) s = .next (((u.setIo (fun y => { y with queue := removeOne x y.queue })).refreshQueued o.val).fireTime o.val x.time x.late).drive) ∧
    (∀ (o : Fin 16) (t : Nat), assocGet o.val u.io.pulses = some t → t ≤ u.now →
      exec (.triggerPulseEnd dt o) s = .next (u.setIo (fun x => { x with pulses := assocDrop o.val x.pulses })).drive) ∧
    (∀ (c : Fin 8) (o : Fin 16) (hi : Word), u.running = true → u.flag (F.IO_TRG_CFG_SRC o.val) = false → exec (.triggerTimePush dt c o hi) s =
      .next ((u.set (F.IO_TRG_TIME_HI o.val) hi.toNat).pushTrigger o.val ((u.set (F.IO_TRG_TIME_HI o.val) hi.toNat).get64 (F.IO_TRG_TIME_LO o.val) (F.IO_TRG_TIME_HI o.val))).drive) ∧
    (∀ (line : Fin 16) (rising : Bool) (q : Fin 8) (held : Nat), u.running = true → u.edgeEnabled line.val rising = true → 10 * u.get (F.IO_CAP_CFG_FILT line.val) ≤ held →
      exec (.captureEdge dt line rising ⟨q, held⟩) s = .next ((u.feedCapture line.val (u.edgeValue q.val (10 * u.get (F.IO_CAP_CFG_FILT line.val)) / 4) 48).storeCapture line.val
        ⟨u.edgeValue q.val (10 * u.get (F.IO_CAP_CFG_FILT line.val)), rising⟩).drive) ∧
    (∀ (c : Fin 8) (cap : Fin 16), u.running = true → exec (.ioCapPopLoRead dt (.core c) cap) s =
      .next ((u.popCapture (c.val + 1) cap.val).coreReturn c.val (captureLo (u.oldestCapture cap.val))).drive) ∧
    (∀ cap : Fin 16, u.hostReaches → exec (.ioCapPopLoRead dt .host cap) s =
      .next ((u.popCapture 0 cap.val).hostReply 0x0B 0 0 (leBytes 4 (captureLo (u.oldestCapture cap.val)).toNat)).drive)

/-- The event controller: status sources, coalescing, deliveries, claims, completions, masks, the global hold, software events and fence watchers (R281, R283, R285, R287 to R290, R293). -/
def Obligations.EventCommandsComplete : Prop :=
  ∀ (dt : Nat) (s u : State), u = s.elapse dt →
    (∀ (src : Fin 1024) (level : Bool), isStatusSource src.val = true → u.parked = false → exec (.statusSourceChange dt src level) s = .next (u.statusSource src.val level).drive) ∧
    (∀ (src : Fin 1024) (c : Nat), u.get (F.EV_S_STAT_STATE src.val) = 1 → u.get (F.EV_S_COAL_TIME_US src.val) ≠ 0 → assocGet src.val u.ev.starts = some c →
      c + u.get (F.EV_S_COAL_TIME_US src.val) * 1000 ≤ u.thy.counter → exec (.coalesceTimeout dt src) s = .next (u.evSetState src.val 2).drive) ∧
    (∀ mie : BitVec 8, u.flag F.EV_GLOBAL = false → exec (.eventDelivery dt mie) s =
      .next (u.deliverAll mie.toNat (u.ranked (fun src => u.get (F.EV_S_CFG_TARGET src) != 0)) []).drive) ∧
    (∀ (c : Fin 8) (h : EvHeld), u.running = true → (u.evCore c.val).held = some h →
      exec (.evCClaimRead dt (.core c) c) s = .next ((u.claimHeld c.val h).coreReturn c.val (u.claimWord h)).drive) ∧
    (∀ (c d : Fin 8) (h : EvHeld), u.running = true → (u.evCore c.val).held = some h → d ≠ c →
      exec (.evCClaimRead dt (.core d) c) s = .next (u.coreReturn d.val (u.claimWord h)).drive) ∧
    (∀ (c : Fin 8) (v : Word) (rest : List Nat), u.running = true → cleanWrite (F.EV_C_COMPLETE c.val).addr v = true → (u.evCore c.val).active = v.toNat % 1024 :: rest →
      exec (.eventComplete dt c c v) s = .next (((u.setEvCore c.val { u.evCore c.val with active := rest }).completeSource (v.toNat % 1024)).showLevel c.val).drive) ∧
    (∀ (c d : Fin 8) (v : Word), u.running = true → cleanWrite (F.EV_C_COMPLETE d.val).addr v = true → c ≠ d → exec (.eventComplete dt c d v) s = .next (u.incSat (F.EV_C_COMPLETE_BAD d.val)).drive) ∧
    (∀ (pin : Fin 2), u.hostReaches → exec (.evHCauseRead dt .host pin) s = .next ((u.claimPin pin.val).hostReply 0x0B 0 0 (leBytes 4 (u.causeWord pin.val).toNat)).drive) ∧
    (∀ (c : Fin 8) (pin : Fin 2), u.running = true → exec (.evHCauseRead dt (.core c) pin) s = .next (u.coreReturn c.val (u.causeWord pin.val)).drive) ∧
    (∀ (c : Fin 8) (v : Word), u.running = true → v.toNat < 2 → exec (.evGlobalWrite dt c v) s = .next (u.set F.EV_GLOBAL v.toNat).drive) ∧
    (∀ (c : Fin 8) (w : Fin 32) (v : Word), u.running = true → exec (.evMaskWrite dt c w v) s = .next (u.maskWrite c.val w.val v).drive) ∧
    (∀ c : Fin 8, u.running = true → exec (.evSyncRead dt (.core c)) s = .next ((u.clearLate (c.val + 1)).coreReturn c.val (BitVec.ofNat 32 (u.ev.late.getD (c.val + 1) 0))).drive) ∧
    (∀ (c : Fin 8) (v : Word), u.running = true → v.toNat < 128 → exec (.softwareEvent dt c v) s = .next (u.raise (0x300 + v.toNat)).drive) ∧
    (∀ (c : Fin 8) (w : Fin 64) (hi : Word), u.running = true → exec (.fenceWatcherArm dt c w hi) s = .next (u.watchWrite w.val hi).drive)

/-- Chervil: supervision and lockstep, budget stops and their drains, result deadlines, clock, voltage and temperature monitors (R297 to R306). -/
def Obligations.SupervisionCommandsComplete : Prop :=
  ∀ (dt : Nat) (s u : State), u = s.elapse dt →
    (u.running = true → u.sf.phase = .off → exec (.supervisionPass dt) s = .next ((u.beginSupervision).countPass).drive) ∧
    (u.running = true → u.sf.phase = .supervising → exec (.supervisionPass dt) s = .next (((List.range u.tiles).foldl State.judgeCe u).countPass).drive) ∧
    (u.running = true → exec (.lockstepMismatch dt) s = .next (u.fatal (SafetyRec.of 0x50 2)).drive) ∧
    (∀ (c : QCmd) (i : Inst) (op : Opcode), u.instOn c.eng.val c.q.val = some i → opcodeOf (u.nextCmd i) = some op → i.phase = .running → u.sliceHolds i op (u.nextCmd i) = false →
      u.ctxHeld (u.runHdr i).ctx = false → u.pastBudget i (cycleKeys c.eng.val op (u.nextCmd i)) c.cycles = true → c.ue = none →
      exec (.budgetStop dt c) s = .next (u.stopInst i).parkCheck.drive) ∧
    (∀ (c : QCmd) (d : StopDrain), u.sf.drains.find? (fun d => d.eng == c.eng.val && d.q == c.q.val) = some d → d.start + 100000 ≤ u.now → u.ctxReqs (some d.ctx) ≠ [] →
      exec (.budgetStopDrainTimeout dt c) s = .next ((((u.setSf (fun f => { f with drains := f.drains.filter (fun x => x != d) })).answerErrors d.ctx).ctxTriggerOf d.ctx 4 0).parkCheck).drive) ∧
    (∀ rs : Fin 4, u.running = true → u.sf.phase ≠ .fault → u.rsRuns rs.val = true → u.instant rs.val (u.fuSet rs.val).check + u.get (F.FU_RS_L rs.val) ≤ u.now →
      ((u.fuSet rs.val).check < (u.fuSet rs.val).next → exec (.resultDeadlineTest dt rs) s =
        .next ((u.putSet rs.val { u.fuSet rs.val with check := (u.fuSet rs.val).check + 1 }).set (F.SF_RS_LATE_RUN rs.val) 0).drive) ∧
      ((u.fuSet rs.val).next ≤ (u.fuSet rs.val).check → exec (.resultDeadlineTest dt rs) s =
        .next ((u.putSet rs.val { u.fuSet rs.val with check := (u.fuSet rs.val).check + 1 }).lateResult rs.val (u.fuSet rs.val).check
          (u.instant rs.val (u.fuSet rs.val).check + u.get (F.FU_RS_L rs.val)) (u.passedByStep (u.instant rs.val (u.fuSet rs.val).check + u.get (F.FU_RS_L rs.val)))).drive)) ∧
    (∀ (island : Fin 178) (khz d expected : Nat), u.islandClock island.val = some (d, expected) → u.running = true → u.domainOn d = true →
      exec (.clockMonitorWindow dt island khz false) s = .next (u.judgeClock island.val khz expected).drive) ∧
    (∀ (domain : Fin 56) (mv nominal : Nat), u.running = true → u.domainOn domain.val = true → nominal < 20 * (nominal - mv) + 20 * (mv - nominal) →
      exec (.voltageFault dt domain mv nominal) s = .next (u.fatal { SafetyRec.of 0x31 2 with object := domain.val, detail := mv, limit := nominal }).drive) ∧
    (∀ (sensor : Fin 64) (temp : Int), u.running = true → ((u.get F.SF_TJ_MAX : Nat) : Int) < temp → exec (.temperatureFault dt sensor temp) s =
      .next (u.fatal { SafetyRec.of 0x32 2 with object := zoneOfSensor sensor.val, detail := patternOf 32 temp, limit := u.get F.SF_TJ_MAX }).drive)

/-- Chervil's redundant work: shadow runs compared, golden runs judged, self-test slices attempted, ended, overrun (R307 to R312). -/
def Obligations.RedundancyCommandsComplete : Prop :=
  ∀ (dt : Nat) (s u : State), u = s.elapse dt → u.running = true →
    (∀ (rs : Fin 4) (behind : Bool) (a b g : Word) (x : ShadowRun), u.sf.shadow.find? (fun x => x.rs == rs.val) = some x → u.supervising = true → u.shadowReady x = true →
      exec (.shadowCompare dt rs behind a b g) s = .next (u.decideShadow x behind a b g).drive) ∧
    (∀ (crcs : List (Nat × Word)) (g : GoldRun), u.sf.golden = some g → u.supervising = true → g.running = true → exec (.goldenRunComplete dt crcs) s =
      .next (u.pooledRows.foldl (fun s r => match assocGet r crcs with | some v => s.judgeGolden r v.toNat | none => s)
        ((u.setSf (fun f => { f with golden := none })).incWrap F.SF_GOLD_RUNS)).drive) ∧
    (∀ zone : Fin 9, u.supervising = true → u.flag F.SF_CFG_ST_EN = true → assocGet zone.val u.sf.tries = none → u.sf.slices = [] →
      exec (.selfTestAttempt dt zone) s = .next ((u.setSf (fun f => { f with tries := assocPut zone.val u.now f.tries })).trySlice zone.val).drive) ∧
    (∀ (zone : Fin 9) (x : Slice), u.sf.slices.find? (fun x => x.zone == zone.val) = some x →
      exec (.selfTestSliceEnd dt zone true) s = .next (((((((u.endSlice zone.val).set (F.SF_ST_ZONE_SKIPS zone.val) 0).setFlag (F.SF_ST_ZONE_DEGRADED zone.val) false).refreshCover).nextSlice zone.val).incWrap
        (F.SF_ST_DONE zone.val))).drive ∧
      exec (.selfTestSliceEnd dt zone false) s = .next ((((((((u.endSlice zone.val).set (F.SF_ST_ZONE_SKIPS zone.val) 0).setFlag (F.SF_ST_ZONE_DEGRADED zone.val) false).refreshCover).nextSlice zone.val).incWrap
        (F.SF_ST_DONE zone.val))).failSlice x (sliceTile zone.val (u.get (F.SF_ST_ZONE_HEAD zone.val))).2).drive) ∧
    (∀ (zone : Fin 9) (x : Slice), u.sf.slices.find? (fun x => x.zone == zone.val) = some x → x.start + u.get F.SF_ST_SLICE * 1000 < u.now →
      exec (.selfTestSliceOverrun dt zone) s = .next (((u.endSlice zone.val).safetyLog
        { SafetyRec.of 0x03 1 with object := zone.val, detail := u.get F.SF_ST_SLICE * 600, limit := u.get F.SF_ST_SLICE * 600 }).raise 0x171).drive)

/-- Recovery: hangs, drains, windows, requests, records, aborts and backstops (R317 to R337). -/
def Obligations.RecoveryCommandsComplete : Prop :=
  ∀ (dt : Nat) (s u : State), u = s.elapse dt →
    (∀ (eng : Fin 6) (q : Fin 16) (i : Inst), u.running = true → u.instOn eng.val q.val = some i → i.phase = .running → i.wait = none →
      i.progressAt + u.get F.RC_HANG_MS * 1000000 ≤ u.now → u.ctxHeld (u.runHdr i).ctx = false →
      exec (.queueHang dt eng q) s = .next ((((u.incSat F.RC_HANGS).raise 0x180).ctxTriggerInst 1 i 0).parkCheck).drive) ∧
    (∀ rs : Fin 4, u.running = true → u.rsRuns rs.val = true → u.rc.fusionHeld = false → u.rc.devReset = none →
      u.instant rs.val (u.fuSet rs.val).k + u.get (F.FU_RS_H rs.val) + u.get F.RC_HANG_MS * 1000000 ≤ u.now →
      exec (.fusionHang dt rs) s = .next (((u.incSat F.RC_HANGS).raise 0x180).devTrigger 1 none true).drive) ∧
    (∀ (ctx : Fin 64) (x : CtxReset), u.ctxReset? ctx.val = some x → u.get (F.RC_CTX_STAT_STATE ctx.val) = 1 → x.start + 100000 ≤ u.now →
      exec (.contextDrainTimeout dt ctx) s = .next (((u.answerErrors ctx.val).ctxRemove ctx.val).parkCheck).drive) ∧
    (∀ (ctx : Fin 64) (x : CtxReset), u.ctxReset? ctx.val = some x → x.start + u.get F.RC_CTX_WINDOW * 1000 ≤ u.now →
      (x.settled = true → u.get (F.RC_CTX_STAT_STATE ctx.val) = 1 → u.covered ctx.val = false → exec (.contextWindowExpiry dt ctx) s = .next ((u.escalate ctx.val).parkCheck).drive)) ∧
    (∀ (c : Fin 8) (v : Word), u.running = true → cleanWrite F.RC_CTX_REQ_CTX.addr v = true → bitOf v.toNat 31 = true →
      exec (.contextResetRequest dt c v) s = .next ((u.ctxTriggerOf (bitsOf v.toNat 0 6) 7 0).parkCheck).drive) ∧
    (∀ (c : Fin 8) (v : Word), u.running = true → cleanWrite F.RC_PART_REQ_PART.addr v = true → bitOf v.toNat 31 = true → bitsOf v.toNat 0 4 < 12 → u.tilesOfPart (bitsOf v.toNat 0 4) ≠ [] →
      exec (.partitionResetRequest dt c v) s = .next ((u.partTrigger (bitsOf v.toNat 0 4) 7).parkCheck).drive) ∧
    (∀ (p : Fin 12) (x : PartReset), u.partReset? p.val = some x → x.cleared = true →
      exec (.partitionResetComplete dt p) s = .next (((u.putPartReset { x with ready := true }).tryPartDone p.val).parkCheck).drive) ∧
    (∀ (p : Fin 12) (x : PartReset), u.partReset? p.val = some x → x.settled = true → x.start + u.get F.RC_PART_WINDOW * 1000000 ≤ u.now →
      exec (.partitionWindowExpiry dt p) s = .next ((u.devTrigger 8 (some p.val) false).parkCheck).drive) ∧
    (∀ (c : Fin 8) (v : Word) (j : CrashJob), u.running = true → cleanWrite F.RC_CR_DONE.addr v = true → u.rc.jobs.find? (fun j => j.slot == bitsOf v.toNat 0 6) = some j →
      exec (.crashRecordDone dt c v) s = .next (u.recordDone v).drive) ∧
    (∀ (sender : Fin 8) (level : Fin 3) (resume : Word), u.running = true → u.inJob = true → resume.toNat ≠ jobLeave → exec (.jobAbortReceive dt sender level resume) s =
      .next (((((u.incSat F.RC_JOB_ABORTS_RECEIVED).raise 0x189).keepResume resume.toNat).resetJob 5 (sender.val + 256 * resume.toNat)).parkCheck).drive) ∧
    (∀ rank : Fin 8, u.backstopDue rank.val = true → exec (.backstopTimeout dt rank) s =
      .next ((((((u.incSat F.RC_BACKSTOPS).raise 0x18A).rankLeft rank.val).resetJob 6 (rank.val + 256 * jobLeave)).sendAbort 0 jobLeave rank.val).parkCheck).drive)

/-- Boot, minimal mode, NVM and attestation (R343 to R345, R350 to R353, R356, R409). -/
def Obligations.BootCommandsComplete : Prop :=
  ∀ (dt : Nat) (s u : State), u = s.elapse dt →
    (∀ b : BootInputs, u.rc.devReset = none → u.bt.inReset = true → exec (.powerOnResetRelease dt b) s = .next (u.bootAttempt b false).drive) ∧
    (∀ lowNs : Nat, 10000 ≤ lowNs → exec (.porstAssert dt lowNs) s = .next u.lovageReset.drive) ∧
    (∀ lowNs : Nat, lowNs < 1000 → exec (.porstAssert dt lowNs) s = .next u.drive) ∧
    (u.bt.step ≠ 0 → u.bt.start + u.watchdogMs * 1000000 ≤ u.thy.counter → exec (.bootWatchdogExpiry dt) s = .next (u.bootFail 0x08 u.bt.step 0).drive) ∧
    (u.bt.step ≠ 0 → exec (.bootSupplyFault dt) s = .next (u.bootFail 0x09 u.bt.step 0).drive) ∧
    (u.bt.step = 1 → u.bt.resuming = false → u.bt.start + 10000000 ≤ u.thy.counter → exec (.sfdpTimeout dt) s = .next ((u.nvmViolation 0x7A [0]).bootFail 0x01 1 0).drive) ∧
    (∀ addr : BitVec 29, u.bt.step = 1 → u.bt.resuming = false → exec (.nvmReadTimeout dt addr) s =
      .next (let v := u.nvmViolation 0x78 (leBytes 4 addr.toNat); v.bootFail 0x02 1 0).drive) ∧
    (∀ c : Nat, u.bt.hold = some c → c + 100000000 ≤ u.thy.counter → exec (.bootRetryHoldExpiry dt) s = .next u.deviceReset.drive) ∧
    (u.minimal = true → u.flag F.BT_MIN_STAT_BUSY = false →
      exec (.minRead dt 0x6D4E) s = .next (u.flashBegin 1).drive ∧ exec (.minProgram dt 0x6D4E) s = .next (u.flashBegin 2).drive ∧
      exec (.minErase dt 0x6D4E) s = .next (u.flashBegin 3).drive ∧
      exec (.minRetry dt 0x6D4E) s = .next ((((u.set F.BT_MIN_STAT_LAST_OP 4).hostOk).set F.BT_BOOT_COUNT_COUNT 0).deviceReset).drive) ∧
    (∀ (op a : Nat) (data : Bytes) (status : Byte), u.bt.nvmJob = some (op, a, data) → exec (.nvmOperationComplete dt false status) s =
      .next ((((u.flashDone op a data false).nextFree).setFlag F.BT_MIN_STAT_BUSY false).setBt (fun b => { b with nvmJob := none })).drive) ∧
    (∀ nonce : Word, u.hostReaches → u.locked = true → u.flag F.BT_ATT_STAT_BUSY = false → exec (.attestationRequest dt nonce) s =
      .next (((((u.setBt (fun b => { b with nonce := patchB b.nonce 12 (leBytes 4 nonce.toNat) })).setFlag F.BT_ATT_STAT_BUSY true).setFlag F.BT_ATT_STAT_DONE false).writeWords
        (F.BT_ATT_REPORT 0).addr (List.replicate 40 0)).hostOk).drive) ∧
    (u.running = true → u.flag F.BT_ATT_STAT_BUSY = true → exec (.attestationDone dt) s =
      .next (((((u.incWrap F.BT_ATT_STAT_COUNT).nextFree).writeWords (F.BT_ATT_REPORT 0).addr (wordsOf 40 ((u.incWrap F.BT_ATT_STAT_COUNT).reportBody ++
        (List.range 64).map (Config.attestSign u.freeCtr (u.incWrap F.BT_ATT_STAT_COUNT).reportBody)))).setFlag F.BT_ATT_STAT_BUSY false).setFlag F.BT_ATT_STAT_DONE true |>.raise 0x199).drive)

/-- Power: parks, alarms, comparators, wake latches, the reference and the PLLs (R291, R362, R364 to R371). -/
def Obligations.PowerCommandsComplete : Prop :=
  ∀ (dt : Nat) (s u : State), u = s.elapse dt →
    (∀ v : Word, u.hostReaches → u.locked = true → cleanWrite F.PW_PARK_REQ_GO.addr v = true → bitsOf v.toNat 16 16 = 0x504B → bitOf v.toNat 0 = true → u.parking = false →
      exec (.parkRequest dt .host v) s = .next (((u.setPw (fun p => { p with waiting := some (bitOf v.toNat 1) })).hostOk).parkCheck).drive) ∧
    (∀ (c : Fin 8) (v : Word), u.running = true → cleanWrite F.PW_PARK_REQ_GO.addr v = true → bitsOf v.toNat 16 16 = 0x504B → bitOf v.toNat 0 = true → u.parking = false →
      exec (.parkRequest dt (.core c) v) s = .next ((u.setPw (fun p => { p with waiting := some (bitOf v.toNat 1) })).parkCheck).drive) ∧
    (u.parking = true → u.cl.insts ≠ [] → u.pw.parkAt + u.get F.PW_DRAIN * 1000000 ≤ u.now → exec (.parkDrainLimit dt) s = .next (u.parkRemove).parkCheck.drive) ∧
    (∀ (c : Fin 8) (a : Fin 4) (hi : Word), u.running = true →
      exec (.alarmArm dt c a hi) s = .next
        (State.setPw ((u.set (F.PW_ALARM_HI a.val) hi.toNat).setFlag (F.PW_ALARM_STAT_ARMED a.val) true)
          (fun p => { p with late := if ((u.set (F.PW_ALARM_HI a.val) hi.toNat).setFlag (F.PW_ALARM_STAT_ARMED a.val) true).get64 (F.PW_ALARM_LO a.val) (F.PW_ALARM_HI a.val) < u.cycleNow then a.val :: p.late else p.late.filter (fun x => x != a.val) })).drive) ∧
    (∀ (a : Fin 4) (b : BootInputs), u.flag (F.PW_ALARM_STAT_ARMED a.val) = true → u.parked = false → u.running = true →
      u.get64 (F.PW_ALARM_LO a.val) (F.PW_ALARM_HI a.val) ≤ u.cycleNow → u.passedByStep (u.get64 (F.PW_ALARM_LO a.val) (F.PW_ALARM_HI a.val)) = false →
      exec (.alarmFire dt a b) s = .next ((((u.setFlag (F.PW_ALARM_STAT_ARMED a.val) false).setFlag (F.PW_ALARM_STAT_FIRED a.val) true).raise (0x20 + a.val)).latchEdge (0x20 + a.val)
        (!((u.setFlag (F.PW_ALARM_STAT_ARMED a.val) false).setFlag (F.PW_ALARM_STAT_FIRED a.val) true |>.latchFalls (0x20 + a.val))) b).drive) ∧
    (∀ (c : Fin 4) (high : Bool) (b : BootInputs), u.flag (F.PW_CMP_CFG_EN c.val) = true → u.flag (F.PW_CMP_STAT_LEVEL c.val) ≠ high → u.parked = false →
      ((u.setFlag (F.PW_CMP_STAT_LEVEL c.val) high).incSat (F.PW_CMP_STAT_CROSSINGS c.val)).parked = false →
      exec (.comparatorOutputChange dt c high b) s =
        .next ((((u.setFlag (F.PW_CMP_STAT_LEVEL c.val) high).incSat (F.PW_CMP_STAT_CROSSINGS c.val)).statusSource (0x1C + c.val) high).latchEdge (0x1C + c.val) high b).drive) ∧
    (∀ (src : Fin 64) (rising : Bool) (b : BootInputs), u.parking = true → u.pw.lovageOnly = false → u.latchFalls src.val ≠ rising → u.latchWakes src.val = false →
      exec (.wakeLatchEdge dt src rising b) s = .next (State.drive { u with ev := { u.ev with latches := putBit u.ev.latches src.val true } })) ∧
    (u.thy.refPresent = true → u.parked = false → u.running = true → exec (.referenceLoss dt) s =
      .next (State.fatal { u with thy := { u.thy with refPresent := false } } { SafetyRec.of 0x30 2 with object := 157, limit := 25000 }).drive) ∧
    (exec (.referenceRestored dt) s = .next (State.drive { u with thy := { u.thy with refPresent := true } })) ∧
    (∀ n : Fin 6, bitOf (u.get F.PW_PLL_STAT_LOCK) n.val = true → u.running = false → exec (.pllLockLoss dt n) s =
      .next ((((u.set F.PW_PLL_STAT_LOCK (putBit (u.get F.PW_PLL_STAT_LOCK) n.val false)).incSat F.PW_PLL_STAT_LOSSES).raise 0x1A5)).drive)

/-- Host-port transactions whose CRC is right: register and window reads, writes, SETWIN, result reads, WRESET, releases, and the two that end without executing (R376 to R384). -/
def Obligations.HostPortCommandsComplete : Prop :=
  ∀ (dt : Nat) (s u : State) (addr : Word) (crc : BitVec 16) (met : WindowMet), u = s.elapse dt → u.hostReaches → u.hp.reading = none →
    (addr.toNat % 4 = 0 → addr.toNat < 0x150000 → crc.toNat = hostCrc 0x0B addr.toNat [] →
      exec (.rd4 dt addr crc met) s = .next ((u.hostWords addr.toNat 1).1.hostReply 0x0B 0 0 (u.hostWords addr.toNat 1).2).drive) ∧
    (addr.toNat % 64 = 0 → addr.toNat < 0x150000 → crc.toNat = hostCrc 0x0C addr.toNat [] →
      exec (.rd64 dt addr crc met) s = .next ((u.hostWords addr.toNat 16).1.hostReply 0x0C 0 0 (u.hostWords addr.toNat 16).2).drive) ∧
    (addr.toNat % 256 = 0 → addr.toNat < 0x150000 → crc.toNat = hostCrc 0x0D addr.toNat [] →
      exec (.rd256 dt addr crc met) s = .next ((u.hostWords addr.toNat 64).1.hostReply 0x0D 0 0 (u.hostWords addr.toNat 64).2).drive) ∧
    (addr.toNat % 4096 = 0 → addr.toNat < 0x150000 → crc.toNat = hostCrc 0x0E addr.toNat [] →
      exec (.rd4k dt addr crc met) s = .next ((u.hostWords addr.toNat 1024).1.hostReply 0x0E 0 0 (u.hostWords addr.toNat 1024).2).drive) ∧
    (0x80000000 ≤ addr.toNat → addr.toNat % 4 = 0 → (∀ i < 4, (u.toLocal (u.get F.HP_WIN_BASE * 2 ^ 31 + (addr.toNat - 0x80000000) + i)).isSome = true) → met.notes = [] → met.ue = none →
      (∀ i < 4, u.faultyDram (u.get F.HP_WIN_BASE * 2 ^ 31 + (addr.toNat - 0x80000000) + i) 1 = none) → crc.toNat = hostCrc 0x0B addr.toNat [] →
      exec (.rd4 dt addr crc met) s = .next (u.hostReply 0x0B 0 0 (u.dramRead (u.get F.HP_WIN_BASE * 2 ^ 31 + (addr.toNat - 0x80000000)) 4)).drive) ∧
    (∀ v : Word, u.locked = true → hostMayWrite addr.toNat = true → addr.toNat < 0x150000 → addr.toNat % 4 = 0 → crc.toNat = hostCrc 0x02 addr.toNat (leBytes 4 v.toNat) →
      exec (.wr4 dt addr v crc) s = .next (u.hwWrite addr.toNat v).drive) ∧
    (∀ v : Word, hostMayWrite addr.toNat = false → addr.toNat < 0x150000 → addr.toNat % 4 = 0 → crc.toNat = hostCrc 0x02 addr.toNat (leBytes 4 v.toNat) →
      exec (.wr4 dt addr v crc) s = .next ((((u.violation 0x13 0x70 (leBytes 4 addr.toNat ++ [0])).incSat F.BT_LOCK_VIOL).raise 0x198).hostReply 0x02 0xC4 0 []).drive) ∧
    (addr.toNat < 512 → crc.toNat = hostCrc 0x10 addr.toNat [] → exec (.setwin dt addr crc) s = .next ((u.set F.HP_WIN_BASE addr.toNat).hostReply 0x10 0 0 []).drive) ∧
    (∀ rs i sn da z : Nat, ringOf addr.toNat = some rs → z = u.get (F.HP_RING_CFG_SLOT_4K rs) * 4096 → i = (addr.toNat - (0x01000000 + rs * 0x10000000)) / z → addr.toNat % 4 = 0 → z ≠ 0 →
      i < u.get (F.HP_RING_CFG_SLOTS rs) → u.slotSeq rs i = some sn → u.slotAddr rs i = some da → met.notes = [] → met.ue = none →
      ((addr.toNat - (0x01000000 + rs * 0x10000000)) % z + 64 ≤ z → (∀ i < 64, u.faultyDram (da + (addr.toNat - (0x01000000 + rs * 0x10000000)) % z + i) 1 = none) → crc.toNat = hostCrc 0x1A addr.toNat [] → exec (.rres64 dt addr crc met) s =
        .next (State.hostReply { u with hp := { u.hp with reading := some (rs, i) } } 0x1A 0 sn (u.dramRead (da + (addr.toNat - (0x01000000 + rs * 0x10000000)) % z) 64)).drive) ∧
      ((addr.toNat - (0x01000000 + rs * 0x10000000)) % z + 4096 ≤ z → (∀ i < 4096, u.faultyDram (da + (addr.toNat - (0x01000000 + rs * 0x10000000)) % z + i) 1 = none) → crc.toNat = hostCrc 0x1B addr.toNat [] → exec (.rres4k dt addr crc met) s =
        .next (State.hostReply { u with hp := { u.hp with reading := some (rs, i) } } 0x1B 0 sn (u.dramRead (da + (addr.toNat - (0x01000000 + rs * 0x10000000)) % z) 4096)).drive)) ∧
    (addr.toNat = 0x57525354 → u.running = true → crc.toNat = hostCrc 0x99 addr.toNat [] →
      exec (.wreset dt addr crc) s = .next (((u.hostReply 0x99 0 0 []).raise 0x193).devTrigger 10 none false).drive) ∧
    (∀ op inv : Byte, knownOpcode op = false ∨ inv ≠ ~~~op → exec (.unknownOpcode dt op inv) s = .next ((u.violation 0x13 0x74 [op, inv]).hostReply op.toNat 0xC0 0 []).drive) ∧
    (∀ op received : Byte, exec (.transactionCancel dt op received) s = .next (u.violation 0x13 0x71 [op, received]).drive) ∧
    (∀ (rs : Fin 4) (sn : Word), u.locked = true → u.slotSeq rs.val (u.slotOf rs.val sn.toNat) = some sn.toNat → exec (.hpResultRelease dt rs sn) s =
      .next (((u.emptySlot rs.val (u.slotOf rs.val sn.toNat)).set (F.HP_RESULT_RELEASE rs.val) sn.toNat).hostOk).drive) ∧
    (∀ v : Word, u.locked = true → v.toNat / 2 ^ 16 = 0xA5C3 → v.toNat % 2 ^ 16 = u.get F.TB_JUMP_REFUSED_JUMP_ID → u.flag F.TB_JUMP_REFUSED_PENDING = true → u.get F.TB_CFG_POLICY = 2 →
      exec (.tbRelockArm dt v) s = .next ((u.setThy (fun t => { t with arm := some (u.now + 10 ^ 9) })).hostOk).drive) ∧
    (∀ f : Fin 4096, exec (.clFenceLoRead dt .host f) s = .next ((u.latchFence 0 f.val).hostReply 0x0B 0 0 (leBytes 4 (u.readReg (F.CL_FENCE_LO f.val).addr).toNat)).drive)

/-- Peer links, boundary scan and the stores of control cores (R6, R357, R386 to R390, R402). -/
def Obligations.LinkAndCoreCommandsComplete : Prop :=
  ∀ (dt : Nat) (s u : State), u = s.elapse dt →
    (∀ (link : Fin 4) (flit : Bytes), u.linkUp link.val = true → flitIntact flit = true → (flitOf flit).cls ≠ 3 → flitSeq flit = (u.link link.val).expect →
      exec (.flitReceive dt link flit) s = .next ((u.acked link.val (flitAck flit)).inSequence link.val (flitOf flit)).drive) ∧
    (∀ (link : Fin 4) (flit : Bytes), u.linkUp link.val = true → flitIntact flit = true → (flitOf flit).cls ≠ 3 → flitSeq flit ≠ (u.link link.val).expect →
      exec (.flitReceive dt link flit) s = .next (u.incSat (F.LK_L_OOS link.val)).drive) ∧
    (∀ (link : Fin 4) (f : Nat × LinkFlit) (fs : List (Nat × LinkFlit)), u.linkUp link.val = true → (u.link link.val).unacked = f :: fs → (u.link link.val).quiet + 10000 ≤ u.now →
      exec (.ackTimeout dt link) s = .next (u.resend link.val f.1).drive) ∧
    (∀ link : Fin 4, u.linkUp link.val = true → exec (.linkDown dt link) s = .next (((((u.set (F.LK_L_STAT_STATE link.val) 1).incSat (F.LK_L_STAT_RETRAINS link.val)).raise 0x1A8).statusSource
      (0x2B + link.val) false).rerouteAborts link.val).drive) ∧
    (∀ (link : Fin 4) (rank size : Fin 8) (image : Word), u.get (F.LK_L_STAT_STATE link.val) = 1 →
      (rank.val = u.neighbour link.val → size.val = u.get F.LK_JOB_CFG_SIZE → image.toNat = u.imageId → exec (.linkTrained dt link rank size image) s = .next (u.trained link.val).drive) ∧
      (image.toNat ≠ u.imageId → exec (.linkTrained dt link rank size image) s = .next (u.heldDown link.val rank.val (size.val + 1) image.toNat).drive)) ∧
    (∀ t : Nat, u.lk.startFrom = some t → u.running = true → u.inJob = true → t + u.get F.LK_START_MS * 1000000 ≤ u.now →
      exec (.linkStartTimeout dt) s = .next ((u.setLk (fun k => { k with startOver := true })).startJob).drive) ∧
    (∀ (c : Fin 8) (addr v : Word), u.running = true → mapped addr.toNat = true → coreMayWrite addr.toNat = true → cleanWrite addr.toNat v = true →
      exec (.controlCoreStore dt c addr v) s = .next (u.storeEffect c addr.toNat v).drive) ∧
    (∀ (c : Fin 8) (addr v : Word), u.running = true → mapped addr.toNat = true → (coreMayWrite addr.toNat = false ∨ cleanWrite addr.toNat v = false) → exec (.controlCoreStore dt c addr v) s =
      .next (((u.violation 0x13 0x70 (leBytes 4 addr.toNat ++ [BitVec.ofNat 8 (c.val + 1)])).incSat F.BT_LOCK_VIOL).raise 0x198).drive) ∧
    (∀ code : JtagInstr, exec (.boundaryScanInstruction dt code) s = .next (State.drive { u with jt := ⟨u.jtagDecode code, jtagCapture (u.jtagDecode code)⟩ }))

/-- What the commands of tiles and of Tarragon leave, register by register. A temperature sample is held and, where the choice it gives is another point, a change begins at once; a change ends at its target and counts; a spill past HIGH counts its crossing once; spill and reload count their 64-byte units; a row at TL_CE_LIMIT takes a spare row of its layer or is denied; scrub counts or records what it finds; a mesh message moves its flow to the next number (R160, R162 to R164, R167 to R169). A tick arises in the order of tick times, becomes ready on its inputs or short at SV_P_WAIT and is taken when Tarragon is idle; a step that is not the last adds its cycles; a budget stop sets the tick's cycles to the budget, counts, is told and logged, and publishes (R233, R234, R238). -/
def Obligations.TileAndSolverResults : Prop :=
  ∀ (dt : Nat) (s u : State), u = s.elapse dt → u.running = true →
    (∀ (tile : Fin 144) (temp : BitVec 8), tile.val < u.tiles → ∃ t, exec (.tileTempSample dt tile temp) s = .next t ∧ t.get (F.TL_T_STAT_TEMP tile.val) = temp.toNat ∧
      t.get (F.TL_T_STAT_OP tile.val) = u.get (F.TL_T_STAT_OP tile.val) ∧
      ∀ op, op = (u.set (F.TL_T_STAT_TEMP tile.val) temp.toNat).opChoice tile.val → u.tl.opChanges.find? (fun c => c.tile == tile.val) = none →
        t.tl.opChanges = (if op = u.get (F.TL_T_STAT_OP tile.val) then u.tl.opChanges else ⟨tile.val, op, u.now⟩ :: u.tl.opChanges)) ∧
    (∀ (tile : Fin 144) (c : OpChange), u.tl.opChanges.find? (fun c => c.tile == tile.val) = some c → c.start + 1500 ≤ u.now →
      (∃ t, exec (.opChangeDone dt tile true) s = .next t ∧ t.get (F.TL_T_STAT_OP tile.val) = c.target % 8 ∧ t.get (F.TL_T_OPCHG tile.val) = (u.get (F.TL_T_OPCHG tile.val) + 1) % 2 ^ 32) ∧
      (∃ t, exec (.opChangeDone dt tile false) s = .next t ∧ t.get (F.TL_T_STAT_OP tile.val) = min c.target (u.get (F.TL_T_STAT_OP tile.val)) % 8 ∧
        t.get (F.TL_T_OPCHG tile.val) = (u.get (F.TL_T_OPCHG tile.val) + 1) % 2 ^ 32)) ∧
    (∀ tile : Fin 144, markBytes (u.get F.TL_SPILL_CFG_HIGH) < u.sramAfter tile.val → assocGet tile.val u.tl.stalls = none → ∃ t, exec (.autonomousSpill dt tile) s = .next t ∧
      t.get (F.TL_SPILL_EVENTS tile.val) = (if u.tl.above.contains tile.val then u.get (F.TL_SPILL_EVENTS tile.val) else satNat 32 (u.get (F.TL_SPILL_EVENTS tile.val) + 1)) ∧
      t.sram = u.sram ∧ t.dram = u.dram) ∧
    (∀ (tile : Fin 144) (offset : Nat) (b : SramBuf), u.bufAt tile.val offset = some b →
      (b.phase = .leaving → ∃ t, exec (.spillOutComplete dt tile offset) s = .next t ∧ t.get (F.TL_SPILL_OUT tile.val) = (u.get (F.TL_SPILL_OUT tile.val) + cdiv b.len 64) % 2 ^ 32 ∧ t.sram = u.sram) ∧
      (b.phase = .returning → ∃ t, exec (.reloadComplete dt tile offset) s = .next t ∧ t.get (F.TL_SPILL_IN tile.val) = (u.get (F.TL_SPILL_IN tile.val) + cdiv b.len 64) % 2 ^ 32 ∧ t.dram = u.dram)) ∧
    (∀ (vault : Fin 144) (layer : Fin 4) (row : Nat), u.get F.TL_CE_LIMIT ≤ (assocGet (rowKey vault.val layer.val row) u.tl.rowCe).getD 0 → rowKey vault.val layer.val row ∉ u.tl.denied →
      ∃ t, exec (.vaultRowRemap dt vault layer row) s = .next t ∧
        (0 < u.sparesLeft vault.val layer.val → t.get (F.TL_VAULT_REPAIR_DONE vault.val) = satNat 8 (u.get (F.TL_VAULT_REPAIR_DONE vault.val) + 1) ∧ t.get (F.TL_VAULT_REPAIR_LEFT vault.val) = u.get (F.TL_VAULT_REPAIR_LEFT vault.val) - 1) ∧
        (u.sparesLeft vault.val layer.val = 0 → t.get (F.TL_VAULT_REPAIR_DENIED vault.val) = satNat 8 (u.get (F.TL_VAULT_REPAIR_DENIED vault.val) + 1) ∧ rowKey vault.val layer.val row ∈ t.tl.denied)) ∧
    (∀ (vault : Fin 144) (offset row : Nat), u.get F.TL_SCRUB_CFG ≠ 0 →
      (∃ t, exec (.vaultScrub dt vault offset .clean) s = .next t ∧ t.regs = u.regs) ∧
      (∃ t, exec (.vaultScrub dt vault offset (.corrected row)) s = .next t ∧ t.get (F.TL_VAULT_CE vault.val) = satNat 32 (u.get (F.TL_VAULT_CE vault.val) + 1)) ∧
      (∃ t, exec (.vaultScrub dt vault offset .uncorrectable) s = .next t ∧ t.get F.TL_UE_COUNT = satNat 32 (u.get F.TL_UE_COUNT + 1) ∧ t.get F.TL_UE_CTX_SRC = 0 ∧ t.get F.TL_UE_CTX_TILE = vault.val ∧
        t.get F.TL_UE_CTX_VALID_CTX = 0 ∧ t.get64 F.TL_UE_ADDR_LO F.TL_UE_ADDR_HI = (vault.val * 2 ^ 28 + offset) % 2 ^ 40)) ∧
    (∀ m : MeshMsg, m.seqNo.toNat = u.flowDue (msgFlow m) → u.tl.early = [] →
      (m.kind = .request → ∃ t, exec (.meshMessageArrival dt m) s = .next t ∧ t.flowDue (msgFlow m) = (m.seqNo.toNat + 1) % 2 ^ 16 ∧ t.tl.reqs = u.tl.reqs ++ [m] ∧ t.regs = u.regs) ∧
      (m.kind = .reply → u.tooOld m = false → m.gen.toNat ≠ u.genOf m.part.val → ∃ t, exec (.meshMessageArrival dt m) s = .next t ∧ t.flowDue (msgFlow m) = (m.seqNo.toNat + 1) % 2 ^ 16 ∧
        t.get F.RC_GEN_DROPS = satNat 32 (u.get F.RC_GEN_DROPS + 1)) ∧
      (u.tooOld m = true → ∃ t, exec (.meshReplyRetire dt m) s = .next t ∧ t.flowDue (msgFlow m) = (m.seqNo.toNat + 1) % 2 ^ 16 ∧ t.get F.TL_MESH_RETIRED = satNat 32 (u.get F.TL_MESH_RETIRED + 1))) ∧
    (∀ (p : Fin 32) (t0 : Nat) (x : SvProb) (k : SvTick), u.prob p.val = x → x.t0 = some t0 → t0 + x.next * u.get (F.SV_P_PERIOD p.val) ≤ u.now →
      k = ⟨x.next, t0 + x.next * u.get (F.SV_P_PERIOD p.val), false, false, false, u.chooseStruct p.val x.next (t0 + x.next * u.get (F.SV_P_PERIOD p.val)) 0, false, false, 0, 0, [], .start (u.coldSol p.val 0), 0, 0, none⟩ →
      ∃ t, exec (.tickReady dt p) s = .next t ∧ (t.prob p.val).next = x.next + 1 ∧ (t.prob p.val).ticks = sortByKey SvTick.t (x.ticks ++ [k]) ∧ (x.ticks = [] → t.get (F.SV_P_STAT_STATE p.val) = 1)) ∧
    (∀ (p : Fin 32) (k : SvTick) (v : State), u.headTick p.val = some k → k.ready = false →
      v = ((u.putHead p.val { k with ready := true }).set (F.SV_P_STAT_STATE p.val) (if (u.putHead p.val { k with ready := true }).solveAhead p.val k then 1 else 2)) →
      u.inputsPast p.val k.t = true → exec (.tickInputsReady dt p) s = .next (if u.sv.cur = none then v.pickTick else v).drive) ∧
    (∀ (p : Fin 32) (k : SvTick) (v : State), u.headTick p.val = some k → k.ready = false →
      v = (((u.incSat (F.SV_P_STOPS_SHORT p.val)).putHead p.val { k with ready := true, short := true }).set (F.SV_P_STAT_STATE p.val)
        (if ((u.incSat (F.SV_P_STOPS_SHORT p.val)).putHead p.val { k with ready := true, short := true }).solveAhead p.val { k with short := true } then 1 else 2)) →
      u.inputsPast p.val k.t = false → k.t + u.get (F.SV_P_WAIT p.val) ≤ u.now → exec (.tickShort dt p) s = .next (if u.sv.cur = none then v.pickTick else v).drive) ∧
    (∀ (stall p : Nat) (k w : SvTick) (v : State), u.sv.cur = some p → u.headTick p = some k → k.cycles + (u.stepCycles p k k.pos + stall) ≤ u.get (F.SV_P_BUDGET p) →
      w = { (u.stepWork p k).1 with pos := k.pos + 1, cycles := k.cycles + (u.stepCycles p k k.pos + stall) } → v = (u.stepCounts p k).putHead p w →
      (k.pos + 1 < u.stepCount p → exec (.kernelStepComplete dt stall none) s = .next v.pickTick.drive) ∧
      (u.stepCount p ≤ k.pos + 1 → exec (.kernelStepComplete dt stall none) s = .next ((v.publish p w false).completeSolve w).drive)) ∧
    (∀ (p : Fin 32) (k w : SvTick) (v : State), u.sv.cur = some p.val → u.headTick p.val = some k →
      v = (Config.stepSats k.known (2 ^ 20 + k.pos)).foldl (fun s x => s.saturate p.val x) u →
      w = { k with cycles := u.get (F.SV_P_BUDGET p.val), sats := k.sats + (Config.stepSats k.known (2 ^ 20 + k.pos)).length } →
      ∀ r : SafetyRec, r = { SafetyRec.of 0x02 1 with object := p.val, ctx := (State.probCtx (((v.incSat (F.SV_P_STOPS_BUDGET p.val)).incSat F.SV_STOPS).raise 0x138) p.val).getD 0xFF, seqNo := k.j % 2 ^ 32, detail := u.get (F.SV_P_BUDGET p.val), limit := u.get (F.SV_P_BUDGET p.val) } →
      exec (.solverBudgetStop dt p) s = .next (((((((v.incSat (F.SV_P_STOPS_BUDGET p.val)).incSat F.SV_STOPS).raise 0x138).safetyLog r).publish p.val w true).completeSolve k).drive))

/-- R27 as written: a striped address of a part with 144 tiles maps to the local address of its formula. -/
def Obligations.StripedAddressMap : Prop :=
  ∀ (s : State) (addr : Nat), s.tiles = 144 → 0x1000000000 ≤ addr → addr < 0x1000000000 + 144 * 2 ^ 28 →
    let x := addr - 0x1000000000
    let stripe := x >>> 12
    let vault := stripe % 144
    let offset := ((stripe / 144) <<< 12) ||| (x &&& 0xFFF)
    s.toLocal addr = some ((vault <<< 28) ||| offset)

/-- No two striped addresses share a local address, on a part of any number of tiles: striping loses no byte. -/
def Obligations.StripedMapInjective : Prop :=
  ∀ (s : State) (a b l : Nat), 0x1000000000 ≤ a → 0x1000000000 ≤ b → s.toLocal a = some l → s.toLocal b = some l → a = b

/-- Bytes written to DRAM read back, and no byte whose local address was not written changes; the run lies in the linear or in the striped window, wholly mapped. -/
def Obligations.DramWriteReadsBack : Prop :=
  ∀ (s : State) (a : Nat) (bs : Bytes), (∀ i < bs.length, (s.toLocal (a + i)).isSome = true) → (a + bs.length ≤ 0x1000000000 ∨ 0x1000000000 ≤ a) →
    (s.dramWrite a bs).dramRead a bs.length = bs ∧
    ∀ b, (∀ i < bs.length, s.toLocal b ≠ s.toLocal (a + i)) → (s.dramWrite a bs).dramByte b = s.dramByte b

/-- Serial comparison on N bits is a strict order but for values half a range apart: of two N-bit values exactly one is later, unless they are equal or differ by exactly 2^(N-1), and then neither is. -/
def Obligations.SerialComparisonTotal : Prop :=
  ∀ n a b : Nat, 0 < n → a < 2 ^ n → b < 2 ^ n →
    (a = b ∨ (a + 2 ^ n - b) % 2 ^ n = 2 ^ (n - 1) → serialLater n a b = false ∧ serialLater n b a = false) ∧
    (a ≠ b → (a + 2 ^ n - b) % 2 ^ n ≠ 2 ^ (n - 1) → (serialLater n a b = true ↔ serialLater n b a = false))

/-- A rate commit that is not refused keeps device time and its fraction, and puts the new rate and anchor in force. -/
def Obligations.RateCommitKeepsDeviceTime : Prop :=
  ∀ (dt : Nat) (c : Fin 8) (s u : State), u = s.elapse dt → u.running = true → u.rateCode = 0 →
    ∃ t, exec (.rateCommit dt c) s = .next t ∧ t.now = u.now ∧ t.thy.triple.frac t.thy.counter = u.thy.triple.frac u.thy.counter ∧
      t.thy.triple.rate = u.getI F.TB_RATE_NEXT ∧ t.thy.triple.anchor = u.thy.counter ∧ t.thy.counter = u.thy.counter

/-- Between commits, with |rate| at most 2^31 units of 2^-40, device time never falls and rises at least 0.998 ns for each ns of counter, to the rounding of one ns. -/
def Obligations.DeviceTimeRises : Prop :=
  ∀ (t : Triple) (c d : Nat), t.rate.natAbs ≤ 2 ^ 31 → t.anchor ≤ c → c + d < t.anchor + 2 ^ 63 → c + d < 2 ^ 64 →
    0 ≤ (c : Int) + t.offInt + t.sum c / 2 ^ 40 → ((c + d : Nat) : Int) + t.offInt + t.sum (c + d) / 2 ^ 40 < 2 ^ 64 →
    t.time c ≤ t.time (c + d) ∧ 998 * d ≤ 1000 * (t.time (c + d) - t.time c) + 1000

/-- Reads of IO_CAP_POP_LO: a core's takes the oldest capture and latches it for that core, the host's latches the same capture and takes none, and no requester's latch but its own changes. -/
def Obligations.CaptureReadsLatch : Prop :=
  ∀ (dt : Nat) (s u : State) (cap : Fin 16), u = s.elapse dt →
    (∀ c : Fin 8, u.running = true → ∃ t, exec (.ioCapPopLoRead dt (.core c) cap) s = .next t ∧ t.captureLatch (c.val + 1) cap.val = u.oldestCapture cap.val ∧
      t.io.caps.getD cap.val [] = (u.io.caps.getD cap.val []).drop 1 ∧ (∀ k, k ≠ cap.val → t.io.caps.getD k [] = u.io.caps.getD k []) ∧
      (∀ r k, k < 16 → (r ≠ c.val + 1 ∨ k ≠ cap.val) → t.captureLatch r k = u.captureLatch r k)) ∧
    (u.hostReaches → ∃ t, exec (.ioCapPopLoRead dt .host cap) s = .next t ∧ t.captureLatch 0 cap.val = u.oldestCapture cap.val ∧ t.io.caps = u.io.caps ∧
      (∀ r k, k < 16 → (r ≠ 0 ∨ k ≠ cap.val) → t.captureLatch r k = u.captureLatch r k))

/-- An occurrence of an enabled edge-sensed source that is not yet delivered is counted to 255, the source becomes deliverable when its count has reached COUNT and stays counting below it, and no other source's count or state changes (R283). -/
def Obligations.OccurrenceCounts : Prop :=
  ∀ (s : State) (src : Nat), src < 1024 → s.flag (F.EV_S_CFG_EN src) = true → s.get (F.EV_S_STAT_STATE src) ≤ 1 →
    (s.raise src).get (F.EV_S_STAT_COUNT src) = min 255 (s.get (F.EV_S_STAT_COUNT src) + 1) ∧
    (s.raise src).get (F.EV_S_STAT_STATE src) = (if s.get (F.EV_S_COAL_COUNT src) ≤ min 255 (s.get (F.EV_S_STAT_COUNT src) + 1) then 2 else 1) ∧
    (∀ o, o < 1024 → o ≠ src → (s.raise src).get (F.EV_S_STAT_COUNT o) = s.get (F.EV_S_STAT_COUNT o) ∧ (s.raise src).get (F.EV_S_STAT_STATE o) = s.get (F.EV_S_STAT_STATE o))

/-- R282: PRIO is eight bits, SPLIT is 0 to 7 and 4 by default, and the deliverable sources are taken by higher group PRIO >> SPLIT, then higher sub-priority PRIO & (2^SPLIT − 1), then lower source number. -/
def Obligations.RankOrder : Prop :=
  State.reset.get F.EV_CFG = 4 ∧
  ∀ (s : State) (p : Nat → Bool), s.get F.EV_CFG ≤ 7 ∧ (∀ a, s.get (F.EV_S_CFG_PRIO a) ≤ 255) ∧
    (∀ a, a ∈ s.ranked p ↔ a < 1024 ∧ s.deliverable a = true ∧ s.evMasked a = false ∧ p a = true) ∧
    (s.ranked p).Pairwise (fun a b =>
      let ga := s.get (F.EV_S_CFG_PRIO a) >>> s.get F.EV_CFG
      let gb := s.get (F.EV_S_CFG_PRIO b) >>> s.get F.EV_CFG
      let sa := s.get (F.EV_S_CFG_PRIO a) &&& (2 ^ s.get F.EV_CFG - 1)
      let sb := s.get (F.EV_S_CFG_PRIO b) &&& (2 ^ s.get F.EV_CFG - 1)
      gb < ga ∨ (ga = gb ∧ (sb < sa ∨ (sa = sb ∧ a < b))))

/-- R132: the key's bit 63 is the zone, its bits 3i, 3i + 1 and 3i + 2 are bits i of x, y and z; zone-0 keys sort before zone-1 keys, and within a zone keys sort as their Morton codes. -/
def Obligations.MortonKey : Prop :=
  ∀ (s : State) (x y z : Nat), x < 2 ^ 21 → y < 2 ^ 21 → z < 2 ^ 21 →
    s.keyOf [x, y, z] < 2 ^ 64 ∧ (bitOf (s.keyOf [x, y, z]) 63 = true ↔ s.zoneOf [x, y, z] = 1) ∧ s.zoneOf [x, y, z] ≤ 1 ∧
    (∀ i < 21, bitOf (s.keyOf [x, y, z]) (3 * i) = bitOf x i ∧ bitOf (s.keyOf [x, y, z]) (3 * i + 1) = bitOf y i ∧ bitOf (s.keyOf [x, y, z]) (3 * i + 2) = bitOf z i) ∧
    (∀ x' y' z', x' < 2 ^ 21 → y' < 2 ^ 21 → z' < 2 ^ 21 →
      (s.zoneOf [x, y, z] = 0 → s.zoneOf [x', y', z'] = 1 → s.keyOf [x, y, z] < s.keyOf [x', y', z']) ∧
      (s.zoneOf [x, y, z] = s.zoneOf [x', y', z'] → (s.keyOf [x, y, z] < s.keyOf [x', y', z'] ↔ morton [x, y, z] < morton [x', y', z'])))

/-- A violation record of an interface counts in its ring: NEXT goes on modulo 64 and TOTAL counts. Unless the record at NEXT − 1 is one of the same device time that R82 puts after it, the record goes in at NEXT, its four words hold device time, interface id, code and detail, and no other word of the ring changes; if there is one, it moves up to NEXT (R81, R82; that records of one device time are those of one cycle is log entry 98). Shown on the host port's ring. -/
def Obligations.ViolationRecordInRing : Prop :=
  ∀ (s : State) (code n : Nat) (detail record : Bytes) (before : List Nat), n = s.get F.HP_VR_IDX_NEXT → record = leBytes 8 s.now ++ [0x13, BitVec.ofNat 8 code] ++ sliceB detail 0 6 →
    before = s.ringRecord (F.HP_VR 0).addr ((n + 63) % 64) →
    (s.violation 0x13 code detail).get F.HP_VR_IDX_NEXT = (n + 1) % 64 ∧
    (s.violation 0x13 code detail).get F.HP_VR_IDX_TOTAL = (s.get F.HP_VR_IDX_TOTAL + 1) % 2 ^ 16 ∧
    (¬ (before.take 2 = (wordsOf 4 record).take 2 ∧ violationOrder (wordsOf 4 record) < violationOrder before) →
      (s.violation 0x13 code detail).regBytes (F.HP_VR (4 * n)).addr 4 = record ∧
      ∀ m, m < 256 → m / 4 ≠ n → (s.violation 0x13 code detail).get (F.HP_VR m) = s.get (F.HP_VR m)) ∧
    (before.take 2 = (wordsOf 4 record).take 2 → violationOrder (wordsOf 4 record) < violationOrder before → s.get F.HP_VR_IDX_TOTAL ≠ 0 →
      (s.violation 0x13 code detail).ringRecord (F.HP_VR 0).addr n = before)

/-- A lockstep mismatch in run state enters the safe state: FAULT_N driven, supervision ended, the fatal code 0x50 kept, every enabled PWM output at its SAFE level and every trigger pulse ended; in the state Fault it is logged and the code that stands stays (R296, R297, R298). -/
def Obligations.LockstepMismatchIsFatal : Prop :=
  ∀ (dt : Nat) (s u : State), u = s.elapse dt → u.running = true →
    (u.sf.phase ≠ .fault → ∃ t, exec (.lockstepMismatch dt) s = .next t ∧ t.pins.faultN = true ∧ t.flag F.SF_STATUS_FAULT = true ∧ t.flag F.GLB_STATUS_FAULT = true ∧
      t.get F.SF_STATUS_SUPERVISING = 0 ∧ t.get F.SF_STATUS_FATAL_CODE = 0x50 ∧ t.sf.phase = .fault ∧ t.io.pulses = [] ∧
      ∀ w, w < 12 → u.flag (F.IO_PWM_CFG_EN w) = true → t.flag (F.IO_PWM_STAT_SAFE w) = true) ∧
    (u.sf.phase = .fault → ∃ t, exec (.lockstepMismatch dt) s = .next t ∧ t.get F.SF_STATUS_FATAL_CODE = u.get F.SF_STATUS_FATAL_CODE ∧ t.sf = u.sf ∧
      t.get F.SF_LOG_IDX_TOTAL = (u.get F.SF_LOG_IDX_TOTAL + 1) % 2 ^ F.SF_LOG_IDX_TOTAL.width)

/-- While FAULT_N is asserted every PWM pin, at every count of its period, is at the SAFE level of its output's configuration (R241, R242). -/
def Obligations.FaultHoldsPwmPins : Prop :=
  ∀ (s : State) (w n : Nat), s.flag F.SF_STATUS_FAULT = true → s.pwmPin w n = s.flag (F.IO_PWM_CFG_SAFE (s.pwmLead w))

/-- A fence signalled in add mode moves by BASE modulo 2^64. In set mode it moves to a later value and is left by any other; one that leaves it counts, unless the fence was set in this cycle already, for the sets of one cycle are one update; a later set of a cycle takes back the count of an earlier one that left it. No other fence moves (R260, R261). -/
def Obligations.FenceSignals : Prop :=
  ∀ (s : State) (f v : Nat), f < 4096 → v < 2 ^ 64 →
    (s.fenceAdd f v).fence f = (s.fence f + v) % 2 ^ 64 ∧
    (serialLater 64 v (s.fence f) = true → (s.fenceSet f v).fence f = v) ∧
    (serialLater 64 v (s.fence f) = true → s.setNow f ≠ some true → (s.fenceSet f v).get F.CL_FENCE_STALE = s.get F.CL_FENCE_STALE) ∧
    (serialLater 64 v (s.fence f) = true → s.setNow f = some true → (s.fenceSet f v).get F.CL_FENCE_STALE = s.get F.CL_FENCE_STALE - 1) ∧
    (serialLater 64 v (s.fence f) = false → (s.fenceSet f v).fence f = s.fence f) ∧
    (serialLater 64 v (s.fence f) = false → s.setNow f = none → (s.fenceSet f v).get F.CL_FENCE_STALE = satNat 32 (s.get F.CL_FENCE_STALE + 1)) ∧
    (serialLater 64 v (s.fence f) = false → s.setNow f ≠ none → (s.fenceSet f v).get F.CL_FENCE_STALE = s.get F.CL_FENCE_STALE) ∧
    ∀ g, g < 4096 → g ≠ f → (s.fenceAdd f v).fence g = s.fence g ∧ (s.fenceSet f v).fence g = s.fence g

/-- A released semaphore saturates at 65,535, each saturation is counted, and no other semaphore changes (R262). -/
def Obligations.SemaphoreRelease : Prop :=
  ∀ (s : State) (n k : Nat), n < 256 →
    (s.semRelease n k).sem n = min 65535 (s.sem n + k) ∧
    (s.semRelease n k).get F.CL_SEM_SAT = (if 65535 < s.sem n + k then satNat 32 (s.get F.CL_SEM_SAT + 1) else s.get F.CL_SEM_SAT) ∧
    ∀ m, m < 256 → m ≠ n → (s.semRelease n k).sem m = s.sem m

/-- A flit read back from its 272 bytes is the flit sent, with its sequence number and acknowledgement, and it is intact (R386). -/
def Obligations.FlitRoundTrip : Prop :=
  ∀ (f : LinkFlit) (seqNo ack a b c : Nat), f.cls < 256 → f.src < 8 → f.dst < 8 → f.payload.length = 256 → f.back = [a, b, c] → a < 16 → b < 16 → c < 16 →
    seqNo < 4096 → ack < 4096 →
    (flitBytes f seqNo ack).length = 272 ∧ flitIntact (flitBytes f seqNo ack) = true ∧ flitOf (flitBytes f seqNo ack) = f ∧
      flitSeq (flitBytes f seqNo ack) = seqNo ∧ flitAck (flitBytes f seqNo ack) = ack

/-- The flash's completion in minimal mode: a program leaves the buffer in its page and every other byte of NVM, an erase leaves the sector erased and every other byte, a read leaves NVM; BUSY clears (R352). -/
def Obligations.NvmCommands : Prop :=
  ∀ (dt : Nat) (s u : State) (status : Byte) (a : Nat) (data : Bytes), u = s.elapse dt →
    (u.bt.nvmJob = some (2, a, data) → ∃ t, exec (.nvmOperationComplete dt false status) s = .next t ∧ t.nvmRead a data.length = data ∧ t.flag F.BT_MIN_STAT_BUSY = false ∧
      ∀ x, x < a ∨ a + data.length ≤ x → t.nvmRead x 1 = u.nvmRead x 1) ∧
    (u.bt.nvmJob = some (3, a, data) → ∃ t, exec (.nvmOperationComplete dt false status) s = .next t ∧ t.flag F.BT_MIN_STAT_BUSY = false ∧
      (∀ x, x / 65536 = a / 65536 → t.nvmRead x 1 = [nvmDefault x]) ∧ ∀ x, x / 65536 ≠ a / 65536 → t.nvmRead x 1 = u.nvmRead x 1) ∧
    (u.bt.nvmJob = some (1, a, data) → ∃ t, exec (.nvmOperationComplete dt false status) s = .next t ∧ t.flag F.BT_MIN_STAT_BUSY = false ∧ t.nvm = u.nvm ∧
      t.regBytes (F.BT_NVM_BUF 0).addr 64 = u.nvmRead a 256)

/-- A spill's end puts the buffer's bytes into the tile's spill area and its reload's end brings the area's bytes back into SRAM; nothing else of DRAM, SRAM or NVM changes (R160). -/
def Obligations.SpillMovesBytes : Prop :=
  ∀ (dt : Nat) (s u : State) (tile : Fin 144) (offset : Nat) (b : SramBuf), u = s.elapse dt → u.bufAt tile.val offset = some b → b.ofs + b.len ≤ sramSize →
    (b.phase = .leaving → tile.val < u.tiles → u.spillAddr tile.val b.spill + b.len ≤ (tile.val + 1) * 2 ^ 28 → ∃ t, exec (.spillOutComplete dt tile offset) s = .next t ∧
      t.dramRead (u.spillAddr tile.val b.spill) b.len = u.sramRead tile.val b.ofs b.len ∧ t.sram = u.sram ∧ t.nvm = u.nvm ∧
      ∀ x, (∀ i < b.len, u.toLocal x ≠ u.toLocal (u.spillAddr tile.val b.spill + i)) → t.dramByte x = u.dramByte x) ∧
    (b.phase = .returning → ∃ t, exec (.reloadComplete dt tile offset) s = .next t ∧ t.sramRead tile.val b.ofs b.len = u.dramRead (u.spillAddr tile.val b.spill) b.len ∧
      t.dram = u.dram ∧ t.nvm = u.nvm ∧ ∀ l o, o < sramSize → l ≠ tile.val ∨ o < b.ofs ∨ b.ofs + b.len ≤ o → t.sramByte l o = u.sramByte l o)

/-- The refill of any number of ticks leaves no bucket above its capacity and adds no energy beyond the refills of the four buckets: what overflows is passed on or discarded (R267, R268). -/
def Obligations.RefillWithinCapacities : Prop :=
  ∀ (r cap : Nat → Nat) (n : Nat) (a b c d : Int), a ≤ cap 0 → b ≤ cap 1 → c ≤ cap 2 → d ≤ cap 3 →
    (∀ i < 4, (refillMany r cap n [a, b, c, d]).getD i 0 ≤ cap i) ∧ (refillMany r cap n [a, b, c, d]).length = 4 ∧
    (refillMany r cap n [a, b, c, d]).sum ≤ a + b + c + d + n * (r 0 + r 1 + r 2 + r 3)

/-- The median vote depends on the values of the sources and not on their order, and it lies between the least and the greatest of them (R113). -/
def Obligations.MedianOrderFree : Prop :=
  ∀ (v : Nat → Int) (xs ys : List Nat), (∀ j ∈ xs, -2 ^ 31 ≤ v j ∧ v j < 2 ^ 31) → xs ≠ [] → xs.Perm ys →
    medianOf v xs = medianOf v ys ∧ (∃ j ∈ xs, v j ≤ medianOf v xs) ∧ (∃ j ∈ xs, medianOf v xs ≤ v j)

/-- R154's accumulation: the products of integers are summed modulo 2^32 as two's complement values, whatever wraps on the way, and a step is counted exactly when its exact sum is not representable. -/
def Obligations.IntegerAccumulation : Prop :=
  ∀ (s : Int) (w : Nat) (ps : List (Int × Int)), -2 ^ 31 ≤ s → s < 2 ^ 31 →
    (accumulate true ⟨Fl.ofInt s, w⟩ (ps.map (fun p => (Fl.ofInt p.1, Fl.ofInt p.2)))).v = Fl.ofInt (signedOf 32 (patternOf 32 (s + (ps.map (fun p => p.1 * p.2)).sum))) ∧
    ∀ a b : Int, (accumulate true ⟨Fl.ofInt s, w⟩ [(Fl.ofInt a, Fl.ofInt b)]).wraps = (if -2 ^ 31 ≤ s + a * b ∧ s + a * b < 2 ^ 31 then w else w + 1)

/-- R173: elements 2j and 2j + 1 of INT4 are bits [3:0] and [7:4] of byte j; in the blocks of a row, the same holds of MXFP4 and an MXFP6 block is one 192-bit little-endian number whose element j is bits [6j + 5 : 6j]; a scale byte e below 255 multiplies by 2^(e − 127), and 255 makes the element a NaN. -/
def Obligations.SubBytePacking : Prop :=
  (∀ (row : Bytes) (j : Nat), (elOf .int4 row (2 * j)).code = bitsOf (row.getD j 0).toNat 0 4 ∧ (elOf .int4 row (2 * j + 1)).code = bitsOf (row.getD j 0).toNat 4 4) ∧
  (∀ (row : Bytes) (k i j : Nat), i < 15 → j < 16 →
    (elOf .mxfp4 row (32 * (15 * k + i) + 2 * j)).code = bitsOf (row.getD (256 * k + 16 + 16 * i + j) 0).toNat 0 4 ∧
    (elOf .mxfp4 row (32 * (15 * k + i) + 2 * j + 1)).code = bitsOf (row.getD (256 * k + 16 + 16 * i + j) 0).toNat 4 4) ∧
  (∀ (t : ElemType) (row : Bytes) (k i j : Nat), t = .mxe3m2 ∨ t = .mxe2m3 → i < 10 → j < 32 →
    (elOf t row (32 * (10 * k + i) + j)).code = bitsOf (fieldB row (256 * k + 16 + 24 * i) 24) (6 * j) 6) ∧
  (∀ (t : ElemType) (f : FlFmt) (q code e : Nat), t.isMx = true → t.fmt = some f →
    (e < 255 → El.val t q ⟨code, e⟩ = (f.decode code).scale ((e : Int) - 127)) ∧ El.val t q ⟨code, 255⟩ = .nan) ∧
  (∀ q code e : Nat, (e < 255 → El.val .mxint8 q ⟨code, e⟩ = (Fl.ofInt (signedOf 8 code)).scale ((e : Int) - 127 - 6)) ∧ El.val .mxint8 q ⟨code, 255⟩ = .nan)

/-- A load's coordinates are clamped to the edge in every dimension: below 0 to 0, at or above the size to the last, and inside they stay (R185). -/
def Obligations.LoadCoordinatesClamped : Prop :=
  ∀ (d : Desc) (cs : List Int) (k : Nat), k < 6 →
    (d.clampAll cs).getD k 0 < d.range k ∧ (cs.getD k 0 < 0 → (d.clampAll cs).getD k 0 = 0) ∧ ((d.range k : Int) ≤ cs.getD k 0 → (d.clampAll cs).getD k 0 = d.range k - 1) ∧
    (0 ≤ cs.getD k 0 → cs.getD k 0 < d.range k → ((d.clampAll cs).getD k 0 : Int) = cs.getD k 0)

/-- A supply or temperature out of limits during boot ends the boot with cause 0x09: the cause and step are recorded, the code is pushed into the history, and the hold of 100 ms begins with nothing of FAULT_N changed (R344, R345). -/
def Obligations.BootFailureHolds : Prop :=
  ∀ (dt : Nat) (s u : State), u = s.elapse dt → u.bt.step ≠ 0 → u.bt.step ≤ 8 → ∃ t, exec (.bootSupplyFault dt) s = .next t ∧
    t.get F.BT_LAST_CAUSE_CAUSE = 9 ∧ t.get F.BT_LAST_CAUSE_STEP = u.bt.step ∧ t.get64 F.BT_CAUSE_HIST0 F.BT_CAUSE_HIST1 = (u.get64 F.BT_CAUSE_HIST0 F.BT_CAUSE_HIST1 * 256 + 9) % 2 ^ 64 ∧
    t.bt.hold = some u.thy.counter ∧ t.bt.step = 0 ∧ t.pins.faultN = u.flag F.SF_STATUS_FAULT

/-- The machine right after reset: nothing queued and nothing listed in DRAM, SRAM or NVM, FAULT_N driven, HEARTBEAT low, both host pins released, not locked, not running, and register fields at the values their tables give (R32, R297, R316, R347). -/
def Obligations.ResetState : Prop :=
  State.reset.pending = [] ∧ State.reset.memoriesWf = true ∧ State.reset.dram = [] ∧ State.reset.sram = [] ∧ State.reset.nvm = [] ∧
    State.reset.pins.faultN = true ∧ State.reset.pins.heartbeat = false ∧ State.reset.pins.hostIntA = false ∧ State.reset.pins.hostIntB = false ∧
    State.reset.running = false ∧ State.reset.locked = false ∧ State.reset.minimal = false ∧ State.reset.get F.GLB_ID_STEPPING = 0x11 ∧
    State.reset.get F.TB_CFG_START_TIMEOUT = 10 ∧ State.reset.get F.MJ_CAP_MW = 300000 ∧ State.reset.get F.SF_TJ_MAX = 105 ∧ State.reset.get F.TL_CE_LIMIT = 8

/-- The frame of eight commands of the event controller: no memory changes, no register outside the controller's block but the lock block's and the host port's (where a refused store or a host's answer is recorded), and no state of another block (R281 to R294). -/
def Obligations.EventCommandFrame : Prop :=
  ∀ (dt : Nat) (s : State) (c : Fin 8) (v : Word) (r : Requester),
    (∀ src level, ∃ t, exec (.statusSourceChange dt src level) s = .next t ∧ s.light t [0xC]) ∧ (∀ src, ∃ t, exec (.coalesceTimeout dt src) s = .next t ∧ s.light t [0xC]) ∧
    (∀ target, ∃ t, exec (.eventComplete dt c target v) s = .next t ∧ s.light t [0xC, 0xF, 0x11]) ∧ (∃ t, exec (.evGlobalWrite dt c v) s = .next t ∧ s.light t [0xC, 0xF, 0x11]) ∧
    (∀ w, ∃ t, exec (.evMaskWrite dt c w v) s = .next t ∧ s.light t [0xC, 0xF, 0x11]) ∧ (∃ t, exec (.softwareEvent dt c v) s = .next t ∧ s.light t [0xC, 0xF, 0x11]) ∧
    (∀ w, ∃ t, exec (.fenceWatcherArm dt c w v) s = .next t ∧ s.light t [0xC, 0xF, 0x11]) ∧ (∃ t, exec (.evSyncRead dt r) s = .next t ∧ s.light t [0xC, 0x11])

/-- The frame of Thyme's commands: no memory changes, no register outside the blocks named for each (Thyme's, the event controller's, and those that record a refused access or a violation), and no state of another block; a measurement is one within TB_JUMP_NS once result sets have started, which steps nothing (R35 to R48). -/
def Obligations.ThymeCommandFrame : Prop :=
  ∀ (dt : Nat) (s : State) (c : Fin 8) (v : Word) (r : Requester),
    (∃ t, exec (.tbNowLoRead dt r) s = .next t ∧ s.light t [0xC, 0x11]) ∧ (∃ t, exec (.rateCommit dt c) s = .next t ∧ s.light t [1, 0xC, 0xF, 0x11]) ∧
    ((s.elapse dt).flag F.TB_STATUS_STARTED = true → (signedOf 64 (((s.elapse dt).set F.TB_MEAS_HI v.toNat).get64 F.TB_MEAS_LO F.TB_MEAS_HI)).natAbs ≤ (s.elapse dt).get F.TB_JUMP_NS →
      ∃ t, exec (.measurementSubmit dt c v) s = .next t ∧ s.light t [1, 0xC, 0xF, 0x11]) ∧ (∃ t, exec (.measurementTimeout dt) s = .next t ∧ s.light t [1, 0xC]) ∧
    (∃ t, exec (.holdoverLimitReached dt) s = .next t ∧ s.light t [1, 0xC]) ∧ (∃ t, exec (.tbRelockArm dt v) s = .next t ∧ s.light t [0xC, 0xF, 0x11]) ∧
    (∃ t, exec (.relockArmExpiry dt) s = .next t ∧ s.light t []) ∧ (∃ t, exec (.standstillReached dt) s = .next t ∧ s.light t [1]) ∧
    (∃ t, exec (.announceReceiptTimeout dt) s = .next t ∧ s.light t [])

/-- The frame of the control outputs and captures: no memory changes, and no register outside the control outputs' block but those that record a refused store or answer a read (R241 to R244). -/
def Obligations.ControlOutputFrame : Prop :=
  ∀ (dt : Nat) (s : State) (c : Fin 8) (hi : Word) (r : Requester),
    (∀ w, ∃ t, exec (.pwmPeriodBoundary dt w) s = .next t ∧ s.changesOnly t [0x14]) ∧ (∀ o, ∃ t, exec (.triggerFire dt o) s = .next t ∧ s.changesOnly t [0x14]) ∧
    (∀ o, ∃ t, exec (.triggerPulseEnd dt o) s = .next t ∧ s.changesOnly t []) ∧ (∀ o, ∃ t, exec (.triggerTimePush dt c o hi) s = .next t ∧ s.changesOnly t [0x14, 0xC, 0xF, 0x11]) ∧
    (∀ cap, ∃ t, exec (.ioCapPopLoRead dt r cap) s = .next t ∧ s.changesOnly t [0x14, 0xC, 0x11]) ∧ (∀ f, ∃ t, exec (.clFenceLoRead dt r f) s = .next t ∧ s.changesOnly t [0xC, 0x11])

/-- The frame of the CAN controllers' error commands: no memory changes, and no register outside the control outputs' block, the ingress block's ring and the event controller's (R83). -/
def Obligations.CanErrorFrame : Prop :=
  ∀ (dt : Nat) (s : State) (ctrl : Fin 2) (tec rec : Byte),
    (∃ t, exec (.canErrorPassive dt ctrl tec rec) s = .next t ∧ s.light t [0x14, 2, 0xC]) ∧ (∃ t, exec (.canBusOff dt ctrl tec) s = .next t ∧ s.light t [0x14, 2, 0xC]) ∧
    (∃ t, exec (.canBusOffRecovery dt ctrl) s = .next t ∧ s.light t [0x14])

/-- The frame of five of Marjoram's commands: no memory changes, and no register outside Marjoram's, the event controller's, the safety log's and those that record a refused store (R270 to R276). -/
def Obligations.MarjoramCommandFrame : Prop :=
  ∀ (dt : Nat) (s : State) (c : Fin 8) (v : Word),
    (∃ t, exec (.capWrite dt c v) s = .next t ∧ s.changesOnly t [0xB, 0xC, 0xF, 0x11]) ∧ (∀ list, ∃ t, exec (.starveTimeout dt list) s = .next t ∧ s.changesOnly t [0xB]) ∧
    (∃ t, exec (.energyDebtTimeout dt) s = .next t ∧ s.changesOnly t [0xC, 0xD]) ∧ (∀ temps, ∃ t, exec (.zoneSample dt temps) s = .next t ∧ s.changesOnly t [0xB, 0xC, 0xD]) ∧
    (∀ sensor, ∃ t, exec (.sensorSampleTimeout dt sensor) s = .next t ∧ s.changesOnly t [0xB, 0xC, 0xD])

/-- The frame of tile commands that move no data: no memory changes, and no register outside the tiles' block, the event controller's and, for a scrub's finding, the safety log's (R162, R164, R169). -/
def Obligations.TileCommandFrame : Prop :=
  ∀ (dt : Nat) (s : State) (tile : Fin 144),
    (∀ temp, ∃ t, exec (.tileTempSample dt tile temp) s = .next t ∧ s.changesOnly t [5]) ∧ (∀ ok, ∃ t, exec (.opChangeDone dt tile ok) s = .next t ∧ s.changesOnly t [5]) ∧
    (∀ layer row, ∃ t, exec (.vaultRowRemap dt tile layer row) s = .next t ∧ s.changesOnly t [5, 0xC]) ∧
    (∀ offset f, ∃ t, exec (.vaultScrub dt tile offset f) s = .next t ∧ s.changesOnly t [5, 0xC, 0xD])

/-- The frame of a refused access: a core's store to a register it may not write, or with a bit it may not set, and a core's store to an unmapped address, change no memory and no register but those that record the refusal; a core's store with no effect beyond its register changes that register alone (R6, R348, R401, R402). -/
def Obligations.StoreFrame : Prop :=
  ∀ (dt : Nat) (s : State) (c : Fin 8) (addr v : Word),
    (coreMayWrite addr.toNat = false ∨ cleanWrite addr.toNat v = false ∨ mapped addr.toNat = false → ∃ t, exec (.controlCoreStore dt c addr v) s = .next t ∧ s.light t [0xC, 0xF, 0x11]) ∧
    (mapped addr.toNat = true → (s.elapse dt).storeSingle c addr.toNat v = none → (s.elapse dt).storeArray c addr.toNat v = none → coreMayWrite addr.toNat = true → cleanWrite addr.toNat v = true →
      ∃ t, exec (.controlCoreStore dt c addr v) s = .next t ∧ t.rest = s.rest ∧ s.sameMemories t ∧ ∀ b, b ≠ addr.toNat → t.readReg b = s.readReg b)

/-- The frame of a host read of registers: memory keeps its bytes and no register changes outside the event controller's, the host port's and the control outputs' blocks, which the reads with side effects and the answer reach (R377, R404). -/
def Obligations.HostReadFrame : Prop :=
  ∀ (dt : Nat) (s : State) (addr : Word) (crc : BitVec 16) (met : WindowMet), addr.toNat < 0x80000000 → s.hp.reading = none →
    (∃ t, exec (.rd4 dt addr crc met) s = .next t ∧ s.changesOnly t [0xC, 0x11, 0x14]) ∧ (∃ t, exec (.rd64 dt addr crc met) s = .next t ∧ s.changesOnly t [0xC, 0x11, 0x14]) ∧
    (∃ t, exec (.rd256 dt addr crc met) s = .next t ∧ s.changesOnly t [0xC, 0x11, 0x14]) ∧ (∃ t, exec (.rd4k dt addr crc met) s = .next t ∧ s.changesOnly t [0xC, 0x11, 0x14])

/-- The frame of an armed alarm, the reference's return and a boundary-scan instruction: no memory changes, and no register outside the power block's and those that record a refused store; arming an alarm changes nothing else but which alarms were late when they were armed (R357, R365, R367). -/
def Obligations.PowerFrame : Prop :=
  ∀ (dt : Nat) (s : State),
    (∀ c a hi, ∃ t, exec (.alarmArm dt c a hi) s = .next t ∧ s.changesOnly t [0x10, 0xC, 0xF, 0x11] ∧ t.rest = { s.rest with pw := { s.pw with late := t.pw.late } }) ∧ (∃ t, exec (.referenceRestored dt) s = .next t ∧ s.light t []) ∧
    (∀ code, ∃ t, exec (.boundaryScanInstruction dt code) s = .next t ∧ s.changesOnly t [])
end

