-- ==== Sys2Proof/Laws/Memory.lean ====
section
/-! SUPPORT. Laws of the sparse memories: what a read finds after a write, and that every operation keeps the canonical form. -/

namespace Sys2Proof.Machine

variable {α : Type} [DecidableEq α] {d : Nat → α}

/-- A canonical form from a key on is one from any lower key on. -/
theorem Memory.wfFrom_mono {lo hi : Nat} (h : lo ≤ hi) {m : List (Nat × α)} (w : Memory.wfFrom d hi m = true) : Memory.wfFrom d lo m = true := by
  cases m with
  | nil => rfl
  | cons e r =>
    obtain ⟨k, v⟩ := e
    simp only [Memory.wfFrom, Bool.and_eq_true, decide_eq_true_eq] at w ⊢
    exact ⟨⟨by omega, w.1.2⟩, w.2⟩

/-- Below its first key a canonical memory reads as unlisted. -/
theorem Memory.read_below {m : List (Nat × α)} {lo a : Nat} (w : Memory.wfFrom d lo m = true) (h : a < lo) : Memory.read d m a = d a := by
  induction m generalizing lo with
  | nil => rfl
  | cons e r ih =>
    obtain ⟨k, v⟩ := e
    simp only [Memory.wfFrom, Bool.and_eq_true, decide_eq_true_eq] at w
    have : k ≠ a := by omega
    simp only [Memory.read, this, if_false]
    exact ih w.2 (by omega)

omit [DecidableEq α] in
/-- Without its entries a key reads as unlisted. -/
theorem Memory.read_dropKey_same (m : List (Nat × α)) (a : Nat) : Memory.read d (Memory.dropKey m a) a = d a := by
  induction m with
  | nil => rfl
  | cons e r ih =>
    obtain ⟨k, x⟩ := e
    by_cases h : k = a
    · simpa [Memory.dropKey, h] using ih
    · simpa [Memory.dropKey, h, Memory.read] using ih

omit [DecidableEq α] in
/-- Dropping a key's entries leaves every other key. -/
theorem Memory.read_dropKey_other (m : List (Nat × α)) {a b : Nat} (h : b ≠ a) : Memory.read d (Memory.dropKey m a) b = Memory.read d m b := by
  induction m with
  | nil => rfl
  | cons e r ih =>
    obtain ⟨k, x⟩ := e
    by_cases h1 : k = a
    · have : k ≠ b := by omega
      simpa [Memory.dropKey, h1, Memory.read, this, show a ≠ b from h.symm] using ih
    · by_cases h2 : k = b
      · simp [Memory.dropKey, Memory.read, h2, h]
      · simpa [Memory.dropKey, h1, Memory.read, h2] using ih

/-- Dropping entries keeps the canonical form. -/
theorem Memory.wfFrom_filter {m : List (Nat × α)} {lo : Nat} (w : Memory.wfFrom d lo m = true) (p : Nat × α → Bool) :
    Memory.wfFrom d lo (m.filter p) = true := by
  induction m generalizing lo with
  | nil => rfl
  | cons e r ih =>
    obtain ⟨k, x⟩ := e
    simp only [Memory.wfFrom, Bool.and_eq_true, decide_eq_true_eq] at w
    by_cases h : p (k, x)
    · simp only [List.filter_cons, h, if_true, Memory.wfFrom, Bool.and_eq_true, decide_eq_true_eq]
      exact ⟨w.1, ih w.2⟩
    · simp only [List.filter_cons, h, Bool.false_eq_true, if_false]
      exact ih (Memory.wfFrom_mono (by omega) w.2)

/-- Reading the key just written gives the value. -/
theorem Memory.read_write_same (m : List (Nat × α)) (a : Nat) (v : α) : Memory.read d (Memory.write d m a v) a = v := by
  induction m with
  | nil => by_cases h : v = d a <;> simp [Memory.write, Memory.read, h]
  | cons e r ih =>
    obtain ⟨k, x⟩ := e
    unfold Memory.write
    by_cases h1 : k < a
    · have : k ≠ a := by omega
      simpa only [h1, if_true, Memory.read, this, if_false] using ih
    · by_cases h : v = d a
      · rw [if_neg h1, if_pos h, Memory.read_dropKey_same, h]
      · by_cases h2 : k = a <;> simp [Memory.read, h1, h, h2]

/-- Reading another key gives what it held. -/
theorem Memory.read_write_other (m : List (Nat × α)) {a b : Nat} (h : b ≠ a) (v : α) : Memory.read d (Memory.write d m a v) b = Memory.read d m b := by
  induction m with
  | nil => by_cases e : v = d a <;> simp [Memory.write, Memory.read, e, h.symm]
  | cons e r ih =>
    obtain ⟨k, x⟩ := e
    unfold Memory.write
    by_cases h1 : k < a
    · simp only [h1, if_true, Memory.read]
      rw [ih]
    · by_cases e : v = d a
      · rw [if_neg h1, if_pos e, Memory.read_dropKey_other _ h]
      · by_cases h2 : k = a
        · simp [e, h2, Memory.read, h.symm]
        · simp [h1, e, h2, Memory.read, h.symm]

/-- A write keeps the canonical form from a bound on that the key is not below. -/
theorem Memory.wfFrom_write {m : List (Nat × α)} {lo : Nat} (w : Memory.wfFrom d lo m = true) {a : Nat} (h : lo ≤ a) (v : α) :
    Memory.wfFrom d lo (Memory.write d m a v) = true := by
  induction m generalizing lo with
  | nil =>
    by_cases e : v = d a <;> simp [Memory.write, Memory.wfFrom, e, h]
  | cons e r ih =>
    obtain ⟨k, x⟩ := e
    have w' := w
    simp only [Memory.wfFrom, Bool.and_eq_true, decide_eq_true_eq] at w
    unfold Memory.write
    by_cases h1 : k < a
    · simp only [h1, if_true, Memory.wfFrom, Bool.and_eq_true, decide_eq_true_eq]
      exact ⟨w.1, ih w.2 (by omega)⟩
    · by_cases e : v = d a
      · rw [if_neg h1, if_pos e]
        exact Memory.wfFrom_filter w' _
      · by_cases h2 : k = a
        · subst h2
          simp [Memory.wfFrom, e, w.1.1, w.2]
        · simp only [h1, h2, e, if_false, Memory.wfFrom, Bool.and_eq_true, decide_eq_true_eq]
          exact ⟨⟨h, e⟩, ⟨by omega, w.1.2⟩, w.2⟩

/-- A write keeps the canonical form. -/
theorem Memory.wf_write {m : List (Nat × α)} (w : Memory.wf d m = true) (a : Nat) (v : α) : Memory.wf d (Memory.write d m a v) = true :=
  Memory.wfFrom_write w (Nat.zero_le a) v

/-- Writing a run of values keeps the canonical form. -/
theorem Memory.wf_writeRange {m : List (Nat × α)} (w : Memory.wf d m = true) (a : Nat) (vs : List α) :
    Memory.wf d (Memory.writeRange d m a vs) = true := by
  induction vs generalizing m a with
  | nil => exact w
  | cons v vs ih => exact ih (Memory.wf_write w a v) (a + 1)

/-- A run of values leaves every key outside it. -/
theorem Memory.read_writeRange_out (m : List (Nat × α)) {a b : Nat} (vs : List α) (h : b < a ∨ a + vs.length ≤ b) :
    Memory.read d (Memory.writeRange d m a vs) b = Memory.read d m b := by
  induction vs generalizing m a with
  | nil => rfl
  | cons v vs ih =>
    simp only [List.length_cons] at h
    rw [Memory.writeRange, ih _ (by omega), Memory.read_write_other _ (by omega)]

/-- A run of values reads back, value by value. -/
theorem Memory.read_writeRange_in (m : List (Nat × α)) (a : Nat) (vs : List α) (i : Nat) (h : i < vs.length) :
    Memory.read d (Memory.writeRange d m a vs) (a + i) = vs[i] := by
  induction vs generalizing m a i with
  | nil => simp at h
  | cons v vs ih =>
    cases i with
    | zero =>
      rw [Memory.writeRange, Memory.read_writeRange_out _ _ (by omega)]
      exact Memory.read_write_same m a v
    | succ i =>
      have := ih (Memory.write d m a v) (a + 1) i (by simpa using h)
      simpa [Memory.writeRange, Nat.add_assoc, Nat.add_comm 1 i] using this

/-- Forgetting a run of keys keeps the canonical form. -/
theorem Memory.wf_forget {m : List (Nat × α)} (w : Memory.wf d m = true) (a n : Nat) : Memory.wf d (Memory.forget m a n) = true :=
  Memory.wfFrom_filter w _

end Sys2Proof.Machine
end

