-- ==== Sys2Proof/Laws/State.lean ====
section
/-! SUPPORT. Each field of the state after each plain update: what the update sets, and every field it leaves. -/

namespace Sys2Proof.Machine

variable (s : State)

/-! ### elapse: what dt cycles leave -/

@[simp] theorem State.elapse_regs (dt : Nat) : (s.elapse dt).regs = s.regs := rfl
@[simp] theorem State.elapse_dram (dt : Nat) : (s.elapse dt).dram = s.dram := rfl
@[simp] theorem State.elapse_sram (dt : Nat) : (s.elapse dt).sram = s.sram := rfl
@[simp] theorem State.elapse_nvm (dt : Nat) : (s.elapse dt).nvm = s.nvm := rfl
@[simp] theorem State.elapse_thy (dt : Nat) : (s.elapse dt).thy = { s.thy with counter := (s.thy.counter + dt * s.cycleNs) % 2 ^ 64 } := rfl
@[simp] theorem State.elapse_ev (dt : Nat) : (s.elapse dt).ev = s.ev := rfl
@[simp] theorem State.elapse_ig (dt : Nat) : (s.elapse dt).ig = s.ig := rfl
@[simp] theorem State.elapse_sf (dt : Nat) : (s.elapse dt).sf = s.sf := rfl
@[simp] theorem State.elapse_cl (dt : Nat) : (s.elapse dt).cl = s.cl := rfl
@[simp] theorem State.elapse_mj (dt : Nat) : (s.elapse dt).mj = s.mj := rfl
@[simp] theorem State.elapse_tl (dt : Nat) : (s.elapse dt).tl = s.tl := rfl
@[simp] theorem State.elapse_fu (dt : Nat) : (s.elapse dt).fu = s.fu := rfl
@[simp] theorem State.elapse_pt (dt : Nat) : (s.elapse dt).pt = s.pt := rfl
@[simp] theorem State.elapse_at_ (dt : Nat) : (s.elapse dt).at_ = s.at_ := rfl
@[simp] theorem State.elapse_cb (dt : Nat) : (s.elapse dt).cb = s.cb := rfl
@[simp] theorem State.elapse_hp (dt : Nat) : (s.elapse dt).hp = s.hp := rfl
@[simp] theorem State.elapse_lk (dt : Nat) : (s.elapse dt).lk = s.lk := rfl
@[simp] theorem State.elapse_en (dt : Nat) : (s.elapse dt).en = s.en := rfl
@[simp] theorem State.elapse_sv (dt : Nat) : (s.elapse dt).sv = s.sv := rfl
@[simp] theorem State.elapse_io (dt : Nat) : (s.elapse dt).io = s.io := rfl
@[simp] theorem State.elapse_pw (dt : Nat) : (s.elapse dt).pw = s.pw := rfl
@[simp] theorem State.elapse_bt (dt : Nat) : (s.elapse dt).bt = s.bt := rfl
@[simp] theorem State.elapse_jt (dt : Nat) : (s.elapse dt).jt = s.jt := rfl
@[simp] theorem State.elapse_pins (dt : Nat) : (s.elapse dt).pins = s.pins := rfl
@[simp] theorem State.elapse_rc (dt : Nat) : (s.elapse dt).rc = s.rc := rfl
@[simp] theorem State.elapse_hostResp (dt : Nat) : (s.elapse dt).hostResp = s.hostResp := rfl
@[simp] theorem State.elapse_coreData (dt : Nat) : (s.elapse dt).coreData = s.coreData := rfl
@[simp] theorem State.elapse_freeCtr (dt : Nat) : (s.elapse dt).freeCtr = s.freeCtr := rfl
@[simp] theorem State.elapse_pending (dt : Nat) : (s.elapse dt).pending = s.pending := rfl
@[simp] theorem State.elapse_readReg (dt : Nat) (i : Nat) : (s.elapse dt).readReg i = s.readReg i := rfl
@[simp] theorem State.elapse_get (dt : Nat) (fld : Field) : (s.elapse dt).get fld = s.get fld := rfl

/-! ### writeReg: what a register write leaves -/

@[simp] theorem State.writeReg_regs (a : Nat) (w : Word) : (s.writeReg a w).regs = Memory.write regReset s.regs a w := rfl
@[simp] theorem State.writeReg_dram (a : Nat) (w : Word) : (s.writeReg a w).dram = s.dram := rfl
@[simp] theorem State.writeReg_sram (a : Nat) (w : Word) : (s.writeReg a w).sram = s.sram := rfl
@[simp] theorem State.writeReg_nvm (a : Nat) (w : Word) : (s.writeReg a w).nvm = s.nvm := rfl
@[simp] theorem State.writeReg_thy (a : Nat) (w : Word) : (s.writeReg a w).thy = s.thy := rfl
@[simp] theorem State.writeReg_ev (a : Nat) (w : Word) : (s.writeReg a w).ev = s.ev := rfl
@[simp] theorem State.writeReg_ig (a : Nat) (w : Word) : (s.writeReg a w).ig = s.ig := rfl
@[simp] theorem State.writeReg_sf (a : Nat) (w : Word) : (s.writeReg a w).sf = s.sf := rfl
@[simp] theorem State.writeReg_cl (a : Nat) (w : Word) : (s.writeReg a w).cl = s.cl := rfl
@[simp] theorem State.writeReg_mj (a : Nat) (w : Word) : (s.writeReg a w).mj = s.mj := rfl
@[simp] theorem State.writeReg_tl (a : Nat) (w : Word) : (s.writeReg a w).tl = s.tl := rfl
@[simp] theorem State.writeReg_fu (a : Nat) (w : Word) : (s.writeReg a w).fu = s.fu := rfl
@[simp] theorem State.writeReg_pt (a : Nat) (w : Word) : (s.writeReg a w).pt = s.pt := rfl
@[simp] theorem State.writeReg_at_ (a : Nat) (w : Word) : (s.writeReg a w).at_ = s.at_ := rfl
@[simp] theorem State.writeReg_cb (a : Nat) (w : Word) : (s.writeReg a w).cb = s.cb := rfl
@[simp] theorem State.writeReg_hp (a : Nat) (w : Word) : (s.writeReg a w).hp = s.hp := rfl
@[simp] theorem State.writeReg_lk (a : Nat) (w : Word) : (s.writeReg a w).lk = s.lk := rfl
@[simp] theorem State.writeReg_en (a : Nat) (w : Word) : (s.writeReg a w).en = s.en := rfl
@[simp] theorem State.writeReg_sv (a : Nat) (w : Word) : (s.writeReg a w).sv = s.sv := rfl
@[simp] theorem State.writeReg_io (a : Nat) (w : Word) : (s.writeReg a w).io = s.io := rfl
@[simp] theorem State.writeReg_pw (a : Nat) (w : Word) : (s.writeReg a w).pw = s.pw := rfl
@[simp] theorem State.writeReg_bt (a : Nat) (w : Word) : (s.writeReg a w).bt = s.bt := rfl
@[simp] theorem State.writeReg_jt (a : Nat) (w : Word) : (s.writeReg a w).jt = s.jt := rfl
@[simp] theorem State.writeReg_pins (a : Nat) (w : Word) : (s.writeReg a w).pins = s.pins := rfl
@[simp] theorem State.writeReg_rc (a : Nat) (w : Word) : (s.writeReg a w).rc = s.rc := rfl
@[simp] theorem State.writeReg_hostResp (a : Nat) (w : Word) : (s.writeReg a w).hostResp = s.hostResp := rfl
@[simp] theorem State.writeReg_coreData (a : Nat) (w : Word) : (s.writeReg a w).coreData = s.coreData := rfl
@[simp] theorem State.writeReg_freeCtr (a : Nat) (w : Word) : (s.writeReg a w).freeCtr = s.freeCtr := rfl
@[simp] theorem State.writeReg_pending (a : Nat) (w : Word) : (s.writeReg a w).pending = s.pending := rfl

/-! ### set: what a field write leaves -/

@[simp] theorem State.set_dram (f : Field) (n : Nat) : (s.set f n).dram = s.dram := rfl
@[simp] theorem State.set_sram (f : Field) (n : Nat) : (s.set f n).sram = s.sram := rfl
@[simp] theorem State.set_nvm (f : Field) (n : Nat) : (s.set f n).nvm = s.nvm := rfl
@[simp] theorem State.set_thy (f : Field) (n : Nat) : (s.set f n).thy = s.thy := rfl
@[simp] theorem State.set_ev (f : Field) (n : Nat) : (s.set f n).ev = s.ev := rfl
@[simp] theorem State.set_ig (f : Field) (n : Nat) : (s.set f n).ig = s.ig := rfl
@[simp] theorem State.set_sf (f : Field) (n : Nat) : (s.set f n).sf = s.sf := rfl
@[simp] theorem State.set_cl (f : Field) (n : Nat) : (s.set f n).cl = s.cl := rfl
@[simp] theorem State.set_mj (f : Field) (n : Nat) : (s.set f n).mj = s.mj := rfl
@[simp] theorem State.set_tl (f : Field) (n : Nat) : (s.set f n).tl = s.tl := rfl
@[simp] theorem State.set_fu (f : Field) (n : Nat) : (s.set f n).fu = s.fu := rfl
@[simp] theorem State.set_pt (f : Field) (n : Nat) : (s.set f n).pt = s.pt := rfl
@[simp] theorem State.set_at_ (f : Field) (n : Nat) : (s.set f n).at_ = s.at_ := rfl
@[simp] theorem State.set_cb (f : Field) (n : Nat) : (s.set f n).cb = s.cb := rfl
@[simp] theorem State.set_hp (f : Field) (n : Nat) : (s.set f n).hp = s.hp := rfl
@[simp] theorem State.set_lk (f : Field) (n : Nat) : (s.set f n).lk = s.lk := rfl
@[simp] theorem State.set_en (f : Field) (n : Nat) : (s.set f n).en = s.en := rfl
@[simp] theorem State.set_sv (f : Field) (n : Nat) : (s.set f n).sv = s.sv := rfl
@[simp] theorem State.set_io (f : Field) (n : Nat) : (s.set f n).io = s.io := rfl
@[simp] theorem State.set_pw (f : Field) (n : Nat) : (s.set f n).pw = s.pw := rfl
@[simp] theorem State.set_bt (f : Field) (n : Nat) : (s.set f n).bt = s.bt := rfl
@[simp] theorem State.set_jt (f : Field) (n : Nat) : (s.set f n).jt = s.jt := rfl
@[simp] theorem State.set_pins (f : Field) (n : Nat) : (s.set f n).pins = s.pins := rfl
@[simp] theorem State.set_rc (f : Field) (n : Nat) : (s.set f n).rc = s.rc := rfl
@[simp] theorem State.set_hostResp (f : Field) (n : Nat) : (s.set f n).hostResp = s.hostResp := rfl
@[simp] theorem State.set_coreData (f : Field) (n : Nat) : (s.set f n).coreData = s.coreData := rfl
@[simp] theorem State.set_freeCtr (f : Field) (n : Nat) : (s.set f n).freeCtr = s.freeCtr := rfl
@[simp] theorem State.set_pending (f : Field) (n : Nat) : (s.set f n).pending = s.pending := rfl

/-! ### drive: what driving the pins leaves -/

@[simp] theorem State.drive_regs : (s.drive).regs = s.regs := rfl
@[simp] theorem State.drive_dram : (s.drive).dram = s.dram := rfl
@[simp] theorem State.drive_sram : (s.drive).sram = s.sram := rfl
@[simp] theorem State.drive_nvm : (s.drive).nvm = s.nvm := rfl
@[simp] theorem State.drive_thy : (s.drive).thy = s.thy := rfl
@[simp] theorem State.drive_ev : (s.drive).ev = s.ev := rfl
@[simp] theorem State.drive_ig : (s.drive).ig = s.ig := rfl
@[simp] theorem State.drive_sf : (s.drive).sf = s.sf := rfl
@[simp] theorem State.drive_cl : (s.drive).cl = s.cl := rfl
@[simp] theorem State.drive_mj : (s.drive).mj = s.mj := rfl
@[simp] theorem State.drive_tl : (s.drive).tl = s.tl := rfl
@[simp] theorem State.drive_fu : (s.drive).fu = s.fu := rfl
@[simp] theorem State.drive_pt : (s.drive).pt = s.pt := rfl
@[simp] theorem State.drive_at_ : (s.drive).at_ = s.at_ := rfl
@[simp] theorem State.drive_cb : (s.drive).cb = s.cb := rfl
@[simp] theorem State.drive_hp : (s.drive).hp = s.hp := rfl
@[simp] theorem State.drive_lk : (s.drive).lk = s.lk := rfl
@[simp] theorem State.drive_en : (s.drive).en = s.en := rfl
@[simp] theorem State.drive_sv : (s.drive).sv = s.sv := rfl
@[simp] theorem State.drive_io : (s.drive).io = s.io := rfl
@[simp] theorem State.drive_pw : (s.drive).pw = s.pw := rfl
@[simp] theorem State.drive_bt : (s.drive).bt = s.bt := rfl
@[simp] theorem State.drive_jt : (s.drive).jt = s.jt := rfl
@[simp] theorem State.drive_pins : (s.drive).pins = ⟨s.flag F.SF_STATUS_FAULT, s.flag F.SF_STATUS_HB, s.pinAsserted 0, s.pinAsserted 1, s.extestDrives⟩ := rfl
@[simp] theorem State.drive_rc : (s.drive).rc = s.rc := rfl
@[simp] theorem State.drive_hostResp : (s.drive).hostResp = s.hostResp := rfl
@[simp] theorem State.drive_coreData : (s.drive).coreData = s.coreData := rfl
@[simp] theorem State.drive_freeCtr : (s.drive).freeCtr = s.freeCtr := rfl
@[simp] theorem State.drive_pending : (s.drive).pending = s.pending := rfl
@[simp] theorem State.drive_readReg (i : Nat) : (s.drive).readReg i = s.readReg i := rfl
@[simp] theorem State.drive_get (fld : Field) : (s.drive).get fld = s.get fld := rfl

/-! ### answer: what an answer leaves -/

@[simp] theorem State.answer_regs (status tag : Nat) (data : Bytes) : (s.answer status tag data).regs = s.regs := rfl
@[simp] theorem State.answer_dram (status tag : Nat) (data : Bytes) : (s.answer status tag data).dram = s.dram := rfl
@[simp] theorem State.answer_sram (status tag : Nat) (data : Bytes) : (s.answer status tag data).sram = s.sram := rfl
@[simp] theorem State.answer_nvm (status tag : Nat) (data : Bytes) : (s.answer status tag data).nvm = s.nvm := rfl
@[simp] theorem State.answer_thy (status tag : Nat) (data : Bytes) : (s.answer status tag data).thy = s.thy := rfl
@[simp] theorem State.answer_ev (status tag : Nat) (data : Bytes) : (s.answer status tag data).ev = s.ev := rfl
@[simp] theorem State.answer_ig (status tag : Nat) (data : Bytes) : (s.answer status tag data).ig = s.ig := rfl
@[simp] theorem State.answer_sf (status tag : Nat) (data : Bytes) : (s.answer status tag data).sf = s.sf := rfl
@[simp] theorem State.answer_cl (status tag : Nat) (data : Bytes) : (s.answer status tag data).cl = s.cl := rfl
@[simp] theorem State.answer_mj (status tag : Nat) (data : Bytes) : (s.answer status tag data).mj = s.mj := rfl
@[simp] theorem State.answer_tl (status tag : Nat) (data : Bytes) : (s.answer status tag data).tl = s.tl := rfl
@[simp] theorem State.answer_fu (status tag : Nat) (data : Bytes) : (s.answer status tag data).fu = s.fu := rfl
@[simp] theorem State.answer_pt (status tag : Nat) (data : Bytes) : (s.answer status tag data).pt = s.pt := rfl
@[simp] theorem State.answer_at_ (status tag : Nat) (data : Bytes) : (s.answer status tag data).at_ = s.at_ := rfl
@[simp] theorem State.answer_cb (status tag : Nat) (data : Bytes) : (s.answer status tag data).cb = s.cb := rfl
@[simp] theorem State.answer_hp (status tag : Nat) (data : Bytes) : (s.answer status tag data).hp = s.hp := rfl
@[simp] theorem State.answer_lk (status tag : Nat) (data : Bytes) : (s.answer status tag data).lk = s.lk := rfl
@[simp] theorem State.answer_en (status tag : Nat) (data : Bytes) : (s.answer status tag data).en = s.en := rfl
@[simp] theorem State.answer_sv (status tag : Nat) (data : Bytes) : (s.answer status tag data).sv = s.sv := rfl
@[simp] theorem State.answer_io (status tag : Nat) (data : Bytes) : (s.answer status tag data).io = s.io := rfl
@[simp] theorem State.answer_pw (status tag : Nat) (data : Bytes) : (s.answer status tag data).pw = s.pw := rfl
@[simp] theorem State.answer_bt (status tag : Nat) (data : Bytes) : (s.answer status tag data).bt = s.bt := rfl
@[simp] theorem State.answer_jt (status tag : Nat) (data : Bytes) : (s.answer status tag data).jt = s.jt := rfl
@[simp] theorem State.answer_pins (status tag : Nat) (data : Bytes) : (s.answer status tag data).pins = s.pins := rfl
@[simp] theorem State.answer_rc (status tag : Nat) (data : Bytes) : (s.answer status tag data).rc = s.rc := rfl
@[simp] theorem State.answer_hostResp (status tag : Nat) (data : Bytes) : (s.answer status tag data).hostResp = ⟨status, tag, data⟩ := rfl
@[simp] theorem State.answer_coreData (status tag : Nat) (data : Bytes) : (s.answer status tag data).coreData = s.coreData := rfl
@[simp] theorem State.answer_freeCtr (status tag : Nat) (data : Bytes) : (s.answer status tag data).freeCtr = s.freeCtr := rfl
@[simp] theorem State.answer_pending (status tag : Nat) (data : Bytes) : (s.answer status tag data).pending = s.pending := rfl
@[simp] theorem State.answer_readReg (status tag : Nat) (data : Bytes) (i : Nat) : (s.answer status tag data).readReg i = s.readReg i := rfl
@[simp] theorem State.answer_get (status tag : Nat) (data : Bytes) (fld : Field) : (s.answer status tag data).get fld = s.get fld := rfl

/-! ### coreReturn: what a core's read data leaves -/

@[simp] theorem State.coreReturn_regs (c : Nat) (w : Word) : (s.coreReturn c w).regs = s.regs := rfl
@[simp] theorem State.coreReturn_dram (c : Nat) (w : Word) : (s.coreReturn c w).dram = s.dram := rfl
@[simp] theorem State.coreReturn_sram (c : Nat) (w : Word) : (s.coreReturn c w).sram = s.sram := rfl
@[simp] theorem State.coreReturn_nvm (c : Nat) (w : Word) : (s.coreReturn c w).nvm = s.nvm := rfl
@[simp] theorem State.coreReturn_thy (c : Nat) (w : Word) : (s.coreReturn c w).thy = s.thy := rfl
@[simp] theorem State.coreReturn_ev (c : Nat) (w : Word) : (s.coreReturn c w).ev = s.ev := rfl
@[simp] theorem State.coreReturn_ig (c : Nat) (w : Word) : (s.coreReturn c w).ig = s.ig := rfl
@[simp] theorem State.coreReturn_sf (c : Nat) (w : Word) : (s.coreReturn c w).sf = s.sf := rfl
@[simp] theorem State.coreReturn_cl (c : Nat) (w : Word) : (s.coreReturn c w).cl = s.cl := rfl
@[simp] theorem State.coreReturn_mj (c : Nat) (w : Word) : (s.coreReturn c w).mj = s.mj := rfl
@[simp] theorem State.coreReturn_tl (c : Nat) (w : Word) : (s.coreReturn c w).tl = s.tl := rfl
@[simp] theorem State.coreReturn_fu (c : Nat) (w : Word) : (s.coreReturn c w).fu = s.fu := rfl
@[simp] theorem State.coreReturn_pt (c : Nat) (w : Word) : (s.coreReturn c w).pt = s.pt := rfl
@[simp] theorem State.coreReturn_at_ (c : Nat) (w : Word) : (s.coreReturn c w).at_ = s.at_ := rfl
@[simp] theorem State.coreReturn_cb (c : Nat) (w : Word) : (s.coreReturn c w).cb = s.cb := rfl
@[simp] theorem State.coreReturn_hp (c : Nat) (w : Word) : (s.coreReturn c w).hp = s.hp := rfl
@[simp] theorem State.coreReturn_lk (c : Nat) (w : Word) : (s.coreReturn c w).lk = s.lk := rfl
@[simp] theorem State.coreReturn_en (c : Nat) (w : Word) : (s.coreReturn c w).en = s.en := rfl
@[simp] theorem State.coreReturn_sv (c : Nat) (w : Word) : (s.coreReturn c w).sv = s.sv := rfl
@[simp] theorem State.coreReturn_io (c : Nat) (w : Word) : (s.coreReturn c w).io = s.io := rfl
@[simp] theorem State.coreReturn_pw (c : Nat) (w : Word) : (s.coreReturn c w).pw = s.pw := rfl
@[simp] theorem State.coreReturn_bt (c : Nat) (w : Word) : (s.coreReturn c w).bt = s.bt := rfl
@[simp] theorem State.coreReturn_jt (c : Nat) (w : Word) : (s.coreReturn c w).jt = s.jt := rfl
@[simp] theorem State.coreReturn_pins (c : Nat) (w : Word) : (s.coreReturn c w).pins = s.pins := rfl
@[simp] theorem State.coreReturn_rc (c : Nat) (w : Word) : (s.coreReturn c w).rc = s.rc := rfl
@[simp] theorem State.coreReturn_hostResp (c : Nat) (w : Word) : (s.coreReturn c w).hostResp = s.hostResp := rfl
@[simp] theorem State.coreReturn_coreData (c : Nat) (w : Word) : (s.coreReturn c w).coreData = setAt s.coreData c w := rfl
@[simp] theorem State.coreReturn_freeCtr (c : Nat) (w : Word) : (s.coreReturn c w).freeCtr = s.freeCtr := rfl
@[simp] theorem State.coreReturn_pending (c : Nat) (w : Word) : (s.coreReturn c w).pending = s.pending := rfl
@[simp] theorem State.coreReturn_readReg (c : Nat) (w : Word) (i : Nat) : (s.coreReturn c w).readReg i = s.readReg i := rfl
@[simp] theorem State.coreReturn_get (c : Nat) (w : Word) (fld : Field) : (s.coreReturn c w).get fld = s.get fld := rfl

/-! ### nextFree: what drawing a free value leaves -/

@[simp] theorem State.nextFree_regs : (s.nextFree).regs = s.regs := rfl
@[simp] theorem State.nextFree_dram : (s.nextFree).dram = s.dram := rfl
@[simp] theorem State.nextFree_sram : (s.nextFree).sram = s.sram := rfl
@[simp] theorem State.nextFree_nvm : (s.nextFree).nvm = s.nvm := rfl
@[simp] theorem State.nextFree_thy : (s.nextFree).thy = s.thy := rfl
@[simp] theorem State.nextFree_ev : (s.nextFree).ev = s.ev := rfl
@[simp] theorem State.nextFree_ig : (s.nextFree).ig = s.ig := rfl
@[simp] theorem State.nextFree_sf : (s.nextFree).sf = s.sf := rfl
@[simp] theorem State.nextFree_cl : (s.nextFree).cl = s.cl := rfl
@[simp] theorem State.nextFree_mj : (s.nextFree).mj = s.mj := rfl
@[simp] theorem State.nextFree_tl : (s.nextFree).tl = s.tl := rfl
@[simp] theorem State.nextFree_fu : (s.nextFree).fu = s.fu := rfl
@[simp] theorem State.nextFree_pt : (s.nextFree).pt = s.pt := rfl
@[simp] theorem State.nextFree_at_ : (s.nextFree).at_ = s.at_ := rfl
@[simp] theorem State.nextFree_cb : (s.nextFree).cb = s.cb := rfl
@[simp] theorem State.nextFree_hp : (s.nextFree).hp = s.hp := rfl
@[simp] theorem State.nextFree_lk : (s.nextFree).lk = s.lk := rfl
@[simp] theorem State.nextFree_en : (s.nextFree).en = s.en := rfl
@[simp] theorem State.nextFree_sv : (s.nextFree).sv = s.sv := rfl
@[simp] theorem State.nextFree_io : (s.nextFree).io = s.io := rfl
@[simp] theorem State.nextFree_pw : (s.nextFree).pw = s.pw := rfl
@[simp] theorem State.nextFree_bt : (s.nextFree).bt = s.bt := rfl
@[simp] theorem State.nextFree_jt : (s.nextFree).jt = s.jt := rfl
@[simp] theorem State.nextFree_pins : (s.nextFree).pins = s.pins := rfl
@[simp] theorem State.nextFree_rc : (s.nextFree).rc = s.rc := rfl
@[simp] theorem State.nextFree_hostResp : (s.nextFree).hostResp = s.hostResp := rfl
@[simp] theorem State.nextFree_coreData : (s.nextFree).coreData = s.coreData := rfl
@[simp] theorem State.nextFree_freeCtr : (s.nextFree).freeCtr = s.freeCtr + 1 := rfl
@[simp] theorem State.nextFree_pending : (s.nextFree).pending = s.pending := rfl
@[simp] theorem State.nextFree_readReg (i : Nat) : (s.nextFree).readReg i = s.readReg i := rfl
@[simp] theorem State.nextFree_get (fld : Field) : (s.nextFree).get fld = s.get fld := rfl

/-! ### setStream: what a stream's change leaves -/

@[simp] theorem State.setStream_regs (n : Nat) (x : StreamIn) : (s.setStream n x).regs = s.regs := rfl
@[simp] theorem State.setStream_dram (n : Nat) (x : StreamIn) : (s.setStream n x).dram = s.dram := rfl
@[simp] theorem State.setStream_sram (n : Nat) (x : StreamIn) : (s.setStream n x).sram = s.sram := rfl
@[simp] theorem State.setStream_nvm (n : Nat) (x : StreamIn) : (s.setStream n x).nvm = s.nvm := rfl
@[simp] theorem State.setStream_thy (n : Nat) (x : StreamIn) : (s.setStream n x).thy = s.thy := rfl
@[simp] theorem State.setStream_ev (n : Nat) (x : StreamIn) : (s.setStream n x).ev = s.ev := rfl
@[simp] theorem State.setStream_ig (n : Nat) (x : StreamIn) : (s.setStream n x).ig = { s.ig with streams := setAt s.ig.streams n x } := rfl
@[simp] theorem State.setStream_sf (n : Nat) (x : StreamIn) : (s.setStream n x).sf = s.sf := rfl
@[simp] theorem State.setStream_cl (n : Nat) (x : StreamIn) : (s.setStream n x).cl = s.cl := rfl
@[simp] theorem State.setStream_mj (n : Nat) (x : StreamIn) : (s.setStream n x).mj = s.mj := rfl
@[simp] theorem State.setStream_tl (n : Nat) (x : StreamIn) : (s.setStream n x).tl = s.tl := rfl
@[simp] theorem State.setStream_fu (n : Nat) (x : StreamIn) : (s.setStream n x).fu = s.fu := rfl
@[simp] theorem State.setStream_pt (n : Nat) (x : StreamIn) : (s.setStream n x).pt = s.pt := rfl
@[simp] theorem State.setStream_at_ (n : Nat) (x : StreamIn) : (s.setStream n x).at_ = s.at_ := rfl
@[simp] theorem State.setStream_cb (n : Nat) (x : StreamIn) : (s.setStream n x).cb = s.cb := rfl
@[simp] theorem State.setStream_hp (n : Nat) (x : StreamIn) : (s.setStream n x).hp = s.hp := rfl
@[simp] theorem State.setStream_lk (n : Nat) (x : StreamIn) : (s.setStream n x).lk = s.lk := rfl
@[simp] theorem State.setStream_en (n : Nat) (x : StreamIn) : (s.setStream n x).en = s.en := rfl
@[simp] theorem State.setStream_sv (n : Nat) (x : StreamIn) : (s.setStream n x).sv = s.sv := rfl
@[simp] theorem State.setStream_io (n : Nat) (x : StreamIn) : (s.setStream n x).io = s.io := rfl
@[simp] theorem State.setStream_pw (n : Nat) (x : StreamIn) : (s.setStream n x).pw = s.pw := rfl
@[simp] theorem State.setStream_bt (n : Nat) (x : StreamIn) : (s.setStream n x).bt = s.bt := rfl
@[simp] theorem State.setStream_jt (n : Nat) (x : StreamIn) : (s.setStream n x).jt = s.jt := rfl
@[simp] theorem State.setStream_pins (n : Nat) (x : StreamIn) : (s.setStream n x).pins = s.pins := rfl
@[simp] theorem State.setStream_rc (n : Nat) (x : StreamIn) : (s.setStream n x).rc = s.rc := rfl
@[simp] theorem State.setStream_hostResp (n : Nat) (x : StreamIn) : (s.setStream n x).hostResp = s.hostResp := rfl
@[simp] theorem State.setStream_coreData (n : Nat) (x : StreamIn) : (s.setStream n x).coreData = s.coreData := rfl
@[simp] theorem State.setStream_freeCtr (n : Nat) (x : StreamIn) : (s.setStream n x).freeCtr = s.freeCtr := rfl
@[simp] theorem State.setStream_pending (n : Nat) (x : StreamIn) : (s.setStream n x).pending = s.pending := rfl
@[simp] theorem State.setStream_readReg (n : Nat) (x : StreamIn) (i : Nat) : (s.setStream n x).readReg i = s.readReg i := rfl
@[simp] theorem State.setStream_get (n : Nat) (x : StreamIn) (fld : Field) : (s.setStream n x).get fld = s.get fld := rfl

/-! ### setEvCore: what a core's event state leaves -/

@[simp] theorem State.setEvCore_regs (c : Nat) (x : EvCore) : (s.setEvCore c x).regs = s.regs := rfl
@[simp] theorem State.setEvCore_dram (c : Nat) (x : EvCore) : (s.setEvCore c x).dram = s.dram := rfl
@[simp] theorem State.setEvCore_sram (c : Nat) (x : EvCore) : (s.setEvCore c x).sram = s.sram := rfl
@[simp] theorem State.setEvCore_nvm (c : Nat) (x : EvCore) : (s.setEvCore c x).nvm = s.nvm := rfl
@[simp] theorem State.setEvCore_thy (c : Nat) (x : EvCore) : (s.setEvCore c x).thy = s.thy := rfl
@[simp] theorem State.setEvCore_ev (c : Nat) (x : EvCore) : (s.setEvCore c x).ev = { s.ev with cores := setAt s.ev.cores c x } := rfl
@[simp] theorem State.setEvCore_ig (c : Nat) (x : EvCore) : (s.setEvCore c x).ig = s.ig := rfl
@[simp] theorem State.setEvCore_sf (c : Nat) (x : EvCore) : (s.setEvCore c x).sf = s.sf := rfl
@[simp] theorem State.setEvCore_cl (c : Nat) (x : EvCore) : (s.setEvCore c x).cl = s.cl := rfl
@[simp] theorem State.setEvCore_mj (c : Nat) (x : EvCore) : (s.setEvCore c x).mj = s.mj := rfl
@[simp] theorem State.setEvCore_tl (c : Nat) (x : EvCore) : (s.setEvCore c x).tl = s.tl := rfl
@[simp] theorem State.setEvCore_fu (c : Nat) (x : EvCore) : (s.setEvCore c x).fu = s.fu := rfl
@[simp] theorem State.setEvCore_pt (c : Nat) (x : EvCore) : (s.setEvCore c x).pt = s.pt := rfl
@[simp] theorem State.setEvCore_at_ (c : Nat) (x : EvCore) : (s.setEvCore c x).at_ = s.at_ := rfl
@[simp] theorem State.setEvCore_cb (c : Nat) (x : EvCore) : (s.setEvCore c x).cb = s.cb := rfl
@[simp] theorem State.setEvCore_hp (c : Nat) (x : EvCore) : (s.setEvCore c x).hp = s.hp := rfl
@[simp] theorem State.setEvCore_lk (c : Nat) (x : EvCore) : (s.setEvCore c x).lk = s.lk := rfl
@[simp] theorem State.setEvCore_en (c : Nat) (x : EvCore) : (s.setEvCore c x).en = s.en := rfl
@[simp] theorem State.setEvCore_sv (c : Nat) (x : EvCore) : (s.setEvCore c x).sv = s.sv := rfl
@[simp] theorem State.setEvCore_io (c : Nat) (x : EvCore) : (s.setEvCore c x).io = s.io := rfl
@[simp] theorem State.setEvCore_pw (c : Nat) (x : EvCore) : (s.setEvCore c x).pw = s.pw := rfl
@[simp] theorem State.setEvCore_bt (c : Nat) (x : EvCore) : (s.setEvCore c x).bt = s.bt := rfl
@[simp] theorem State.setEvCore_jt (c : Nat) (x : EvCore) : (s.setEvCore c x).jt = s.jt := rfl
@[simp] theorem State.setEvCore_pins (c : Nat) (x : EvCore) : (s.setEvCore c x).pins = s.pins := rfl
@[simp] theorem State.setEvCore_rc (c : Nat) (x : EvCore) : (s.setEvCore c x).rc = s.rc := rfl
@[simp] theorem State.setEvCore_hostResp (c : Nat) (x : EvCore) : (s.setEvCore c x).hostResp = s.hostResp := rfl
@[simp] theorem State.setEvCore_coreData (c : Nat) (x : EvCore) : (s.setEvCore c x).coreData = s.coreData := rfl
@[simp] theorem State.setEvCore_freeCtr (c : Nat) (x : EvCore) : (s.setEvCore c x).freeCtr = s.freeCtr := rfl
@[simp] theorem State.setEvCore_pending (c : Nat) (x : EvCore) : (s.setEvCore c x).pending = s.pending := rfl
@[simp] theorem State.setEvCore_readReg (c : Nat) (x : EvCore) (i : Nat) : (s.setEvCore c x).readReg i = s.readReg i := rfl
@[simp] theorem State.setEvCore_get (c : Nat) (x : EvCore) (fld : Field) : (s.setEvCore c x).get fld = s.get fld := rfl

/-! ### setThy: what a change of thy leaves -/

@[simp] theorem State.setThy_regs (g : ThyState → ThyState) : (s.setThy g).regs = s.regs := rfl
@[simp] theorem State.setThy_dram (g : ThyState → ThyState) : (s.setThy g).dram = s.dram := rfl
@[simp] theorem State.setThy_sram (g : ThyState → ThyState) : (s.setThy g).sram = s.sram := rfl
@[simp] theorem State.setThy_nvm (g : ThyState → ThyState) : (s.setThy g).nvm = s.nvm := rfl
@[simp] theorem State.setThy_thy (g : ThyState → ThyState) : (s.setThy g).thy = g s.thy := rfl
@[simp] theorem State.setThy_ev (g : ThyState → ThyState) : (s.setThy g).ev = s.ev := rfl
@[simp] theorem State.setThy_ig (g : ThyState → ThyState) : (s.setThy g).ig = s.ig := rfl
@[simp] theorem State.setThy_sf (g : ThyState → ThyState) : (s.setThy g).sf = s.sf := rfl
@[simp] theorem State.setThy_cl (g : ThyState → ThyState) : (s.setThy g).cl = s.cl := rfl
@[simp] theorem State.setThy_mj (g : ThyState → ThyState) : (s.setThy g).mj = s.mj := rfl
@[simp] theorem State.setThy_tl (g : ThyState → ThyState) : (s.setThy g).tl = s.tl := rfl
@[simp] theorem State.setThy_fu (g : ThyState → ThyState) : (s.setThy g).fu = s.fu := rfl
@[simp] theorem State.setThy_pt (g : ThyState → ThyState) : (s.setThy g).pt = s.pt := rfl
@[simp] theorem State.setThy_at_ (g : ThyState → ThyState) : (s.setThy g).at_ = s.at_ := rfl
@[simp] theorem State.setThy_cb (g : ThyState → ThyState) : (s.setThy g).cb = s.cb := rfl
@[simp] theorem State.setThy_hp (g : ThyState → ThyState) : (s.setThy g).hp = s.hp := rfl
@[simp] theorem State.setThy_lk (g : ThyState → ThyState) : (s.setThy g).lk = s.lk := rfl
@[simp] theorem State.setThy_en (g : ThyState → ThyState) : (s.setThy g).en = s.en := rfl
@[simp] theorem State.setThy_sv (g : ThyState → ThyState) : (s.setThy g).sv = s.sv := rfl
@[simp] theorem State.setThy_io (g : ThyState → ThyState) : (s.setThy g).io = s.io := rfl
@[simp] theorem State.setThy_pw (g : ThyState → ThyState) : (s.setThy g).pw = s.pw := rfl
@[simp] theorem State.setThy_bt (g : ThyState → ThyState) : (s.setThy g).bt = s.bt := rfl
@[simp] theorem State.setThy_jt (g : ThyState → ThyState) : (s.setThy g).jt = s.jt := rfl
@[simp] theorem State.setThy_pins (g : ThyState → ThyState) : (s.setThy g).pins = s.pins := rfl
@[simp] theorem State.setThy_rc (g : ThyState → ThyState) : (s.setThy g).rc = s.rc := rfl
@[simp] theorem State.setThy_hostResp (g : ThyState → ThyState) : (s.setThy g).hostResp = s.hostResp := rfl
@[simp] theorem State.setThy_coreData (g : ThyState → ThyState) : (s.setThy g).coreData = s.coreData := rfl
@[simp] theorem State.setThy_freeCtr (g : ThyState → ThyState) : (s.setThy g).freeCtr = s.freeCtr := rfl
@[simp] theorem State.setThy_pending (g : ThyState → ThyState) : (s.setThy g).pending = s.pending := rfl
@[simp] theorem State.setThy_readReg (g : ThyState → ThyState) (i : Nat) : (s.setThy g).readReg i = s.readReg i := rfl
@[simp] theorem State.setThy_get (g : ThyState → ThyState) (fld : Field) : (s.setThy g).get fld = s.get fld := rfl

/-! ### setIo: what a change of io leaves -/

@[simp] theorem State.setIo_regs (g : IoState → IoState) : (s.setIo g).regs = s.regs := rfl
@[simp] theorem State.setIo_dram (g : IoState → IoState) : (s.setIo g).dram = s.dram := rfl
@[simp] theorem State.setIo_sram (g : IoState → IoState) : (s.setIo g).sram = s.sram := rfl
@[simp] theorem State.setIo_nvm (g : IoState → IoState) : (s.setIo g).nvm = s.nvm := rfl
@[simp] theorem State.setIo_thy (g : IoState → IoState) : (s.setIo g).thy = s.thy := rfl
@[simp] theorem State.setIo_ev (g : IoState → IoState) : (s.setIo g).ev = s.ev := rfl
@[simp] theorem State.setIo_ig (g : IoState → IoState) : (s.setIo g).ig = s.ig := rfl
@[simp] theorem State.setIo_sf (g : IoState → IoState) : (s.setIo g).sf = s.sf := rfl
@[simp] theorem State.setIo_cl (g : IoState → IoState) : (s.setIo g).cl = s.cl := rfl
@[simp] theorem State.setIo_mj (g : IoState → IoState) : (s.setIo g).mj = s.mj := rfl
@[simp] theorem State.setIo_tl (g : IoState → IoState) : (s.setIo g).tl = s.tl := rfl
@[simp] theorem State.setIo_fu (g : IoState → IoState) : (s.setIo g).fu = s.fu := rfl
@[simp] theorem State.setIo_pt (g : IoState → IoState) : (s.setIo g).pt = s.pt := rfl
@[simp] theorem State.setIo_at_ (g : IoState → IoState) : (s.setIo g).at_ = s.at_ := rfl
@[simp] theorem State.setIo_cb (g : IoState → IoState) : (s.setIo g).cb = s.cb := rfl
@[simp] theorem State.setIo_hp (g : IoState → IoState) : (s.setIo g).hp = s.hp := rfl
@[simp] theorem State.setIo_lk (g : IoState → IoState) : (s.setIo g).lk = s.lk := rfl
@[simp] theorem State.setIo_en (g : IoState → IoState) : (s.setIo g).en = s.en := rfl
@[simp] theorem State.setIo_sv (g : IoState → IoState) : (s.setIo g).sv = s.sv := rfl
@[simp] theorem State.setIo_io (g : IoState → IoState) : (s.setIo g).io = g s.io := rfl
@[simp] theorem State.setIo_pw (g : IoState → IoState) : (s.setIo g).pw = s.pw := rfl
@[simp] theorem State.setIo_bt (g : IoState → IoState) : (s.setIo g).bt = s.bt := rfl
@[simp] theorem State.setIo_jt (g : IoState → IoState) : (s.setIo g).jt = s.jt := rfl
@[simp] theorem State.setIo_pins (g : IoState → IoState) : (s.setIo g).pins = s.pins := rfl
@[simp] theorem State.setIo_rc (g : IoState → IoState) : (s.setIo g).rc = s.rc := rfl
@[simp] theorem State.setIo_hostResp (g : IoState → IoState) : (s.setIo g).hostResp = s.hostResp := rfl
@[simp] theorem State.setIo_coreData (g : IoState → IoState) : (s.setIo g).coreData = s.coreData := rfl
@[simp] theorem State.setIo_freeCtr (g : IoState → IoState) : (s.setIo g).freeCtr = s.freeCtr := rfl
@[simp] theorem State.setIo_pending (g : IoState → IoState) : (s.setIo g).pending = s.pending := rfl
@[simp] theorem State.setIo_readReg (g : IoState → IoState) (i : Nat) : (s.setIo g).readReg i = s.readReg i := rfl
@[simp] theorem State.setIo_get (g : IoState → IoState) (fld : Field) : (s.setIo g).get fld = s.get fld := rfl

/-! ### setRc: what a change of rc leaves -/

@[simp] theorem State.setRc_regs (g : RcState → RcState) : (s.setRc g).regs = s.regs := rfl
@[simp] theorem State.setRc_dram (g : RcState → RcState) : (s.setRc g).dram = s.dram := rfl
@[simp] theorem State.setRc_sram (g : RcState → RcState) : (s.setRc g).sram = s.sram := rfl
@[simp] theorem State.setRc_nvm (g : RcState → RcState) : (s.setRc g).nvm = s.nvm := rfl
@[simp] theorem State.setRc_thy (g : RcState → RcState) : (s.setRc g).thy = s.thy := rfl
@[simp] theorem State.setRc_ev (g : RcState → RcState) : (s.setRc g).ev = s.ev := rfl
@[simp] theorem State.setRc_ig (g : RcState → RcState) : (s.setRc g).ig = s.ig := rfl
@[simp] theorem State.setRc_sf (g : RcState → RcState) : (s.setRc g).sf = s.sf := rfl
@[simp] theorem State.setRc_cl (g : RcState → RcState) : (s.setRc g).cl = s.cl := rfl
@[simp] theorem State.setRc_mj (g : RcState → RcState) : (s.setRc g).mj = s.mj := rfl
@[simp] theorem State.setRc_tl (g : RcState → RcState) : (s.setRc g).tl = s.tl := rfl
@[simp] theorem State.setRc_fu (g : RcState → RcState) : (s.setRc g).fu = s.fu := rfl
@[simp] theorem State.setRc_pt (g : RcState → RcState) : (s.setRc g).pt = s.pt := rfl
@[simp] theorem State.setRc_at_ (g : RcState → RcState) : (s.setRc g).at_ = s.at_ := rfl
@[simp] theorem State.setRc_cb (g : RcState → RcState) : (s.setRc g).cb = s.cb := rfl
@[simp] theorem State.setRc_hp (g : RcState → RcState) : (s.setRc g).hp = s.hp := rfl
@[simp] theorem State.setRc_lk (g : RcState → RcState) : (s.setRc g).lk = s.lk := rfl
@[simp] theorem State.setRc_en (g : RcState → RcState) : (s.setRc g).en = s.en := rfl
@[simp] theorem State.setRc_sv (g : RcState → RcState) : (s.setRc g).sv = s.sv := rfl
@[simp] theorem State.setRc_io (g : RcState → RcState) : (s.setRc g).io = s.io := rfl
@[simp] theorem State.setRc_pw (g : RcState → RcState) : (s.setRc g).pw = s.pw := rfl
@[simp] theorem State.setRc_bt (g : RcState → RcState) : (s.setRc g).bt = s.bt := rfl
@[simp] theorem State.setRc_jt (g : RcState → RcState) : (s.setRc g).jt = s.jt := rfl
@[simp] theorem State.setRc_pins (g : RcState → RcState) : (s.setRc g).pins = s.pins := rfl
@[simp] theorem State.setRc_rc (g : RcState → RcState) : (s.setRc g).rc = g s.rc := rfl
@[simp] theorem State.setRc_hostResp (g : RcState → RcState) : (s.setRc g).hostResp = s.hostResp := rfl
@[simp] theorem State.setRc_coreData (g : RcState → RcState) : (s.setRc g).coreData = s.coreData := rfl
@[simp] theorem State.setRc_freeCtr (g : RcState → RcState) : (s.setRc g).freeCtr = s.freeCtr := rfl
@[simp] theorem State.setRc_pending (g : RcState → RcState) : (s.setRc g).pending = s.pending := rfl
@[simp] theorem State.setRc_readReg (g : RcState → RcState) (i : Nat) : (s.setRc g).readReg i = s.readReg i := rfl
@[simp] theorem State.setRc_get (g : RcState → RcState) (fld : Field) : (s.setRc g).get fld = s.get fld := rfl

/-! ### setBt: what a change of bt leaves -/

@[simp] theorem State.setBt_regs (g : BtState → BtState) : (s.setBt g).regs = s.regs := rfl
@[simp] theorem State.setBt_dram (g : BtState → BtState) : (s.setBt g).dram = s.dram := rfl
@[simp] theorem State.setBt_sram (g : BtState → BtState) : (s.setBt g).sram = s.sram := rfl
@[simp] theorem State.setBt_nvm (g : BtState → BtState) : (s.setBt g).nvm = s.nvm := rfl
@[simp] theorem State.setBt_thy (g : BtState → BtState) : (s.setBt g).thy = s.thy := rfl
@[simp] theorem State.setBt_ev (g : BtState → BtState) : (s.setBt g).ev = s.ev := rfl
@[simp] theorem State.setBt_ig (g : BtState → BtState) : (s.setBt g).ig = s.ig := rfl
@[simp] theorem State.setBt_sf (g : BtState → BtState) : (s.setBt g).sf = s.sf := rfl
@[simp] theorem State.setBt_cl (g : BtState → BtState) : (s.setBt g).cl = s.cl := rfl
@[simp] theorem State.setBt_mj (g : BtState → BtState) : (s.setBt g).mj = s.mj := rfl
@[simp] theorem State.setBt_tl (g : BtState → BtState) : (s.setBt g).tl = s.tl := rfl
@[simp] theorem State.setBt_fu (g : BtState → BtState) : (s.setBt g).fu = s.fu := rfl
@[simp] theorem State.setBt_pt (g : BtState → BtState) : (s.setBt g).pt = s.pt := rfl
@[simp] theorem State.setBt_at_ (g : BtState → BtState) : (s.setBt g).at_ = s.at_ := rfl
@[simp] theorem State.setBt_cb (g : BtState → BtState) : (s.setBt g).cb = s.cb := rfl
@[simp] theorem State.setBt_hp (g : BtState → BtState) : (s.setBt g).hp = s.hp := rfl
@[simp] theorem State.setBt_lk (g : BtState → BtState) : (s.setBt g).lk = s.lk := rfl
@[simp] theorem State.setBt_en (g : BtState → BtState) : (s.setBt g).en = s.en := rfl
@[simp] theorem State.setBt_sv (g : BtState → BtState) : (s.setBt g).sv = s.sv := rfl
@[simp] theorem State.setBt_io (g : BtState → BtState) : (s.setBt g).io = s.io := rfl
@[simp] theorem State.setBt_pw (g : BtState → BtState) : (s.setBt g).pw = s.pw := rfl
@[simp] theorem State.setBt_bt (g : BtState → BtState) : (s.setBt g).bt = g s.bt := rfl
@[simp] theorem State.setBt_jt (g : BtState → BtState) : (s.setBt g).jt = s.jt := rfl
@[simp] theorem State.setBt_pins (g : BtState → BtState) : (s.setBt g).pins = s.pins := rfl
@[simp] theorem State.setBt_rc (g : BtState → BtState) : (s.setBt g).rc = s.rc := rfl
@[simp] theorem State.setBt_hostResp (g : BtState → BtState) : (s.setBt g).hostResp = s.hostResp := rfl
@[simp] theorem State.setBt_coreData (g : BtState → BtState) : (s.setBt g).coreData = s.coreData := rfl
@[simp] theorem State.setBt_freeCtr (g : BtState → BtState) : (s.setBt g).freeCtr = s.freeCtr := rfl
@[simp] theorem State.setBt_pending (g : BtState → BtState) : (s.setBt g).pending = s.pending := rfl
@[simp] theorem State.setBt_readReg (g : BtState → BtState) (i : Nat) : (s.setBt g).readReg i = s.readReg i := rfl
@[simp] theorem State.setBt_get (g : BtState → BtState) (fld : Field) : (s.setBt g).get fld = s.get fld := rfl

/-! ### setLk: what a change of lk leaves -/

@[simp] theorem State.setLk_regs (g : LkState → LkState) : (s.setLk g).regs = s.regs := rfl
@[simp] theorem State.setLk_dram (g : LkState → LkState) : (s.setLk g).dram = s.dram := rfl
@[simp] theorem State.setLk_sram (g : LkState → LkState) : (s.setLk g).sram = s.sram := rfl
@[simp] theorem State.setLk_nvm (g : LkState → LkState) : (s.setLk g).nvm = s.nvm := rfl
@[simp] theorem State.setLk_thy (g : LkState → LkState) : (s.setLk g).thy = s.thy := rfl
@[simp] theorem State.setLk_ev (g : LkState → LkState) : (s.setLk g).ev = s.ev := rfl
@[simp] theorem State.setLk_ig (g : LkState → LkState) : (s.setLk g).ig = s.ig := rfl
@[simp] theorem State.setLk_sf (g : LkState → LkState) : (s.setLk g).sf = s.sf := rfl
@[simp] theorem State.setLk_cl (g : LkState → LkState) : (s.setLk g).cl = s.cl := rfl
@[simp] theorem State.setLk_mj (g : LkState → LkState) : (s.setLk g).mj = s.mj := rfl
@[simp] theorem State.setLk_tl (g : LkState → LkState) : (s.setLk g).tl = s.tl := rfl
@[simp] theorem State.setLk_fu (g : LkState → LkState) : (s.setLk g).fu = s.fu := rfl
@[simp] theorem State.setLk_pt (g : LkState → LkState) : (s.setLk g).pt = s.pt := rfl
@[simp] theorem State.setLk_at_ (g : LkState → LkState) : (s.setLk g).at_ = s.at_ := rfl
@[simp] theorem State.setLk_cb (g : LkState → LkState) : (s.setLk g).cb = s.cb := rfl
@[simp] theorem State.setLk_hp (g : LkState → LkState) : (s.setLk g).hp = s.hp := rfl
@[simp] theorem State.setLk_lk (g : LkState → LkState) : (s.setLk g).lk = g s.lk := rfl
@[simp] theorem State.setLk_en (g : LkState → LkState) : (s.setLk g).en = s.en := rfl
@[simp] theorem State.setLk_sv (g : LkState → LkState) : (s.setLk g).sv = s.sv := rfl
@[simp] theorem State.setLk_io (g : LkState → LkState) : (s.setLk g).io = s.io := rfl
@[simp] theorem State.setLk_pw (g : LkState → LkState) : (s.setLk g).pw = s.pw := rfl
@[simp] theorem State.setLk_bt (g : LkState → LkState) : (s.setLk g).bt = s.bt := rfl
@[simp] theorem State.setLk_jt (g : LkState → LkState) : (s.setLk g).jt = s.jt := rfl
@[simp] theorem State.setLk_pins (g : LkState → LkState) : (s.setLk g).pins = s.pins := rfl
@[simp] theorem State.setLk_rc (g : LkState → LkState) : (s.setLk g).rc = s.rc := rfl
@[simp] theorem State.setLk_hostResp (g : LkState → LkState) : (s.setLk g).hostResp = s.hostResp := rfl
@[simp] theorem State.setLk_coreData (g : LkState → LkState) : (s.setLk g).coreData = s.coreData := rfl
@[simp] theorem State.setLk_freeCtr (g : LkState → LkState) : (s.setLk g).freeCtr = s.freeCtr := rfl
@[simp] theorem State.setLk_pending (g : LkState → LkState) : (s.setLk g).pending = s.pending := rfl
@[simp] theorem State.setLk_readReg (g : LkState → LkState) (i : Nat) : (s.setLk g).readReg i = s.readReg i := rfl
@[simp] theorem State.setLk_get (g : LkState → LkState) (fld : Field) : (s.setLk g).get fld = s.get fld := rfl

/-! ### setMj: what a change of mj leaves -/

@[simp] theorem State.setMj_regs (g : MjState → MjState) : (s.setMj g).regs = s.regs := rfl
@[simp] theorem State.setMj_dram (g : MjState → MjState) : (s.setMj g).dram = s.dram := rfl
@[simp] theorem State.setMj_sram (g : MjState → MjState) : (s.setMj g).sram = s.sram := rfl
@[simp] theorem State.setMj_nvm (g : MjState → MjState) : (s.setMj g).nvm = s.nvm := rfl
@[simp] theorem State.setMj_thy (g : MjState → MjState) : (s.setMj g).thy = s.thy := rfl
@[simp] theorem State.setMj_ev (g : MjState → MjState) : (s.setMj g).ev = s.ev := rfl
@[simp] theorem State.setMj_ig (g : MjState → MjState) : (s.setMj g).ig = s.ig := rfl
@[simp] theorem State.setMj_sf (g : MjState → MjState) : (s.setMj g).sf = s.sf := rfl
@[simp] theorem State.setMj_cl (g : MjState → MjState) : (s.setMj g).cl = s.cl := rfl
@[simp] theorem State.setMj_mj (g : MjState → MjState) : (s.setMj g).mj = g s.mj := rfl
@[simp] theorem State.setMj_tl (g : MjState → MjState) : (s.setMj g).tl = s.tl := rfl
@[simp] theorem State.setMj_fu (g : MjState → MjState) : (s.setMj g).fu = s.fu := rfl
@[simp] theorem State.setMj_pt (g : MjState → MjState) : (s.setMj g).pt = s.pt := rfl
@[simp] theorem State.setMj_at_ (g : MjState → MjState) : (s.setMj g).at_ = s.at_ := rfl
@[simp] theorem State.setMj_cb (g : MjState → MjState) : (s.setMj g).cb = s.cb := rfl
@[simp] theorem State.setMj_hp (g : MjState → MjState) : (s.setMj g).hp = s.hp := rfl
@[simp] theorem State.setMj_lk (g : MjState → MjState) : (s.setMj g).lk = s.lk := rfl
@[simp] theorem State.setMj_en (g : MjState → MjState) : (s.setMj g).en = s.en := rfl
@[simp] theorem State.setMj_sv (g : MjState → MjState) : (s.setMj g).sv = s.sv := rfl
@[simp] theorem State.setMj_io (g : MjState → MjState) : (s.setMj g).io = s.io := rfl
@[simp] theorem State.setMj_pw (g : MjState → MjState) : (s.setMj g).pw = s.pw := rfl
@[simp] theorem State.setMj_bt (g : MjState → MjState) : (s.setMj g).bt = s.bt := rfl
@[simp] theorem State.setMj_jt (g : MjState → MjState) : (s.setMj g).jt = s.jt := rfl
@[simp] theorem State.setMj_pins (g : MjState → MjState) : (s.setMj g).pins = s.pins := rfl
@[simp] theorem State.setMj_rc (g : MjState → MjState) : (s.setMj g).rc = s.rc := rfl
@[simp] theorem State.setMj_hostResp (g : MjState → MjState) : (s.setMj g).hostResp = s.hostResp := rfl
@[simp] theorem State.setMj_coreData (g : MjState → MjState) : (s.setMj g).coreData = s.coreData := rfl
@[simp] theorem State.setMj_freeCtr (g : MjState → MjState) : (s.setMj g).freeCtr = s.freeCtr := rfl
@[simp] theorem State.setMj_pending (g : MjState → MjState) : (s.setMj g).pending = s.pending := rfl
@[simp] theorem State.setMj_readReg (g : MjState → MjState) (i : Nat) : (s.setMj g).readReg i = s.readReg i := rfl
@[simp] theorem State.setMj_get (g : MjState → MjState) (fld : Field) : (s.setMj g).get fld = s.get fld := rfl

/-! ### setPw: what a change of pw leaves -/

@[simp] theorem State.setPw_regs (g : PwState → PwState) : (s.setPw g).regs = s.regs := rfl
@[simp] theorem State.setPw_dram (g : PwState → PwState) : (s.setPw g).dram = s.dram := rfl
@[simp] theorem State.setPw_sram (g : PwState → PwState) : (s.setPw g).sram = s.sram := rfl
@[simp] theorem State.setPw_nvm (g : PwState → PwState) : (s.setPw g).nvm = s.nvm := rfl
@[simp] theorem State.setPw_thy (g : PwState → PwState) : (s.setPw g).thy = s.thy := rfl
@[simp] theorem State.setPw_ev (g : PwState → PwState) : (s.setPw g).ev = s.ev := rfl
@[simp] theorem State.setPw_ig (g : PwState → PwState) : (s.setPw g).ig = s.ig := rfl
@[simp] theorem State.setPw_sf (g : PwState → PwState) : (s.setPw g).sf = s.sf := rfl
@[simp] theorem State.setPw_cl (g : PwState → PwState) : (s.setPw g).cl = s.cl := rfl
@[simp] theorem State.setPw_mj (g : PwState → PwState) : (s.setPw g).mj = s.mj := rfl
@[simp] theorem State.setPw_tl (g : PwState → PwState) : (s.setPw g).tl = s.tl := rfl
@[simp] theorem State.setPw_fu (g : PwState → PwState) : (s.setPw g).fu = s.fu := rfl
@[simp] theorem State.setPw_pt (g : PwState → PwState) : (s.setPw g).pt = s.pt := rfl
@[simp] theorem State.setPw_at_ (g : PwState → PwState) : (s.setPw g).at_ = s.at_ := rfl
@[simp] theorem State.setPw_cb (g : PwState → PwState) : (s.setPw g).cb = s.cb := rfl
@[simp] theorem State.setPw_hp (g : PwState → PwState) : (s.setPw g).hp = s.hp := rfl
@[simp] theorem State.setPw_lk (g : PwState → PwState) : (s.setPw g).lk = s.lk := rfl
@[simp] theorem State.setPw_en (g : PwState → PwState) : (s.setPw g).en = s.en := rfl
@[simp] theorem State.setPw_sv (g : PwState → PwState) : (s.setPw g).sv = s.sv := rfl
@[simp] theorem State.setPw_io (g : PwState → PwState) : (s.setPw g).io = s.io := rfl
@[simp] theorem State.setPw_pw (g : PwState → PwState) : (s.setPw g).pw = g s.pw := rfl
@[simp] theorem State.setPw_bt (g : PwState → PwState) : (s.setPw g).bt = s.bt := rfl
@[simp] theorem State.setPw_jt (g : PwState → PwState) : (s.setPw g).jt = s.jt := rfl
@[simp] theorem State.setPw_pins (g : PwState → PwState) : (s.setPw g).pins = s.pins := rfl
@[simp] theorem State.setPw_rc (g : PwState → PwState) : (s.setPw g).rc = s.rc := rfl
@[simp] theorem State.setPw_hostResp (g : PwState → PwState) : (s.setPw g).hostResp = s.hostResp := rfl
@[simp] theorem State.setPw_coreData (g : PwState → PwState) : (s.setPw g).coreData = s.coreData := rfl
@[simp] theorem State.setPw_freeCtr (g : PwState → PwState) : (s.setPw g).freeCtr = s.freeCtr := rfl
@[simp] theorem State.setPw_pending (g : PwState → PwState) : (s.setPw g).pending = s.pending := rfl
@[simp] theorem State.setPw_readReg (g : PwState → PwState) (i : Nat) : (s.setPw g).readReg i = s.readReg i := rfl
@[simp] theorem State.setPw_get (g : PwState → PwState) (fld : Field) : (s.setPw g).get fld = s.get fld := rfl

/-! ### setSf: what a change of sf leaves -/

@[simp] theorem State.setSf_regs (g : SfState → SfState) : (s.setSf g).regs = s.regs := rfl
@[simp] theorem State.setSf_dram (g : SfState → SfState) : (s.setSf g).dram = s.dram := rfl
@[simp] theorem State.setSf_sram (g : SfState → SfState) : (s.setSf g).sram = s.sram := rfl
@[simp] theorem State.setSf_nvm (g : SfState → SfState) : (s.setSf g).nvm = s.nvm := rfl
@[simp] theorem State.setSf_thy (g : SfState → SfState) : (s.setSf g).thy = s.thy := rfl
@[simp] theorem State.setSf_ev (g : SfState → SfState) : (s.setSf g).ev = s.ev := rfl
@[simp] theorem State.setSf_ig (g : SfState → SfState) : (s.setSf g).ig = s.ig := rfl
@[simp] theorem State.setSf_sf (g : SfState → SfState) : (s.setSf g).sf = g s.sf := rfl
@[simp] theorem State.setSf_cl (g : SfState → SfState) : (s.setSf g).cl = s.cl := rfl
@[simp] theorem State.setSf_mj (g : SfState → SfState) : (s.setSf g).mj = s.mj := rfl
@[simp] theorem State.setSf_tl (g : SfState → SfState) : (s.setSf g).tl = s.tl := rfl
@[simp] theorem State.setSf_fu (g : SfState → SfState) : (s.setSf g).fu = s.fu := rfl
@[simp] theorem State.setSf_pt (g : SfState → SfState) : (s.setSf g).pt = s.pt := rfl
@[simp] theorem State.setSf_at_ (g : SfState → SfState) : (s.setSf g).at_ = s.at_ := rfl
@[simp] theorem State.setSf_cb (g : SfState → SfState) : (s.setSf g).cb = s.cb := rfl
@[simp] theorem State.setSf_hp (g : SfState → SfState) : (s.setSf g).hp = s.hp := rfl
@[simp] theorem State.setSf_lk (g : SfState → SfState) : (s.setSf g).lk = s.lk := rfl
@[simp] theorem State.setSf_en (g : SfState → SfState) : (s.setSf g).en = s.en := rfl
@[simp] theorem State.setSf_sv (g : SfState → SfState) : (s.setSf g).sv = s.sv := rfl
@[simp] theorem State.setSf_io (g : SfState → SfState) : (s.setSf g).io = s.io := rfl
@[simp] theorem State.setSf_pw (g : SfState → SfState) : (s.setSf g).pw = s.pw := rfl
@[simp] theorem State.setSf_bt (g : SfState → SfState) : (s.setSf g).bt = s.bt := rfl
@[simp] theorem State.setSf_jt (g : SfState → SfState) : (s.setSf g).jt = s.jt := rfl
@[simp] theorem State.setSf_pins (g : SfState → SfState) : (s.setSf g).pins = s.pins := rfl
@[simp] theorem State.setSf_rc (g : SfState → SfState) : (s.setSf g).rc = s.rc := rfl
@[simp] theorem State.setSf_hostResp (g : SfState → SfState) : (s.setSf g).hostResp = s.hostResp := rfl
@[simp] theorem State.setSf_coreData (g : SfState → SfState) : (s.setSf g).coreData = s.coreData := rfl
@[simp] theorem State.setSf_freeCtr (g : SfState → SfState) : (s.setSf g).freeCtr = s.freeCtr := rfl
@[simp] theorem State.setSf_pending (g : SfState → SfState) : (s.setSf g).pending = s.pending := rfl
@[simp] theorem State.setSf_readReg (g : SfState → SfState) (i : Nat) : (s.setSf g).readReg i = s.readReg i := rfl
@[simp] theorem State.setSf_get (g : SfState → SfState) (fld : Field) : (s.setSf g).get fld = s.get fld := rfl

/-! ### setTl: what a change of tl leaves -/

@[simp] theorem State.setTl_regs (g : TlState → TlState) : (s.setTl g).regs = s.regs := rfl
@[simp] theorem State.setTl_dram (g : TlState → TlState) : (s.setTl g).dram = s.dram := rfl
@[simp] theorem State.setTl_sram (g : TlState → TlState) : (s.setTl g).sram = s.sram := rfl
@[simp] theorem State.setTl_nvm (g : TlState → TlState) : (s.setTl g).nvm = s.nvm := rfl
@[simp] theorem State.setTl_thy (g : TlState → TlState) : (s.setTl g).thy = s.thy := rfl
@[simp] theorem State.setTl_ev (g : TlState → TlState) : (s.setTl g).ev = s.ev := rfl
@[simp] theorem State.setTl_ig (g : TlState → TlState) : (s.setTl g).ig = s.ig := rfl
@[simp] theorem State.setTl_sf (g : TlState → TlState) : (s.setTl g).sf = s.sf := rfl
@[simp] theorem State.setTl_cl (g : TlState → TlState) : (s.setTl g).cl = s.cl := rfl
@[simp] theorem State.setTl_mj (g : TlState → TlState) : (s.setTl g).mj = s.mj := rfl
@[simp] theorem State.setTl_tl (g : TlState → TlState) : (s.setTl g).tl = g s.tl := rfl
@[simp] theorem State.setTl_fu (g : TlState → TlState) : (s.setTl g).fu = s.fu := rfl
@[simp] theorem State.setTl_pt (g : TlState → TlState) : (s.setTl g).pt = s.pt := rfl
@[simp] theorem State.setTl_at_ (g : TlState → TlState) : (s.setTl g).at_ = s.at_ := rfl
@[simp] theorem State.setTl_cb (g : TlState → TlState) : (s.setTl g).cb = s.cb := rfl
@[simp] theorem State.setTl_hp (g : TlState → TlState) : (s.setTl g).hp = s.hp := rfl
@[simp] theorem State.setTl_lk (g : TlState → TlState) : (s.setTl g).lk = s.lk := rfl
@[simp] theorem State.setTl_en (g : TlState → TlState) : (s.setTl g).en = s.en := rfl
@[simp] theorem State.setTl_sv (g : TlState → TlState) : (s.setTl g).sv = s.sv := rfl
@[simp] theorem State.setTl_io (g : TlState → TlState) : (s.setTl g).io = s.io := rfl
@[simp] theorem State.setTl_pw (g : TlState → TlState) : (s.setTl g).pw = s.pw := rfl
@[simp] theorem State.setTl_bt (g : TlState → TlState) : (s.setTl g).bt = s.bt := rfl
@[simp] theorem State.setTl_jt (g : TlState → TlState) : (s.setTl g).jt = s.jt := rfl
@[simp] theorem State.setTl_pins (g : TlState → TlState) : (s.setTl g).pins = s.pins := rfl
@[simp] theorem State.setTl_rc (g : TlState → TlState) : (s.setTl g).rc = s.rc := rfl
@[simp] theorem State.setTl_hostResp (g : TlState → TlState) : (s.setTl g).hostResp = s.hostResp := rfl
@[simp] theorem State.setTl_coreData (g : TlState → TlState) : (s.setTl g).coreData = s.coreData := rfl
@[simp] theorem State.setTl_freeCtr (g : TlState → TlState) : (s.setTl g).freeCtr = s.freeCtr := rfl
@[simp] theorem State.setTl_pending (g : TlState → TlState) : (s.setTl g).pending = s.pending := rfl
@[simp] theorem State.setTl_readReg (g : TlState → TlState) (i : Nat) : (s.setTl g).readReg i = s.readReg i := rfl
@[simp] theorem State.setTl_get (g : TlState → TlState) (fld : Field) : (s.setTl g).get fld = s.get fld := rfl

end Sys2Proof.Machine
end

