-- ==== Sys2Proof/Laws/Ops.lean ====
section
/-! SUPPORT. What the shared operations over registers, DRAM, events and records can do: one lemma each, and frames in terms of the blocks of the control map. -/

namespace Sys2Proof.Machine

/-! ### Bit fields -/

/-- A field put into a number reads back modulo its width. -/
theorem bitsOf_putBits_same (n lo w v : Nat) : bitsOf (putBits n lo w v) lo w = v % 2 ^ w := by
  unfold bitsOf putBits
  set p := 2 ^ lo with hp
  set q := 2 ^ w with hq
  have hp0 : 0 < p := Nat.pos_of_ne_zero (by simp [hp])
  have hq0 : 0 < q := Nat.pos_of_ne_zero (by simp [hq])
  have e1 : n = p * (n / p) + n % p := (Nat.div_add_mod n p).symm
  have e2 : n / p = q * (n / p / q) + n / p % q := (Nat.div_add_mod _ _).symm
  have hlt : n % p < p := Nat.mod_lt _ hp0
  have hv : v % q < q := Nat.mod_lt _ hq0
  have e3 : n - n / p % q * p + v % q * p = n % p + p * (q * (n / p / q) + v % q) := by
    have : n = n / p % q * p + (n % p + p * (q * (n / p / q))) := by
      calc n = p * (n / p) + n % p := e1
        _ = p * (q * (n / p / q) + n / p % q) + n % p := by rw [← e2]
        _ = _ := by ring
    rw [show n - n / p % q * p = n % p + p * (q * (n / p / q)) from by omega]
    ring
  rw [e3, Nat.add_mul_div_left _ _ hp0, Nat.div_eq_of_lt hlt, Nat.zero_add, Nat.mul_add_mod, Nat.mod_eq_of_lt hv]

/-- A field put into a number leaves a disjoint field. -/
theorem bitsOf_putBits_disjoint (n : Nat) {lo w lo' w' : Nat} (v : Nat) (h : lo + w ≤ lo' ∨ lo' + w' ≤ lo) :
    bitsOf (putBits n lo w v) lo' w' = bitsOf n lo' w' := by
  unfold bitsOf putBits
  set p := 2 ^ lo with hp
  set q := 2 ^ w with hq
  have hp0 : 0 < p := Nat.pos_of_ne_zero (by simp [hp])
  have hq0 : 0 < q := Nat.pos_of_ne_zero (by simp [hq])
  have e1 : n = p * (n / p) + n % p := (Nat.div_add_mod n p).symm
  have e2 : n / p = q * (n / p / q) + n / p % q := (Nat.div_add_mod _ _).symm
  have hlt : n % p < p := Nat.mod_lt _ hp0
  have hv : v % q < q := Nat.mod_lt _ hq0
  have hn : n = n % p + p * (n / p % q) + p * q * (n / p / q) := by
    calc n = p * (n / p) + n % p := e1
      _ = p * (q * (n / p / q) + n / p % q) + n % p := by rw [← e2]
      _ = _ := by ring
  have e3 : n - n / p % q * p + v % q * p = n % p + p * (v % q) + p * q * (n / p / q) := by
    have hc : n / p % q * p = p * (n / p % q) := Nat.mul_comm _ _
    have hd : v % q * p = p * (v % q) := Nat.mul_comm _ _
    omega
  rw [e3]
  rcases h with h | h
  · have hpow : (2 : Nat) ^ lo' = p * q * 2 ^ (lo' - lo - w) := by
      rw [hp, hq, ← pow_add, ← pow_add]; congr 1; omega
    have key : ∀ x y : Nat, x < p → y < q → (x + p * y + p * q * (n / p / q)) / 2 ^ lo' = (n / p / q) / 2 ^ (lo' - lo - w) := by
      intro x y hx hy
      rw [hpow, ← Nat.div_div_eq_div_mul, Nat.add_mul_div_left _ _ (Nat.mul_pos hp0 hq0)]
      have : x + p * y < p * q := by
        have : p * (y + 1) ≤ p * q := Nat.mul_le_mul_left p hy
        rw [Nat.mul_add] at this; omega
      rw [Nat.div_eq_of_lt this, Nat.zero_add]
    conv_rhs => rw [hn]
    rw [key _ _ hlt hv, key _ _ hlt (Nat.mod_lt _ hq0)]
  · have hpow : p = 2 ^ lo' * 2 ^ w' * 2 ^ (lo - lo' - w') := by
      rw [hp, ← pow_add, ← pow_add]; congr 1; omega
    have key : ∀ y : Nat, (n % p + p * y) / 2 ^ lo' % 2 ^ w' = n % p / 2 ^ lo' % 2 ^ w' := by
      intro y
      have : p * y = 2 ^ lo' * (2 ^ w' * (2 ^ (lo - lo' - w') * y)) := by rw [hpow]; ring
      rw [this, Nat.add_mul_div_left _ _ (Nat.pos_of_ne_zero (by simp)), Nat.add_mul_mod_self_left]
    have k1 := key (v % q + q * (n / p / q))
    have k2 := key (n / p % q + q * (n / p / q))
    conv_rhs => rw [hn]
    rw [show n % p + p * (v % q) + p * q * (n / p / q) = n % p + p * (v % q + q * (n / p / q)) from by ring, k1,
      show n % p + p * (n / p % q) + p * q * (n / p / q) = n % p + p * (n / p % q + q * (n / p / q)) from by ring, k2]

/-- A field put into a 32-bit number leaves a 32-bit number. -/
theorem putBits_lt {n lo w v : Nat} (hn : n < 2 ^ 32) (h : lo + w ≤ 32) : putBits n lo w v < 2 ^ 32 := by
  have hi : bitsOf (putBits n lo w v) 32 64 = 0 → True := fun _ => trivial
  unfold putBits
  have hp0 : 0 < 2 ^ lo := Nat.pos_of_ne_zero (by simp)
  have hq0 : 0 < 2 ^ w := Nat.pos_of_ne_zero (by simp)
  have hv : v % 2 ^ w < 2 ^ w := Nat.mod_lt _ hq0
  have hn2 : n / 2 ^ lo / 2 ^ w < 2 ^ (32 - lo - w) := by
    rw [Nat.div_div_eq_div_mul, ← pow_add]
    apply Nat.div_lt_of_lt_mul
    rw [← pow_add]
    have : lo + w + (32 - lo - w) = 32 := by omega
    rw [this]; exact hn
  have e : n - n / 2 ^ lo % 2 ^ w * 2 ^ lo + v % 2 ^ w * 2 ^ lo = n % 2 ^ lo + 2 ^ lo * (v % 2 ^ w + 2 ^ w * (n / 2 ^ lo / 2 ^ w)) := by
    have e1 : n = 2 ^ lo * (n / 2 ^ lo) + n % 2 ^ lo := (Nat.div_add_mod n _).symm
    have e2 : n / 2 ^ lo = 2 ^ w * (n / 2 ^ lo / 2 ^ w) + n / 2 ^ lo % 2 ^ w := (Nat.div_add_mod _ _).symm
    have hn3 : n = n / 2 ^ lo % 2 ^ w * 2 ^ lo + (n % 2 ^ lo + 2 ^ lo * (2 ^ w * (n / 2 ^ lo / 2 ^ w))) := by
      calc n = 2 ^ lo * (n / 2 ^ lo) + n % 2 ^ lo := e1
        _ = 2 ^ lo * (2 ^ w * (n / 2 ^ lo / 2 ^ w) + n / 2 ^ lo % 2 ^ w) + n % 2 ^ lo := by rw [← e2]
        _ = _ := by ring
    rw [show n - n / 2 ^ lo % 2 ^ w * 2 ^ lo = n % 2 ^ lo + 2 ^ lo * (2 ^ w * (n / 2 ^ lo / 2 ^ w)) from by omega]
    ring
  rw [e]
  have h1 : v % 2 ^ w + 2 ^ w * (n / 2 ^ lo / 2 ^ w) < 2 ^ (32 - lo) := by
    have : 2 ^ w * (n / 2 ^ lo / 2 ^ w + 1) ≤ 2 ^ w * 2 ^ (32 - lo - w) := Nat.mul_le_mul_left _ hn2
    rw [← pow_add, show w + (32 - lo - w) = 32 - lo from by omega, Nat.mul_add] at this
    omega
  have h2 : 2 ^ lo * (v % 2 ^ w + 2 ^ w * (n / 2 ^ lo / 2 ^ w) + 1) ≤ 2 ^ lo * 2 ^ (32 - lo) := Nat.mul_le_mul_left _ h1
  rw [← pow_add, show lo + (32 - lo) = 32 from by omega, Nat.mul_add] at h2
  have := Nat.mod_lt n hp0
  omega

/-! ### Registers -/

/-- A write leaves every other register. -/
theorem State.readReg_writeReg_other (s : State) {a b : Nat} (h : b ≠ a) (w : Word) : (s.writeReg a w).readReg b = s.readReg b :=
  Memory.read_write_other _ h w

/-- A register written reads back. -/
theorem State.readReg_writeReg_same (s : State) (a : Nat) (w : Word) : (s.writeReg a w).readReg a = w :=
  Memory.read_write_same s.regs a w

/-- A field write leaves every register but its own. -/
theorem State.readReg_set_other (s : State) (f : Field) (n : Nat) {a : Nat} (h : a ≠ f.addr) : (s.set f n).readReg a = s.readReg a :=
  s.readReg_writeReg_other h _

/-- A field write leaves the fields of every other register. -/
theorem State.get_set_other (s : State) (f g : Field) (n : Nat) (h : g.addr ≠ f.addr) : (s.set f n).get g = s.get g := by
  unfold State.get
  rw [s.readReg_set_other f n h]

/-- The register a field write leaves. -/
theorem State.readReg_set_same (s : State) (f : Field) (n : Nat) :
    (s.set f n).readReg f.addr = BitVec.ofNat 32 (putBits (s.readReg f.addr).toNat f.lo f.width n) :=
  s.readReg_writeReg_same _ _

/-- A field written reads back modulo its width. -/
theorem State.get_set_same (s : State) (f : Field) (n : Nat) (h : f.lo + f.width ≤ 32) :
    (s.set f n).get f = n % 2 ^ f.width := by
  unfold State.get
  rw [State.readReg_set_same, BitVec.toNat_ofNat, Nat.mod_eq_of_lt (putBits_lt (BitVec.isLt _) h), bitsOf_putBits_same]

/-- A field write leaves the disjoint fields of its register. -/
theorem State.get_set_disjoint (s : State) (f g : Field) (n : Nat) (h : f.lo + f.width ≤ 32)
    (ha : g.addr = f.addr) (hd : f.lo + f.width ≤ g.lo ∨ g.lo + g.width ≤ f.lo) : (s.set f n).get g = s.get g := by
  unfold State.get
  rw [ha, State.readReg_set_same, BitVec.toNat_ofNat, Nat.mod_eq_of_lt (putBits_lt (BitVec.isLt _) h), bitsOf_putBits_disjoint _ _ hd]

/-- A field write keeps the registers' canonical form. -/
theorem State.regs_wf_set {s : State} (wf : Memory.wf regReset s.regs = true) (f : Field) (n : Nat) : Memory.wf regReset (s.set f n).regs = true :=
  Memory.wf_write wf _ _

/-! ### Frames by block -/

/-- Nothing changes. -/
theorem State.changesOnly_refl (s : State) (bs : List Nat) : s.changesOnly s bs := ⟨fun _ _ => rfl, rfl, rfl, rfl⟩

/-- Frames compose. -/
theorem State.changesOnly_trans {s t u : State} {bs : List Nat} (h : s.changesOnly t bs) (k : t.changesOnly u bs) : s.changesOnly u bs :=
  ⟨fun a ha => (k.1 a ha).trans (h.1 a ha), k.2.1.trans h.2.1, k.2.2.1.trans h.2.2.1, k.2.2.2.trans h.2.2.2⟩

/-- A frame allows more blocks. -/
theorem State.changesOnly_mono {s t : State} {bs cs : List Nat} (h : s.changesOnly t bs) (k : ∀ b ∈ bs, b ∈ cs) : s.changesOnly t cs :=
  ⟨fun a ha => h.1 a (fun hb => ha (k _ hb)), h.2⟩

/-- What changes neither registers nor memories is a frame of no block. -/
theorem State.changesOnly_of_eq {s t : State} {bs : List Nat} (hr : t.regs = s.regs) (hd : t.dram = s.dram) (hs : t.sram = s.sram) (hn : t.nvm = s.nvm) :
    s.changesOnly t bs := ⟨fun a _ => by unfold State.readReg; rw [hr], hd, hs, hn⟩

/-- A register write changes its block only. -/
theorem State.changesOnly_writeReg (s : State) (a : Nat) (w : Word) {bs : List Nat} (h : a / 0x10000 ∈ bs) : s.changesOnly (s.writeReg a w) bs :=
  ⟨fun b hb => s.readReg_writeReg_other (fun e => hb (by rw [e]; exact h)) w, rfl, rfl, rfl⟩

/-- A field write changes its block only. -/
theorem State.changesOnly_set (s : State) (f : Field) (n : Nat) {bs : List Nat} (h : f.addr / 0x10000 ∈ bs) : s.changesOnly (s.set f n) bs :=
  s.changesOnly_writeReg _ _ h

/-- Words written into one block change that block only. -/
theorem State.changesOnly_writeWords (s : State) (a : Nat) (ws : List Nat) {bs : List Nat} {b : Nat} (hb : b ∈ bs)
    (h : b * 0x10000 ≤ a ∧ a + 4 * ws.length ≤ b * 0x10000 + 0x10000) : s.changesOnly (s.writeWords a ws) bs := by
  induction ws generalizing s a with
  | nil => exact s.changesOnly_refl bs
  | cons w ws ih =>
    simp only [List.length_cons] at h
    refine State.changesOnly_trans (s.changesOnly_writeReg a _ ?_) (ih _ (a + 4) (by omega))
    have : a / 0x10000 = b := by omega
    rw [this]; exact hb

/-- `wordsOf k` gives k words. -/
@[simp] theorem length_wordsOf (k : Nat) (bs : Bytes) : (wordsOf k bs).length = k := by
  induction k generalizing bs with
  | zero => rfl
  | succ k ih => simp [wordsOf, ih]

/-! ### Events (R283) -/

/-- A source's change of state changes the event block only. -/
theorem State.changesOnly_evSetState (s : State) {src : Nat} (st : Nat) (h : src < 1024) {bs : List Nat} (hb : 0xC ∈ bs) : s.changesOnly (s.evSetState src st) bs := by
  have a1 : (F.EV_S_STAT_STATE src).addr / 0x10000 = 0xC := by simp only [F.EV_S_STAT_STATE]; omega
  have a2 : (F.EV_PEND (src / 32)).addr / 0x10000 = 0xC := by simp only [F.EV_PEND]; omega
  have a3 : F.EV_STATUS.addr / 0x10000 = 0xC := by decide
  exact State.changesOnly_trans (State.changesOnly_trans (s.changesOnly_set _ _ (a1 ▸ hb)) (State.changesOnly_set _ _ _ (a2 ▸ hb))) (State.changesOnly_set _ _ _ (a3 ▸ hb))

/-- A source's count judged against its limit changes the event block only. -/
theorem State.changesOnly_evCountState (s : State) {src : Nat} (h : src < 1024) {bs : List Nat} (hb : 0xC ∈ bs) : s.changesOnly (s.evCountState src) bs :=
  s.changesOnly_evSetState _ h hb

/-- An occurrence changes the event block only. -/
theorem State.changesOnly_raise (s : State) {src : Nat} (h : src < 1024) {bs : List Nat} (hb : 0xC ∈ bs) : s.changesOnly (s.raise src) bs := by
  have a1 : (F.EV_S_STAT_COUNT src).addr / 0x10000 = 0xC := by simp only [F.EV_S_STAT_COUNT]; omega
  unfold State.raise
  by_cases e : s.flag (F.EV_S_CFG_EN src) = true
  · rw [if_pos e]
    have h1 : s.changesOnly (s.incSat (F.EV_S_STAT_COUNT src)) bs := s.changesOnly_set _ _ (a1 ▸ hb)
    have h2 : s.changesOnly (if (s.get (F.EV_S_STAT_COUNT src) == 0) = true then (s.incSat (F.EV_S_STAT_COUNT src)).evStart src else s.incSat (F.EV_S_STAT_COUNT src)) bs := by
      split
      · exact State.changesOnly_trans h1 (State.changesOnly_of_eq rfl rfl rfl rfl)
      · exact h1
    refine State.changesOnly_trans h2 ?_
    dsimp only
    generalize (if (s.get (F.EV_S_STAT_COUNT src) == 0) = true then (s.incSat (F.EV_S_STAT_COUNT src)).evStart src else s.incSat (F.EV_S_STAT_COUNT src)) = t
    show t.changesOnly (match t.get (F.EV_S_STAT_STATE src) with
      | 0 => t.evCountState src
      | 1 => t.evCountState src
      | 4 => t.evSetState src 5
      | _ => t) bs
    split
    · exact t.changesOnly_evCountState h hb
    · exact t.changesOnly_evCountState h hb
    · exact t.changesOnly_evSetState _ h hb
    · exact t.changesOnly_refl _
  · rw [if_neg e]
    exact s.changesOnly_refl bs

/-! ### Rings and records (R81, R313, R348) -/

/-- A record put into a ring inside one block, its index in that block, changes that block only. -/
theorem State.changesOnly_ringPut (s : State) (base words entries : Nat) (next total : Field) (record : Bytes) {bs : List Nat} {b : Nat} (hb : b ∈ bs)
    (hn : next.addr / 0x10000 = b) (ht : total.addr / 0x10000 = b)
    (hr : b * 0x10000 ≤ base ∧ base + 4 * words * (2 ^ next.width - 1) + 4 * words ≤ b * 0x10000 + 0x10000) :
    s.changesOnly (s.ringPut base words entries next total record) bs := by
  have hlt : s.get next < 2 ^ next.width := Nat.mod_lt _ (Nat.pos_of_ne_zero (by simp))
  have hle : 4 * words * s.get next ≤ 4 * words * (2 ^ next.width - 1) := Nat.mul_le_mul_left _ (by omega)
  refine State.changesOnly_trans (State.changesOnly_trans (s.changesOnly_writeWords _ _ hb ?_) (State.changesOnly_set _ _ _ (hn ▸ hb))) (State.changesOnly_set _ _ _ (ht ▸ hb))
  rw [length_wordsOf]; omega

/-- A record placed in a violation ring inside one block changes that block only (R82). -/
theorem State.changesOnly_ringPlace (base : Nat) (record : List Nat) {bs : List Nat} {b : Nat} (hb : b ∈ bs) (hl : record.length = 4)
    (hr : b * 0x10000 ≤ base ∧ base + 1024 ≤ b * 0x10000 + 0x10000) :
    ∀ (k n : Nat) (s : State), n < 64 → s.changesOnly (s.ringPlace base record k n) bs := by
  intro k
  induction k with
  | zero => intro n s hn; exact s.changesOnly_writeWords _ _ hb (by rw [hl]; omega)
  | succ k ih =>
    intro n s hn
    unfold State.ringPlace
    dsimp only
    split
    · exact State.changesOnly_trans (s.changesOnly_writeWords _ _ hb (by simp only [State.ringRecord, List.length_map, List.length_range]; omega)) (ih _ _ (by omega))
    · exact s.changesOnly_writeWords _ _ hb (by rw [hl]; omega)

/-- A record put into a violation ring inside one block, its index in that block, changes that block only. -/
theorem State.changesOnly_violationPut (s : State) (base : Nat) (next total : Field) (record : Bytes) {bs : List Nat} {b : Nat} (hb : b ∈ bs)
    (hn : next.addr / 0x10000 = b) (ht : total.addr / 0x10000 = b) (hw : next.width = 6)
    (hr : b * 0x10000 ≤ base ∧ base + 1024 ≤ b * 0x10000 + 0x10000) :
    s.changesOnly (s.violationPut base next total record) bs := by
  have hlt : s.get next < 2 ^ next.width := Nat.mod_lt _ (Nat.pos_of_ne_zero (by simp))
  rw [hw] at hlt
  exact State.changesOnly_trans (State.changesOnly_trans (State.changesOnly_ringPlace base _ hb (length_wordsOf _ _) hr _ _ s (by omega)) (State.changesOnly_set _ _ _ (hn ▸ hb)))
    (State.changesOnly_set _ _ _ (ht ▸ hb))

/-- The block that holds an interface's violation ring (R81). -/
def ringBlock (iface : Nat) : Nat := if iface ≤ 0x12 then 0x2 else if iface == 0x13 then 0x11 else if iface ≤ 0x17 then 0x12 else 0xF

/-- A violation record changes the block of its interface's ring and the event block only. -/
theorem State.changesOnly_violation (s : State) {iface : Nat} (code : Nat) (detail : Bytes) (h : iface ≤ 0x18) {bs : List Nat} (hb : ringBlock iface ∈ bs) (hc : 0xC ∈ bs) :
    s.changesOnly (s.violation iface code detail) bs := by
  unfold State.violation
  refine State.changesOnly_trans ?_ (State.changesOnly_raise _ (by omega) hc)
  unfold ringBlock at hb
  split
  · rename_i h1
    rw [if_pos h1] at hb
    refine s.changesOnly_violationPut _ _ _ _ hb ?_ ?_ rfl ?_ <;> simp only [F.IG_VR_IDX_NEXT, F.IG_VR_IDX_TOTAL, F.IG_VR] <;> omega
  · rename_i h1
    rw [if_neg h1] at hb
    split
    · rename_i h2
      rw [if_pos h2] at hb
      exact s.changesOnly_violationPut _ _ _ _ hb (by decide) (by decide) rfl (by decide)
    · rename_i h2
      rw [if_neg h2] at hb
      split
      · rename_i h3
        rw [if_pos h3] at hb
        refine s.changesOnly_violationPut _ _ _ _ hb ?_ ?_ rfl ?_ <;> simp only [F.LK_VR_IDX_NEXT, F.LK_VR_IDX_TOTAL, F.LK_VR] <;> omega
      · rename_i h3
        rw [if_neg h3] at hb
        exact s.changesOnly_violationPut _ _ _ _ hb (by decide) (by decide) rfl (by decide)

/-- A safety log record changes Chervil's block and the event block only. -/
theorem State.changesOnly_safetyLog (s : State) (r : SafetyRec) {bs : List Nat} (hb : 0xD ∈ bs) (hc : 0xC ∈ bs) : s.changesOnly (s.safetyLog r) bs :=
  State.changesOnly_trans (s.changesOnly_ringPut _ _ _ _ _ _ hb (by decide) (by decide) (by decide)) (State.changesOnly_raise _ (by omega) hc)

/-- A refused write changes the host port's ring, BT_LOCK_VIOL and the event block only. -/
theorem State.changesOnly_refuseWrite (s : State) (a who : Nat) {bs : List Nat} (h1 : 0x11 ∈ bs) (h2 : 0xF ∈ bs) (h3 : 0xC ∈ bs) : s.changesOnly (s.refuseWrite a who) bs :=
  State.changesOnly_trans (State.changesOnly_trans (s.changesOnly_violation (iface := 0x13) _ _ (by omega) h1 h3) (State.changesOnly_set _ F.BT_LOCK_VIOL _ h2)) (State.changesOnly_raise _ (by omega) h3)

/-- The host port's answer changes its own block only. -/
theorem State.changesOnly_hostReply (s : State) (opcode status tag : Nat) (data : Bytes) {bs : List Nat} (h : 0x11 ∈ bs) : s.changesOnly (s.hostReply opcode status tag data) bs := by
  unfold State.hostReply
  have h1 : s.changesOnly ((s.answer status tag data).set F.HP_STATUS_LAST_STATUS status) bs :=
    State.changesOnly_trans (State.changesOnly_of_eq rfl rfl rfl rfl) (State.changesOnly_set _ _ _ h)
  have h2 : s.changesOnly (((s.answer status tag data).set F.HP_STATUS_LAST_STATUS status).set F.HP_STATUS_LAST_OPCODE opcode) bs :=
    State.changesOnly_trans h1 (State.changesOnly_set _ _ _ h)
  dsimp only
  split
  · exact h2
  · exact State.changesOnly_trans h2 (State.changesOnly_set _ F.HP_TXN_COUNT _ h)

/-- Time passing changes no register and no memory. -/
theorem State.changesOnly_elapse (s : State) (dt : Nat) (bs : List Nat) : s.changesOnly (s.elapse dt) bs := State.changesOnly_of_eq rfl rfl rfl rfl

/-- Driving the pins changes no register and no memory. -/
theorem State.changesOnly_drive (s : State) (bs : List Nat) : s.changesOnly s.drive bs := State.changesOnly_of_eq rfl rfl rfl rfl

/-! ### DRAM (R26, R27) -/

/-- The map depends on the number of tiles alone. -/
theorem State.toLocal_congr {s t : State} (h : t.tiles = s.tiles) (a : Nat) : t.toLocal a = s.toLocal a := by
  unfold State.toLocal
  rw [h]

/-- A byte put changes DRAM alone. -/
theorem State.dramPut_eq (s : State) (a : Nat) (v : Byte) : ∃ d, s.dramPut a v = { s with dram := d } := by
  unfold State.dramPut
  cases s.toLocal a with
  | none => exact ⟨s.dram, rfl⟩
  | some l => exact ⟨_, rfl⟩

/-- A DRAM write leaves the map of addresses. -/
@[simp] theorem State.dramPut_toLocal (s : State) (a : Nat) (v : Byte) (b : Nat) : (s.dramPut a v).toLocal b = s.toLocal b := by
  obtain ⟨d, e⟩ := s.dramPut_eq a v
  rw [e]
  exact State.toLocal_congr rfl b

/-- A DRAM write leaves every register. -/
@[simp] theorem State.dramPut_readReg (s : State) (a : Nat) (v : Byte) (b : Nat) : (s.dramPut a v).readReg b = s.readReg b := by
  obtain ⟨d, e⟩ := s.dramPut_eq a v
  rw [e]; rfl

/-- Where the map has a place, a byte put is a write there. -/
theorem State.dramPut_some {s : State} {a l : Nat} (h : s.toLocal a = some l) (v : Byte) :
    s.dramPut a v = { s with dram := Memory.write ramDefault s.dram l v } := by
  simp only [State.dramPut, h, Option.elim]

/-- Where the map has none, nothing is put. -/
theorem State.dramPut_none {s : State} {a : Nat} (h : s.toLocal a = none) (v : Byte) : s.dramPut a v = s := by
  simp only [State.dramPut, h, Option.elim]

/-- A byte of DRAM written leaves the bytes that other local addresses hold. -/
theorem State.dramByte_dramPut_other (s : State) {a b : Nat} (h : s.toLocal b ≠ s.toLocal a) (v : Byte) : (s.dramPut a v).dramByte b = s.dramByte b := by
  cases ha : s.toLocal a with
  | none => rw [State.dramPut_none ha]
  | some l =>
    unfold State.dramByte
    rw [State.dramPut_toLocal, State.dramPut_some ha]
    cases hb : s.toLocal b with
    | none => rfl
    | some k =>
      rw [ha, hb] at h
      exact Memory.read_write_other _ (fun e => h (by rw [e])) v

/-- A byte of DRAM written reads back where the map has a place for it. -/
theorem State.dramByte_dramPut_same (s : State) {a l : Nat} (h : s.toLocal a = some l) (v : Byte) :
    (s.dramPut a v).dramByte a = v := by
  unfold State.dramByte
  rw [State.dramPut_toLocal, State.dramPut_some h, h]
  exact Memory.read_write_same s.dram l v

/-- A byte written keeps DRAM's canonical form. -/
theorem State.dram_wf_dramPut {s : State} (wf : Memory.wf ramDefault s.dram = true) (a : Nat) (v : Byte) : Memory.wf ramDefault (s.dramPut a v).dram = true := by
  cases ha : s.toLocal a with
  | none => rw [State.dramPut_none ha]; exact wf
  | some l => rw [State.dramPut_some ha]; exact Memory.wf_write wf _ _

/-- Bytes written change DRAM alone. -/
theorem State.dramWrite_eq (s : State) (a : Nat) (bs : Bytes) : ∃ d, s.dramWrite a bs = { s with dram := d } := by
  induction bs generalizing s a with
  | nil => exact ⟨s.dram, rfl⟩
  | cons v bs ih =>
    obtain ⟨d, e⟩ := s.dramPut_eq a v
    obtain ⟨d', e'⟩ := ih (s.dramPut a v) (a + 1)
    exact ⟨d', by rw [State.dramWrite, e', e]⟩

/-- Bytes written leave every byte whose place none of them has. -/
theorem State.dramByte_dramWrite_out (s : State) (a : Nat) (bs : Bytes) (b : Nat) (h : ∀ i < bs.length, s.toLocal b ≠ s.toLocal (a + i)) :
    (s.dramWrite a bs).dramByte b = s.dramByte b := by
  induction bs generalizing s a with
  | nil => rfl
  | cons v bs ih =>
    rw [State.dramWrite, ih]
    · exact s.dramByte_dramPut_other (by simpa using h 0 (by simp)) v
    · intro i hi
      simpa [Nat.add_assoc, Nat.add_comm 1 i] using h (i + 1) (by simpa using hi)

/-- Bytes written keep DRAM's canonical form. -/
theorem State.dram_wf_dramWrite {s : State} (wf : Memory.wf ramDefault s.dram = true) (a : Nat) (bs : Bytes) : Memory.wf ramDefault (s.dramWrite a bs).dram = true := by
  induction bs generalizing s a with
  | nil => exact wf
  | cons v bs ih => exact ih (State.dram_wf_dramPut wf a v) (a + 1)

end Sys2Proof.Machine
end

