-- ==== Sys2Proof/Laws/Access.lean ====
section
/-! SUPPORT. When an access goes through: a requester's read, a host write, a control core's store. -/

namespace Sys2Proof.Machine

/-- A host read of a register of a block that is on goes through. -/
theorem State.readGate_host {s : State} (h : s.hostReaches) (a : Nat) (f : State → State) : s.readGate .host a f = f s := by
  obtain ⟨h1, h2, h3⟩ := h
  simp [State.readGate, h1, h2, h3]

/-- A control core's read goes through in run state. -/
theorem State.readGate_core {s : State} (h : s.running = true) (c : Fin 8) (a : Nat) (f : State → State) : s.readGate (.core c) a f = f s := by
  simp [State.readGate, h]

/-- A host write of an HW register goes through after lock. -/
theorem State.hostWrite_run {s : State} (h : s.hostReaches) (k : s.locked = true) (a : Nat) (f : State → State) : s.hostWrite a f = f s := by
  obtain ⟨h1, h2, h3⟩ := h
  simp [State.hostWrite, h1, h2, h3, k]

/-- A control core's store that R6 and R402 let through executes. -/
theorem State.coreWrite_run {s : State} (h : s.running = true) {a : Nat} {v : Word} (h1 : coreMayWrite a = true) (h2 : cleanWrite a v = true) (c : Nat) (f : State → State) :
    s.coreWrite c a v f = f s := by
  simp [State.coreWrite, h, h1, h2]

/-- A control core's store that R6 or R402 refuses leaves the record of R348. -/
theorem State.coreWrite_refused {s : State} (h : s.running = true) {a : Nat} {v : Word} (h1 : coreMayWrite a = false ∨ cleanWrite a v = false) (c : Nat) (f : State → State) :
    s.coreWrite c a v f = s.refuseWrite a (c + 1) := by
  rcases h1 with h1 | h1 <;> simp [State.coreWrite, h, h1]

/-- Every bit of the register at an address may be written. -/
def allWritable (a : Nat) : Bool := (regRow? a).elim false (fun r => r.reservedMask == 0 && r.lockedMask == 0)

/-- Where every bit may be written, every word is clean. -/
theorem cleanWrite_all {a : Nat} (h : allWritable a = true) (v : Word) : cleanWrite a v = true := by
  unfold allWritable at h
  unfold cleanWrite
  cases e : regRow? a with
  | none => simp [e] at h
  | some r => simp [e] at h; simp [h.1, h.2]

theorem clean_measHi (v : Word) : cleanWrite F.TB_MEAS_HI.addr v = true := cleanWrite_all (by decide) v
theorem clean_capMw (v : Word) (h : v.toNat ≤ 300000) : cleanWrite F.MJ_CAP_MW.addr v = true := by
  have hm : (regRow? F.MJ_CAP_MW.addr).map (fun r => (r.reservedMask, r.lockedMask)) = some (2 ^ 32 - 2 ^ 19, 0) := by decide
  unfold cleanWrite
  cases e : regRow? F.MJ_CAP_MW.addr with
  | none => simp [e] at hm
  | some r =>
    simp only [e, Option.map_some, Option.some.injEq, Prod.mk.injEq] at hm
    have : v.toNat &&& (2 ^ 32 - 2 ^ 19) = 0 := by
      have hv : v.toNat < 2 ^ 19 := by omega
      apply Nat.eq_of_testBit_eq
      intro i
      rw [Nat.testBit_and, Nat.zero_testBit]
      by_cases hi : i < 19
      · have : (2 ^ 32 - 2 ^ 19 : Nat).testBit i = false := by
          rw [show (2 ^ 32 - 2 ^ 19 : Nat) = 2 ^ 19 * (2 ^ 13 - 1) from by norm_num, Nat.testBit_two_pow_mul]
          simp; omega
        rw [this, Bool.and_false]
      · rw [Nat.testBit_lt_two_pow (lt_of_lt_of_le hv (Nat.pow_le_pow_right (by norm_num) (by omega))), Bool.false_and]
    simp only [hm.1, hm.2, this, Nat.and_zero, BEq.rfl, Bool.and_self]
theorem writable_mask : ∀ w : Fin 32, allWritable (F.EV_MASK w.val).addr = true := by decide
theorem writable_fwHi : ∀ w : Fin 64, allWritable (F.EV_FW_VAL_HI w.val).addr = true := by decide
theorem writable_trgHi : ∀ o : Fin 16, allWritable (F.IO_TRG_TIME_HI o.val).addr = true := by decide
theorem writable_alarmHi : ∀ a : Fin 4, allWritable (F.PW_ALARM_HI a.val).addr = true := by decide
theorem clean_global : ∀ v : Fin 2, cleanWrite F.EV_GLOBAL.addr (BitVec.ofNat 32 v.val) = true := by decide
theorem clean_swset : ∀ v : Fin 128, cleanWrite F.EV_SWSET.addr (BitVec.ofNat 32 v.val) = true := by decide
theorem coreMay_mask : ∀ w : Fin 32, coreMayWrite (F.EV_MASK w.val).addr = true := by decide
theorem coreMay_complete : ∀ w : Fin 8, coreMayWrite (F.EV_C_COMPLETE w.val).addr = true := by decide
theorem coreMay_fwHi : ∀ w : Fin 64, coreMayWrite (F.EV_FW_VAL_HI w.val).addr = true := by decide
theorem coreMay_trgHi : ∀ o : Fin 16, coreMayWrite (F.IO_TRG_TIME_HI o.val).addr = true := by decide
theorem coreMay_alarmHi : ∀ a : Fin 4, coreMayWrite (F.PW_ALARM_HI a.val).addr = true := by decide

end Sys2Proof.Machine
end

