-- ==== Sys2Proof/Laws/Frames.lean ====
section
/-! SUPPORT. Frames of the operations that touch registers, Thyme and events alone: composed from those of a field write and of an occurrence. -/

namespace Sys2Proof.Machine

/-! ### The relation -/

/-- Nothing changes. -/
theorem State.light_refl (s : State) (bs : List Nat) : s.light s bs := ⟨s.changesOnly_refl bs, rfl⟩

/-- Light frames compose. -/
theorem State.light_trans {s t u : State} {bs : List Nat} (h : s.light t bs) (k : t.light u bs) : s.light u bs :=
  ⟨State.changesOnly_trans h.1 k.1, k.2.trans h.2⟩

/-- What leaves registers, and all but Thyme, events, pins and answers, is light. -/
theorem State.light_of_eq {s t : State} {bs : List Nat} (hr : t.regs = s.regs) (h : t.rest = s.rest) : s.light t bs :=
  ⟨State.changesOnly_of_eq hr (show t.rest.dram = s.rest.dram by rw [h]) (show t.rest.sram = s.rest.sram by rw [h]) (show t.rest.nvm = s.rest.nvm by rw [h]), h⟩

/-- A light frame allows more blocks. -/
theorem State.light_mono {s t : State} {bs cs : List Nat} (h : s.light t bs) (k : ∀ b ∈ bs, b ∈ cs) : s.light t cs := ⟨State.changesOnly_mono h.1 k, h.2⟩

/-! ### The operations -/

/-- A field write changes its block only. -/
theorem State.light_set (s : State) (f : Field) (n : Nat) {bs : List Nat} (h : f.addr / 0x10000 ∈ bs) : s.light (s.set f n) bs := ⟨s.changesOnly_set f n h, rfl⟩

/-- A 64-bit write changes the blocks of its two words only. -/
theorem State.light_set64 (s : State) (lo hi : Field) (n : Nat) {bs : List Nat} (h : lo.addr / 0x10000 ∈ bs) (k : hi.addr / 0x10000 ∈ bs) : s.light (s.set64 lo hi n) bs :=
  State.light_trans (s.light_set lo _ h) (State.light_set _ hi _ k)

/-- Words written into one block change that block only. -/
theorem State.light_writeWords (s : State) (a : Nat) (ws : List Nat) {bs : List Nat} {b : Nat} (hb : b ∈ bs)
    (h : b * 0x10000 ≤ a ∧ a + 4 * ws.length ≤ b * 0x10000 + 0x10000) : s.light (s.writeWords a ws) bs := by
  refine ⟨s.changesOnly_writeWords a ws hb h, ?_⟩
  clear h
  induction ws generalizing s a with
  | nil => rfl
  | cons w ws ih => exact (ih (s.writeReg a (BitVec.ofNat 32 w)) (a + 4)).trans rfl

/-- Thyme's own state changes alone. -/
theorem State.light_setThy (s : State) (f : ThyState → ThyState) (bs : List Nat) : s.light (s.setThy f) bs := State.light_of_eq rfl rfl

/-- A source's change of state changes the event block only. -/
theorem State.light_evSetState (s : State) {src : Nat} (st : Nat) (h : src < 1024) {bs : List Nat} (hb : 0xC ∈ bs) : s.light (s.evSetState src st) bs :=
  ⟨s.changesOnly_evSetState st h hb, rfl⟩

/-- An occurrence changes the event block and the controller's own state only. -/
theorem State.light_raise (s : State) {src : Nat} (h : src < 1024) {bs : List Nat} (hb : 0xC ∈ bs) : s.light (s.raise src) bs := by
  refine ⟨s.changesOnly_raise h hb, ?_⟩
  unfold State.raise
  split
  · have k : ∀ t : State, t.rest = s.rest →
        (match t.get (F.EV_S_STAT_STATE src) with
          | 0 => t.evCountState src
          | 1 => t.evCountState src
          | 4 => t.evSetState src 5
          | _ => t).rest = s.rest := by
      intro t ht
      split <;> exact ht
    apply k
    split <;> rfl
  · rfl

/-- A record put into a ring inside one block changes that block only. -/
theorem State.light_ringPut (s : State) (base words entries : Nat) (next total : Field) (record : Bytes) {bs : List Nat} {b : Nat} (hb : b ∈ bs)
    (hn : next.addr / 0x10000 = b) (ht : total.addr / 0x10000 = b)
    (hr : b * 0x10000 ≤ base ∧ base + 4 * words * (2 ^ next.width - 1) + 4 * words ≤ b * 0x10000 + 0x10000) :
    s.light (s.ringPut base words entries next total record) bs := by
  have hlt : s.get next < 2 ^ next.width := Nat.mod_lt _ (Nat.pos_of_ne_zero (by simp))
  have hle : 4 * words * s.get next ≤ 4 * words * (2 ^ next.width - 1) := Nat.mul_le_mul_left _ (by omega)
  refine State.light_trans (State.light_trans (s.light_writeWords _ _ hb ?_) (State.light_set _ _ _ (hn ▸ hb))) (State.light_set _ _ _ (ht ▸ hb))
  rw [length_wordsOf]; omega

/-- A record placed in a violation ring inside one block changes that block only (R82). -/
theorem State.light_ringPlace (base : Nat) (record : List Nat) {bs : List Nat} {b : Nat} (hb : b ∈ bs) (hl : record.length = 4)
    (hr : b * 0x10000 ≤ base ∧ base + 1024 ≤ b * 0x10000 + 0x10000) :
    ∀ (k n : Nat) (s : State), n < 64 → s.light (s.ringPlace base record k n) bs := by
  intro k
  induction k with
  | zero => intro n s hn; exact s.light_writeWords _ _ hb (by rw [hl]; omega)
  | succ k ih =>
    intro n s hn
    unfold State.ringPlace
    dsimp only
    split
    · exact State.light_trans (s.light_writeWords _ _ hb (by simp only [State.ringRecord, List.length_map, List.length_range]; omega)) (ih _ _ (by omega))
    · exact s.light_writeWords _ _ hb (by rw [hl]; omega)

/-- A record put into a violation ring inside one block, its index in that block, changes that block only. -/
theorem State.light_violationPut (s : State) (base : Nat) (next total : Field) (record : Bytes) {bs : List Nat} {b : Nat} (hb : b ∈ bs)
    (hn : next.addr / 0x10000 = b) (ht : total.addr / 0x10000 = b) (hw : next.width = 6)
    (hr : b * 0x10000 ≤ base ∧ base + 1024 ≤ b * 0x10000 + 0x10000) :
    s.light (s.violationPut base next total record) bs := by
  have hlt : s.get next < 2 ^ next.width := Nat.mod_lt _ (Nat.pos_of_ne_zero (by simp))
  rw [hw] at hlt
  exact State.light_trans (State.light_trans (State.light_ringPlace base _ hb (length_wordsOf _ _) hr _ _ s (by omega)) (State.light_set _ _ _ (hn ▸ hb)))
    (State.light_set _ _ _ (ht ▸ hb))

/-- A violation record changes the block of its interface's ring and the event block only. -/
theorem State.light_violation (s : State) {iface : Nat} (code : Nat) (detail : Bytes) (h : iface ≤ 0x18) {bs : List Nat} (hb : ringBlock iface ∈ bs) (hc : 0xC ∈ bs) :
    s.light (s.violation iface code detail) bs := by
  unfold State.violation
  refine State.light_trans ?_ (State.light_raise _ (by omega) hc)
  unfold ringBlock at hb
  split
  · rename_i h1
    rw [if_pos h1] at hb
    refine s.light_violationPut _ _ _ _ hb ?_ ?_ rfl ?_ <;> simp only [F.IG_VR_IDX_NEXT, F.IG_VR_IDX_TOTAL, F.IG_VR] <;> omega
  · rename_i h1
    rw [if_neg h1] at hb
    split
    · rename_i h2
      rw [if_pos h2] at hb
      exact s.light_violationPut _ _ _ _ hb (by decide) (by decide) rfl (by decide)
    · rename_i h2
      rw [if_neg h2] at hb
      split
      · rename_i h3
        rw [if_pos h3] at hb
        refine s.light_violationPut _ _ _ _ hb ?_ ?_ rfl ?_ <;> simp only [F.LK_VR_IDX_NEXT, F.LK_VR_IDX_TOTAL, F.LK_VR] <;> omega
      · rename_i h3
        rw [if_neg h3] at hb
        exact s.light_violationPut _ _ _ _ hb (by decide) (by decide) rfl (by decide)

/-- A safety log record changes Chervil's block and the event block only. -/
theorem State.light_safetyLog (s : State) (r : SafetyRec) {bs : List Nat} (hb : 0xD ∈ bs) (hc : 0xC ∈ bs) : s.light (s.safetyLog r) bs :=
  State.light_trans (s.light_ringPut _ _ _ _ _ _ hb (by decide) (by decide) (by decide)) (State.light_raise _ (by omega) hc)

/-- A refused write leaves its record, its count and its event. -/
theorem State.light_refuseWrite (s : State) (a who : Nat) {bs : List Nat} (h1 : 0x11 ∈ bs) (h2 : 0xF ∈ bs) (h3 : 0xC ∈ bs) : s.light (s.refuseWrite a who) bs :=
  State.light_trans (State.light_trans (s.light_violation (iface := 0x13) _ _ (by omega) h1 h3) (State.light_set _ F.BT_LOCK_VIOL _ h2)) (State.light_raise _ (by omega) h3)

/-- The host port's answer changes its own block only. -/
theorem State.light_hostReply (s : State) (opcode status tag : Nat) (data : Bytes) {bs : List Nat} (h : 0x11 ∈ bs) : s.light (s.hostReply opcode status tag data) bs := by
  unfold State.hostReply
  have h1 : s.light ((s.answer status tag data).set F.HP_STATUS_LAST_STATUS status) bs := State.light_trans (State.light_of_eq rfl rfl) (State.light_set _ _ _ h)
  have h2 : s.light (((s.answer status tag data).set F.HP_STATUS_LAST_STATUS status).set F.HP_STATUS_LAST_OPCODE opcode) bs := State.light_trans h1 (State.light_set _ _ _ h)
  dsimp only
  split
  · exact h2
  · exact State.light_trans h2 (State.light_set _ F.HP_TXN_COUNT _ h)

/-- Time passing is light. -/
theorem State.light_elapse (s : State) (dt : Nat) (bs : List Nat) : s.light (s.elapse dt) bs := State.light_of_eq rfl rfl

/-- Driving the pins is light. -/
theorem State.light_drive (s : State) (bs : List Nat) : s.light s.drive bs := State.light_of_eq rfl rfl

/-- A word returned to a core is light. -/
theorem State.light_coreReturn (s : State) (c : Nat) (w : Word) (bs : List Nat) : s.light (s.coreReturn c w) bs := State.light_of_eq rfl rfl

/-- A word returned to a requester is light. -/
theorem State.light_readReturn (s : State) (r : Requester) (w : Word) {bs : List Nat} (h : 0x11 ∈ bs) : s.light (s.readReturn r w) bs := by
  cases r with
  | host => exact s.light_hostReply _ _ _ _ h
  | core c => exact s.light_coreReturn _ _ _

/-- A block that is off is answered for, and recorded. -/
theorem State.light_hostUnpowered (s : State) (opcode a n : Nat) {bs : List Nat} (h : 0x11 ∈ bs) (hc : 0xC ∈ bs) : s.light (s.hostUnpowered opcode a n) bs :=
  State.light_trans (s.light_violation (iface := 0x13) _ _ (by omega) h hc) (State.light_hostReply _ _ _ _ _ h)

/-- A write to a locked register is answered, and recorded. -/
theorem State.light_hostLocked (s : State) (a : Nat) {bs : List Nat} (h : 0x11 ∈ bs) (hf : 0xF ∈ bs) (hc : 0xC ∈ bs) : s.light (s.hostLocked a) bs :=
  State.light_trans (s.light_refuseWrite _ _ h hf hc) (State.light_hostReply _ _ _ _ _ h)

/-- A rejected write is answered, and recorded. -/
theorem State.light_hostRejected (s : State) (opcode a : Nat) {bs : List Nat} (h : 0x11 ∈ bs) (hc : 0xC ∈ bs) : s.light (s.hostRejected opcode a) bs :=
  State.light_trans (s.light_violation (iface := 0x13) _ _ (by omega) h hc) (State.light_hostReply _ _ _ _ _ h)

/-- A read is light when what it does is. -/
theorem State.light_readGate (s : State) (r : Requester) (a : Nat) (f : State → State) {bs : List Nat} (h : 0x11 ∈ bs) (hc : 0xC ∈ bs) (k : s.light (f s) bs) :
    s.light (s.readGate r a f) bs := by
  unfold State.readGate
  cases r with
  | host =>
    dsimp only
    split
    · exact s.light_refl bs
    · split
      · exact s.light_hostUnpowered _ _ _ h hc
      · exact k
  | core c =>
    dsimp only
    split
    · exact k
    · exact s.light_refl bs

/-- A core's store is light when what it does is. -/
theorem State.light_coreWrite (s : State) (c a : Nat) (v : Word) (f : State → State) {bs : List Nat} (h : 0x11 ∈ bs) (hf : 0xF ∈ bs) (hc : 0xC ∈ bs) (k : s.light (f s) bs) :
    s.light (s.coreWrite c a v f) bs := by
  unfold State.coreWrite
  split
  · split
    · exact k
    · exact s.light_refuseWrite _ _ h hf hc
  · exact s.light_refl bs

/-- A host write is light when what it does is. -/
theorem State.light_hostWrite (s : State) (a : Nat) (f : State → State) {bs : List Nat} (h : 0x11 ∈ bs) (hf : 0xF ∈ bs) (hc : 0xC ∈ bs) (k : s.light (f s) bs) :
    s.light (s.hostWrite a f) bs := by
  unfold State.hostWrite
  split
  · exact s.light_refl bs
  · split
    · exact s.light_hostUnpowered _ _ _ h hc
    · split
      · exact k
      · exact s.light_hostLocked _ h hf hc

/-- A fold of light operations is light. -/
theorem State.light_foldl {α : Type} (f : State → α → State) {bs : List Nat} (l : List α) (h : ∀ s : State, ∀ x ∈ l, s.light (f s x) bs) (s : State) : s.light (l.foldl f s) bs := by
  induction l generalizing s with
  | nil => exact s.light_refl bs
  | cons x xs ih => exact State.light_trans (h s x (by simp)) (ih (fun s y hy => h s y (by simp [hy])) (f s x))

/-! ### Status sources (R281) -/

/-- A level followed is light. -/
theorem State.light_followLevel (s : State) {src : Nat} (h : src < 1024) {bs : List Nat} (hc : 0xC ∈ bs) : s.light (s.followLevel src) bs := by
  have a1 : (F.EV_S_STAT_COUNT src).addr / 0x10000 = 0xC := by simp only [F.EV_S_STAT_COUNT]; omega
  unfold State.followLevel
  split
  · exact State.light_trans (s.light_set _ _ (a1 ▸ hc)) (State.light_evSetState _ _ h hc)
  · exact s.light_refl bs

/-- A recorded signal is light. -/
theorem State.light_setSignal (s : State) (src : Nat) (level : Bool) (bs : List Nat) : s.light (s.setSignal src level) bs := by
  unfold State.setSignal
  split
  · exact s.light_refl bs
  · exact State.light_of_eq rfl rfl

/-- A status source's change touches the event controller only. -/
theorem State.light_statusSource (s : State) {src : Nat} (h : src < 1024) (level : Bool) {bs : List Nat} (hc : 0xC ∈ bs) : s.light (s.statusSource src level) bs := by
  unfold State.statusSource
  split
  · exact s.light_refl bs
  · refine State.light_trans (s.light_setSignal src level bs) ?_
    dsimp only
    generalize s.setSignal src level = t
    split
    · exact t.light_followLevel h hc
    · exact t.light_followLevel h hc
    · split
      · exact t.light_raise h hc
      · exact t.light_refl bs
    · split
      · exact t.light_refl bs
      · exact t.light_raise h hc
    · exact t.light_raise h hc
    · exact t.light_refl bs

end Sys2Proof.Machine
end

