-- ==== Sys2Proof/Laws/Help.lean ====
section
/-! SUPPORT. Small lemmas that proofs about the commands rest on: lists, bytes and slices, runs of registers, memories, events and fences. -/

namespace Sys2Proof.Laws

open Sys2Proof.Machine

/-! Lists and association lists. -/

theorem getD_setAt_same {α : Type} (l : List α) (i : Nat) (v d : α) (h : i < l.length) : (setAt l i v).getD i d = v := by
  induction l generalizing i with
  | nil => simp at h
  | cons x xs ih => cases i with
    | zero => simp [setAt]
    | succ i => simpa [setAt] using ih i (by simpa using h)

theorem getD_setAt_other {α : Type} (l : List α) {i j : Nat} (h : j ≠ i) (v d : α) : (setAt l i v).getD j d = l.getD j d := by
  induction l generalizing i j with
  | nil => simp [setAt]
  | cons x xs ih => cases i with
    | zero => cases j with
      | zero => exact absurd rfl h
      | succ j => simp [setAt]
    | succ i => cases j with
      | zero => simp [setAt]
      | succ j => simpa [setAt] using ih (by omega : j ≠ i)

theorem assocGet_put_same {α : Type} (k : Nat) (v : α) (l : List (Nat × α)) : assocGet k (assocPut k v l) = some v := by
  induction l with
  | nil => simp [assocPut, assocGet]
  | cons x xs ih => obtain ⟨j, w⟩ := x; unfold assocPut; split <;> simp [assocGet, *]

theorem assocGet_put_other {α : Type} {k j : Nat} (h : j ≠ k) (v : α) (l : List (Nat × α)) : assocGet j (assocPut k v l) = assocGet j l := by
  induction l with
  | nil => simp [assocPut, assocGet, Ne.symm h]
  | cons x xs ih =>
    obtain ⟨i, w⟩ := x
    unfold assocPut
    split
    · rename_i e; subst e; simp [assocGet, Ne.symm h]
    · simp [assocGet, ih]

theorem ins_sorted {α : Type} (key : α → Nat) (v : α) (l : List α) (h : l.Pairwise (fun a b => key a ≤ key b)) : (insertByKey key v l).Pairwise (fun a b => key a ≤ key b) := by
  induction l with
  | nil => simp [insertByKey]
  | cons x xs ih =>
    rw [List.pairwise_cons] at h
    unfold insertByKey
    split
    · rename_i k
      rw [List.pairwise_cons]
      refine ⟨?_, List.pairwise_cons.2 h⟩
      intro a ha
      rcases List.mem_cons.1 ha with rfl | ha
      · omega
      · have := h.1 a ha; omega
    · rename_i k
      rw [List.pairwise_cons]
      refine ⟨?_, ih h.2⟩
      intro a ha
      have : a = v ∨ a ∈ xs := by
        clear ih h k
        induction xs with
        | nil => simpa [insertByKey] using ha
        | cons y ys ih =>
          unfold insertByKey at ha
          split at ha
          · simpa using ha
          · rcases List.mem_cons.1 ha with rfl | ha
            · right; simp
            · rcases ih ha with h | h
              · left; exact h
              · right; simp [h]
      rcases this with rfl | this
      · omega
      · exact h.1 a this

theorem sort_sorted {α : Type} (key : α → Nat) (l acc : List α) (h : acc.Pairwise (fun a b => key a ≤ key b)) :
    (l.foldl (fun acc x => insertByKey key x acc) acc).Pairwise (fun a b => key a ≤ key b) := by
  induction l generalizing acc with
  | nil => exact h
  | cons x xs ih => exact ih _ (ins_sorted key x acc h)

theorem mem_insertByKey {α : Type} (key : α → Nat) (v x : α) (l : List α) : x ∈ insertByKey key v l ↔ x = v ∨ x ∈ l := by
  induction l with
  | nil => simp [insertByKey]
  | cons y ys ih =>
    unfold insertByKey
    split
    · simp
    · simp [ih]; tauto

theorem mem_sort_aux {α : Type} (key : α → Nat) (x : α) (l acc : List α) : x ∈ l.foldl (fun acc x => insertByKey key x acc) acc ↔ x ∈ l ∨ x ∈ acc := by
  induction l generalizing acc with
  | nil => simp
  | cons y ys ih => simp [ih, mem_insertByKey]; tauto

theorem ins_perm {α : Type} (key : α → Nat) (v : α) (l : List α) : (insertByKey key v l).Perm (v :: l) := by
  induction l with
  | nil => exact List.Perm.refl _
  | cons y ys ih =>
    unfold insertByKey
    split
    · exact List.Perm.refl _
    · exact (List.Perm.cons y ih).trans (List.Perm.swap _ _ _)

theorem sort_perm {α : Type} (key : α → Nat) (l acc : List α) : (l.foldl (fun acc x => insertByKey key x acc) acc).Perm (l ++ acc) := by
  induction l generalizing acc with
  | nil => exact List.Perm.refl _
  | cons x xs ih =>
    refine (ih _).trans ?_
    refine (List.Perm.append_left xs (ins_perm key x acc)).trans ?_
    simp

theorem sort_map (v : Nat → Int) (xs : List Nat) (h : ∀ j ∈ xs, -2 ^ 31 ≤ v j ∧ v j < 2 ^ 31) : ((sortByValue v xs).map v).Pairwise (· ≤ ·) ∧ (sortByValue v xs).Perm xs := by
  have p : (sortByValue v xs).Perm xs := by
    have := sort_perm (fun j => (v j + 2 ^ 32).toNat) xs []
    rw [List.append_nil] at this; exact this
  refine ⟨?_, p⟩
  rw [List.pairwise_map]
  have := sort_sorted (fun j => (v j + 2 ^ 32).toNat) xs [] List.Pairwise.nil
  refine List.Pairwise.imp_of_mem ?_ this
  intro a b ha hb hab
  have h1 := h a (p.mem_iff.1 ha)
  have h2 := h b (p.mem_iff.1 hb)
  omega

theorem median_map (v : Nat → Int) (xs : List Nat) (hne : xs ≠ []) (p : (sortByValue v xs).Perm xs) : medianOf v xs =
    (let o := (sortByValue v xs).map v
     let n := o.length
     if n % 2 == 1 then o.getD (n / 2) 0 else (o.getD (n / 2 - 1) 0 + o.getD (n / 2) 0) / 2) := by
  have hl : 0 < (sortByValue v xs).length := by rw [p.length_eq]; exact List.length_pos_iff.2 hne
  unfold medianOf
  dsimp only
  rw [List.length_map]
  have g : ∀ i, i < (sortByValue v xs).length → ((sortByValue v xs).map v).getD i 0 = v ((sortByValue v xs).getD i 0) := by
    intro i hi
    rw [List.getD_eq_getElem _ _ (by simpa using hi), List.getD_eq_getElem _ _ hi, List.getElem_map]
  rw [g _ (by omega), g _ (by omega)]

theorem signed_range (n : Nat) : -2 ^ 31 ≤ signedOf 32 n ∧ signedOf 32 n < 2 ^ 31 := by
  unfold signedOf
  have := Nat.mod_lt n (show 0 < 2 ^ 32 by norm_num)
  dsimp only
  split <;> push_cast <;> omega

theorem signed_pattern_mod (i : Int) : (signedOf 32 (patternOf 32 i) - i) % 2 ^ 32 = 0 := by
  unfold signedOf patternOf
  dsimp only
  split <;> push_cast <;> omega

theorem signed_pattern_id (i : Int) (h : -2 ^ 31 ≤ i ∧ i < 2 ^ 31) : signedOf 32 (patternOf 32 i) = i := by
  have := signed_pattern_mod i
  have := signed_range (patternOf 32 i)
  omega

theorem rne_fin (s : Bool) (m : Nat) : (Fl.fin s m 0).rneInt = some (if s then -(m : Int) else m) := by
  simp [Fl.rneInt, rneAt]


/-! Bytes, little-endian numbers, slices and the CRC. -/

theorem leNat_append (a b : Bytes) : leNat (a ++ b) = leNat a + 256 ^ a.length * leNat b := by
  induction a with
  | nil => simp [leNat]
  | cons x xs ih => simp only [List.cons_append, leNat, ih, List.length_cons, pow_succ]; ring

theorem leNat_lt (bs : Bytes) : leNat bs < 256 ^ bs.length := by
  induction bs with
  | nil => simp [leNat]
  | cons b bs ih => simp only [leNat, List.length_cons, pow_succ]; have := b.isLt; omega

theorem leBytes_length (k n : Nat) : (leBytes k n).length = k := by
  induction k generalizing n with
  | zero => rfl
  | succ k ih => simp [leBytes, ih]

theorem leNat_leBytes (k n : Nat) : leNat (leBytes k n) = n % 256 ^ k := by
  induction k generalizing n with
  | zero => simp [leBytes, leNat, Nat.mod_one]
  | succ k ih =>
    simp only [leBytes, leNat, ih, BitVec.toNat_ofNat]
    rw [show 256 ^ (k + 1) = 256 * 256 ^ k by ring, Nat.mod_mul]

theorem leBytes_leNat (bs : Bytes) : leBytes bs.length (leNat bs) = bs := by
  induction bs with
  | nil => rfl
  | cons b bs ih =>
    simp only [List.length_cons, leBytes, leNat]
    have h1 : BitVec.ofNat 8 (b.toNat + 256 * leNat bs) = b := by
      apply BitVec.eq_of_toNat_eq; have := b.isLt; simp; omega
    have h2 : (b.toNat + 256 * leNat bs) / 256 = leNat bs := by have := b.isLt; omega
    rw [h1, h2, ih]

theorem sliceB_length (bs : Bytes) (o n : Nat) : (sliceB bs o n).length = n := by
  unfold sliceB; simp

theorem sliceB_in {bs : Bytes} {o n : Nat} (h : o + n ≤ bs.length) : sliceB bs o n = (bs.drop o).take n := by
  unfold sliceB
  have : ((bs.drop o).take n).length = n := by simp; omega
  dsimp only
  rw [this]; simp

theorem slice_mid (a b c : Bytes) : sliceB (a ++ b ++ c) a.length b.length = b := by
  rw [sliceB_in (by simp)]
  simp

theorem slice_at {bs a b c : Bytes} {o n : Nat} (h : bs = a ++ b ++ c) (ho : a.length = o) (hn : b.length = n) : sliceB bs o n = b := by
  subst h ho hn; exact slice_mid a b c

theorem wordsOf_length (k : Nat) (bs : Bytes) : (wordsOf k bs).length = k := by
  induction k generalizing bs with
  | zero => rfl
  | succ k ih => simp [wordsOf, ih]

theorem getD_sliceB (bs : Bytes) (o n i : Nat) : (sliceB bs o n).getD i 0 = if i < n then bs.getD (o + i) 0 else 0 := by
  unfold sliceB
  dsimp only
  by_cases h : i < ((bs.drop o).take n).length
  · have h' := h
    simp only [List.length_take, List.length_drop] at h'
    rw [List.getD_append _ _ _ _ h, if_pos (by omega), List.getD_eq_getElem _ _ h, List.getElem_take, List.getElem_drop, List.getD_eq_getElem _ _ (by omega)]
  · rw [List.getD_append_right _ _ _ _ (by omega)]
    have h' := h
    simp only [List.length_take, List.length_drop] at h'
    have e : (List.replicate (n - ((bs.drop o).take n).length) (0 : Byte)).getD (i - ((bs.drop o).take n).length) 0 = 0 := by
      rw [List.getD_eq_getElem?_getD, List.getElem?_replicate]; split <;> rfl
    rw [e]
    split
    · rw [List.getD_eq_default _ _ (by omega)]
    · rfl

theorem sliceB_sliceB (bs : Bytes) {o n o2 n2 : Nat} (h : o2 + n2 ≤ n) : sliceB (sliceB bs o n) o2 n2 = sliceB bs (o + o2) n2 := by
  apply List.ext_getElem
  · rw [sliceB_length, sliceB_length]
  · intro i h1 h2
    rw [sliceB_length] at h1
    rw [← List.getD_eq_getElem _ 0, ← List.getD_eq_getElem _ 0, getD_sliceB, getD_sliceB, getD_sliceB, if_pos h1, if_pos (by omega), if_pos h1, Nat.add_assoc]

theorem leNat_byte (bs : Bytes) (j : Nat) : leNat bs / 2 ^ (8 * j) % 256 = (bs.getD j 0).toNat := by
  induction bs generalizing j with
  | nil => simp [leNat]
  | cons b bs ih =>
    have hb := b.isLt
    cases j with
    | zero => simp only [leNat, Nat.mul_zero, pow_zero, Nat.div_one, List.getD_cons_zero]; omega
    | succ j =>
      rw [List.getD_cons_succ, ← ih j, show 8 * (j + 1) = 8 + 8 * j by ring, pow_add, ← Nat.div_div_eq_div_mul]
      congr 2
      simp only [leNat]; omega

theorem nibble_lo (bs : Bytes) (j : Nat) : bitsOf (leNat bs) (8 * j) 4 = bitsOf (bs.getD j 0).toNat 0 4 := by
  rw [← leNat_byte]; unfold bitsOf; norm_num

theorem nibble_hi (bs : Bytes) (j : Nat) : bitsOf (leNat bs) (8 * j + 4) 4 = bitsOf (bs.getD j 0).toNat 4 4 := by
  rw [← leNat_byte]; unfold bitsOf
  rw [pow_add, ← Nat.div_div_eq_div_mul]
  generalize leNat bs / 2 ^ (8 * j) = m; omega

theorem step_lt (k c : Nat) (h : c < 2 ^ 32) : crcStepR 0xEDB88320 k c < 2 ^ 32 := by
  induction k generalizing c with
  | zero => exact h
  | succ k ih =>
    unfold crcStepR
    apply ih
    split
    · exact Nat.xor_lt_two_pow (by omega) (by norm_num)
    · omega

theorem crcR_lt (bs : Bytes) (c : Nat) (h : c < 2 ^ 32) : crcR 0xEDB88320 c bs < 2 ^ 32 := by
  induction bs generalizing c with
  | nil => exact h
  | cons b bs ih => unfold crcR; exact ih _ (step_lt 8 _ (Nat.xor_lt_two_pow h (by have := b.isLt; omega)))

theorem crc32_lt (bs : Bytes) : crc32 bs < 2 ^ 32 := by
  unfold crc32; exact Nat.xor_lt_two_pow (crcR_lt bs _ (by norm_num)) (by norm_num)

/-! Register fields, words and runs of words. -/

theorem get_lt (s : State) (f : Field) : s.get f < 2 ^ f.width := by
  unfold State.get bitsOf; exact Nat.mod_lt _ (by positivity)

theorem get_of_reg {s t : State} {f : Field} (h : t.readReg f.addr = s.readReg f.addr) : t.get f = s.get f := by unfold State.get; rw [h]

theorem get_regs {s t : State} (h : t.regs = s.regs) (f : Field) : t.get f = s.get f := by unfold State.get State.readReg; rw [h]

theorem get_frame {s t : State} {bs : List Nat} (h : s.light t bs) (f : Field) (k : f.addr / 0x10000 ∉ bs) : t.get f = s.get f := by
  unfold State.get; rw [h.1.1 _ k]

theorem light_sf {s t : State} {bs : List Nat} (h : s.light t bs) : t.sf = s.sf := by have e := congrArg State.sf h.2; exact e

theorem light_io {s t : State} {bs : List Nat} (h : s.light t bs) : t.io = s.io := by have e := congrArg State.io h.2; exact e

theorem writeWords_out (s : State) (a : Nat) (ws : List Nat) (b : Nat) (h : ∀ i < ws.length, b ≠ a + 4 * i) : (s.writeWords a ws).readReg b = s.readReg b := by
  induction ws generalizing s a with
  | nil => rfl
  | cons w ws ih =>
    rw [State.writeWords, ih, State.readReg_writeReg_other]
    · simpa using h 0 (by simp)
    · intro i hi
      have := h (i + 1) (by simpa using hi)
      omega

theorem writeWords_in (s : State) (a : Nat) (ws : List Nat) (i : Nat) (h : i < ws.length) : (s.writeWords a ws).readReg (a + 4 * i) = BitVec.ofNat 32 (ws.getD i 0) := by
  induction ws generalizing s a i with
  | nil => simp at h
  | cons w ws ih =>
    rw [State.writeWords]
    cases i with
    | zero =>
      rw [writeWords_out _ _ _ _ (by intro i hi; omega)]
      simpa using State.readReg_writeReg_same s a (BitVec.ofNat 32 w)
    | succ i =>
      have := ih (s.writeReg a (BitVec.ofNat 32 w)) (a + 4) i (by simpa using h)
      rw [show a + 4 * (i + 1) = a + 4 + 4 * i by ring, this]
      simp

theorem regBytes_words (s : State) (a k : Nat) (bs : Bytes) (hl : bs.length = 4 * k) : (h : ∀ i < k, s.readReg (a + 4 * i) = BitVec.ofNat 32 ((wordsOf k bs).getD i 0)) → s.regBytes a k = bs := by
  induction k generalizing a bs with
  | zero => intro _; simp at hl; simp [State.regBytes, hl]
  | succ k ih =>
    intro h
    rw [State.regBytes, ih (a + 4) (bs.drop 4) (by simp; omega)]
    · have h0 := h 0 (by omega)
      simp only [Nat.mul_zero, Nat.add_zero, wordsOf, List.getD_cons_zero] at h0
      rw [h0]
      have hlen : (bs.take 4).length = 4 := by simp; omega
      have hlt := leNat_lt (bs.take 4)
      rw [hlen] at hlt
      rw [BitVec.toNat_ofNat, Nat.mod_eq_of_lt (by norm_num at hlt ⊢; exact hlt)]
      have := leBytes_leNat (bs.take 4)
      rw [hlen] at this
      rw [this, List.take_append_drop]
    · intro i hi
      have := h (i + 1) (by omega)
      rw [show a + 4 + 4 * i = a + 4 * (i + 1) by ring, this]
      simp [wordsOf]

theorem regBytes_congr (s t : State) (a k : Nat) (h : ∀ i < k, t.readReg (a + 4 * i) = s.readReg (a + 4 * i)) : t.regBytes a k = s.regBytes a k := by
  induction k generalizing a with
  | zero => rfl
  | succ k ih =>
    rw [State.regBytes, State.regBytes, ih (a + 4)]
    · have := h 0 (by omega); simp at this; rw [this]
    · intro i hi; have := h (i + 1) (by omega); rw [show a + 4 + 4 * i = a + 4 * (i + 1) by ring]; exact this

theorem nvm_words (ws : List Nat) : ∀ (b : Nat) (v : State), (v.writeWords b ws).nvm = v.nvm := by
  induction ws with
  | nil => intro b v; rfl
  | cons w ws ih => intro b v; rw [State.writeWords, ih]; rfl

/-! Memories: the address map, DRAM and NVM. -/

theorem tiles_le (s : State) : s.tiles ≤ 180 := by
  have := get_lt s F.GLB_STATUS_COLS
  simp only [F.GLB_STATUS_COLS] at this
  unfold State.tiles
  simp only [F.GLB_STATUS_COLS]; omega

theorem tiles_dramPut (s : State) (a : Nat) (v : Byte) : (s.dramPut a v).tiles = s.tiles := by
  obtain ⟨d, h⟩ := s.dramPut_eq a v; rw [h]; rfl

theorem toLocal_dramPut (s : State) (a : Nat) (v : Byte) (b : Nat) : (s.dramPut a v).toLocal b = s.toLocal b := State.toLocal_congr (tiles_dramPut s a v) b

theorem dram_back (bs : Bytes) : ∀ (s : State) (a : Nat), (∀ i < bs.length, (s.toLocal (a + i)).isSome = true) →
    (∀ i < bs.length, ∀ j < bs.length, s.toLocal (a + i) = s.toLocal (a + j) → i = j) → ∀ i < bs.length, (s.dramWrite a bs).dramByte (a + i) = bs.getD i 0 := by
  induction bs with
  | nil => intro s a _ _ i hi; simp at hi
  | cons b bs ih =>
    intro s a h1 h2 i hi
    cases i with
    | zero =>
      rw [State.dramWrite, State.dramByte_dramWrite_out]
      · obtain ⟨l, hl⟩ := Option.isSome_iff_exists.1 (h1 0 (by simp))
        simpa using State.dramByte_dramPut_same s hl b
      · intro i hi e
        rw [toLocal_dramPut, toLocal_dramPut] at e
        have := h2 0 (by simp) (i + 1) (by simpa using hi) (by rw [e]; congr 1; omega)
        omega
    | succ i =>
      have := ih (s.dramPut a b) (a + 1) (fun i hi => by rw [toLocal_dramPut, show a + 1 + i = a + (i + 1) by omega]; exact h1 (i + 1) (by simpa using hi))
        (fun i hi j hj e => by
          rw [toLocal_dramPut, toLocal_dramPut, show a + 1 + i = a + (i + 1) by omega, show a + 1 + j = a + (j + 1) by omega] at e
          have := h2 (i + 1) (by simpa using hi) (j + 1) (by simpa using hj) e
          omega) i (by simpa using hi)
      rw [State.dramWrite, show a + (i + 1) = a + 1 + i by omega, this]
      simp

theorem local_linear (s : State) {a : Nat} (h : a < 0x1000000000) (k : (s.toLocal a).isSome = true) : s.toLocal a = some a := by
  unfold State.toLocal at k ⊢
  dsimp only at k ⊢
  split
  · rfl
  · rename_i h2
    rw [if_neg h2] at k
    have : ¬ 0x1000000000 ≤ a := by omega
    simp [this] at k

theorem local_striped (s : State) {a : Nat} (h : 0x1000000000 ≤ a) : s.toLocal a =
    if (a - 0x1000000000) / 2 ^ 28 < s.tiles then some (((a - 0x1000000000) / 4096 % s.tiles) * 2 ^ 28 + ((a - 0x1000000000) / 4096 / s.tiles * 4096 + (a - 0x1000000000) % 4096)) else none := by
  have := tiles_le s
  have h2 : ¬ a / 2 ^ 28 < s.tiles := by
    have : 0x1000000000 / 2 ^ 28 ≤ a / 2 ^ 28 := Nat.div_le_div_right h
    have e : (0x1000000000 : Nat) / 2 ^ 28 = 256 := by norm_num
    omega
  unfold State.toLocal
  simp only [h2, if_false, h, decide_true, Bool.true_and, decide_eq_true_eq]

theorem read_write_linear (s : State) (a : Nat) (bs : Bytes) (h : ∀ i < bs.length, s.toLocal (a + i) = some (a + i)) : (s.dramWrite a bs).dramRead a bs.length = bs := by
  apply List.ext_getElem
  · simp [State.dramRead]
  · intro i h3 h4
    have k := dram_back bs s a (fun i hi => by rw [h i hi]; rfl) (fun i hi j hj e => by rw [h i hi, h j hj, Option.some.injEq] at e; omega) i h4
    simp only [State.dramRead, List.getElem_map, List.getElem_range]
    rw [k]
    simp [List.getD_eq_getElem?_getD, h4]

theorem dramByte_congr {s t : State} (hd : t.dram = s.dram) (hr : t.tiles = s.tiles) (x : Nat) : t.dramByte x = s.dramByte x := by
  unfold State.dramByte; rw [State.toLocal_congr hr x, hd]

theorem read1 (s : State) (x : Nat) : s.nvmRead x 1 = [Memory.read nvmDefault s.nvm x] := by simp [State.nvmRead]

theorem read_filter (m : List (Nat × Byte)) (p : Nat → Bool) (x : Nat) : Memory.read nvmDefault (m.filter (fun e => p e.1)) x = if p x then Memory.read nvmDefault m x else nvmDefault x := by
  induction m with
  | nil => simp [Memory.read]
  | cons e m ih =>
    obtain ⟨k, v⟩ := e
    by_cases h : p k = true
    · rw [List.filter_cons_of_pos (by simpa using h)]
      unfold Memory.read
      by_cases e : k = x
      · subst e; simp [h]
      · simp [e, ih]
    · rw [List.filter_cons_of_neg (by simpa using h), ih]
      conv_rhs => unfold Memory.read
      by_cases e : k = x
      · subst e; simp [h]
      · simp [e]

theorem unstall_eq (s : State) (l : Nat) : (s.unstall l).dram = s.dram ∧ (s.unstall l).sram = s.sram ∧ (s.unstall l).nvm = s.nvm ∧ (s.unstall l).readReg F.GLB_STATUS_COLS.addr = s.readReg F.GLB_STATUS_COLS.addr := by
  unfold State.unstall
  split
  · refine ⟨rfl, rfl, rfl, ?_⟩
    exact State.readReg_set_other s (F.TL_SPILL_STALL l) _ (by simp only [F.GLB_STATUS_COLS, F.TL_SPILL_STALL]; omega)
  · exact ⟨rfl, rfl, rfl, rfl⟩

theorem settleMark_eq (s : State) (l : Nat) : (s.settleMark l).dram = s.dram ∧ (s.settleMark l).sram = s.sram ∧ (s.settleMark l).nvm = s.nvm ∧ (s.settleMark l).readReg F.GLB_STATUS_COLS.addr = s.readReg F.GLB_STATUS_COLS.addr := by
  unfold State.settleMark
  split
  · exact unstall_eq (s.setTl fun t => { t with above := t.above.filter (fun x => x != l) }) l
  · exact ⟨rfl, rfl, rfl, rfl⟩

/-! Events, violation records, the safe state, fences and captures. -/

theorem evSet_count (s : State) {src o : Nat} (st : Nat) (h : src < 1024) (ho : o < 1024) : (s.evSetState src st).get (F.EV_S_STAT_COUNT o) = s.get (F.EV_S_STAT_COUNT o) := by
  unfold State.evSetState
  dsimp only
  rw [State.get_set_other _ _ _ _ (by simp only [F.EV_S_STAT_COUNT, F.EV_STATUS]; omega), State.get_set_other _ _ _ _ (by simp only [F.EV_S_STAT_COUNT, F.EV_PEND]; omega)]
  by_cases e : o = src
  · subst e
    exact State.get_set_disjoint _ _ _ _ (by simp [F.EV_S_STAT_STATE]) (by simp [F.EV_S_STAT_STATE, F.EV_S_STAT_COUNT]) (by simp [F.EV_S_STAT_STATE, F.EV_S_STAT_COUNT])
  · exact State.get_set_other _ _ _ _ (by simp only [F.EV_S_STAT_COUNT, F.EV_S_STAT_STATE]; omega)

theorem evSet_state (s : State) {src : Nat} {st : Nat} (h : src < 1024) (k : st < 8) : (s.evSetState src st).get (F.EV_S_STAT_STATE src) = st := by
  unfold State.evSetState
  dsimp only
  rw [State.get_set_other _ _ _ _ (by simp only [F.EV_S_STAT_STATE, F.EV_STATUS]; omega), State.get_set_other _ _ _ _ (by simp only [F.EV_S_STAT_STATE, F.EV_PEND]; omega),
    State.get_set_same _ _ _ (by simp [F.EV_S_STAT_STATE])]
  simp only [F.EV_S_STAT_STATE]; omega

theorem evSet_state_other (s : State) {src o : Nat} (st : Nat) (h : src < 1024) (ho : o < 1024) (hn : o ≠ src) : (s.evSetState src st).get (F.EV_S_STAT_STATE o) = s.get (F.EV_S_STAT_STATE o) := by
  unfold State.evSetState
  dsimp only
  rw [State.get_set_other _ _ _ _ (by simp only [F.EV_S_STAT_STATE, F.EV_STATUS]; omega), State.get_set_other _ _ _ _ (by simp only [F.EV_S_STAT_STATE, F.EV_PEND]; omega),
    State.get_set_other _ _ _ _ (by simp only [F.EV_S_STAT_STATE]; omega)]

theorem raise_eq (s : State) (src : Nat) (h2 : s.flag (F.EV_S_CFG_EN src) = true) (h3 : s.get (F.EV_S_STAT_STATE src) ≤ 1) :
    ∃ u : State, s.raise src = u.evCountState src ∧ u.regs = (s.incSat (F.EV_S_STAT_COUNT src)).regs := by
  unfold State.raise
  rw [if_pos h2]
  dsimp only
  have hst : ∀ u : State, u.regs = (s.incSat (F.EV_S_STAT_COUNT src)).regs → u.get (F.EV_S_STAT_STATE src) = s.get (F.EV_S_STAT_STATE src) := by
    intro u hu
    have e : u.get (F.EV_S_STAT_STATE src) = (s.incSat (F.EV_S_STAT_COUNT src)).get (F.EV_S_STAT_STATE src) := by
      unfold State.get State.readReg; rw [hu]
    rw [e]
    exact State.get_set_disjoint _ _ _ _ (by simp [F.EV_S_STAT_COUNT]) (by simp [F.EV_S_STAT_STATE, F.EV_S_STAT_COUNT]) (by simp [F.EV_S_STAT_STATE, F.EV_S_STAT_COUNT])
  have hw : ∀ u : State, u.regs = (s.incSat (F.EV_S_STAT_COUNT src)).regs →
      (match u.get (F.EV_S_STAT_STATE src) with | 0 => u.evCountState src | 1 => u.evCountState src | 4 => u.evSetState src 5 | _ => u) = u.evCountState src := by
    intro u hu
    rw [hst u hu]
    generalize s.get (F.EV_S_STAT_STATE src) = n at h3
    interval_cases n <;> rfl
  exact ⟨_, hw _ (by split <;> rfl), by split <;> rfl⟩

theorem raise_get (s : State) {src : Nat} (h : src < 1024) (f : Field) (k : f.addr / 0x10000 ≠ 0xC) : (s.raise src).get f = s.get f :=
  get_frame (State.light_raise s h (bs := [0xC]) (by simp)) f (by simpa using k)

theorem count_inc (s : State) (src : Nat) : (s.incSat (F.EV_S_STAT_COUNT src)).get (F.EV_S_STAT_COUNT src) = min 255 (s.get (F.EV_S_STAT_COUNT src) + 1) := by
  unfold State.incSat State.addSat
  rw [State.get_set_same _ _ _ (by simp [F.EV_S_STAT_COUNT])]
  have key : ∀ n < 256, satNat 8 (n + 1) % 2 ^ 8 = min 255 (n + 1) := by intro n hn; unfold satNat; split <;> omega
  exact key _ (get_lt s (F.EV_S_STAT_COUNT src))

theorem violation_host (s : State) (code : Nat) (detail : Bytes) : s.violation 0x13 code detail =
    (s.violationPut (F.HP_VR 0).addr F.HP_VR_IDX_NEXT F.HP_VR_IDX_TOTAL (violationRecord s.now 0x13 code detail)).raise 0xE3 := rfl

/-- A record that no record of its own cycle comes after lies at NEXT (R82). -/
theorem ringPlace_last (s : State) (base : Nat) (record : List Nat) (k n : Nat)
    (h : ¬ ((s.ringRecord base ((n + 63) % 64)).take 2 = record.take 2 ∧ violationOrder record < violationOrder (s.ringRecord base ((n + 63) % 64)))) :
    s.ringPlace base record k n = s.writeWords (base + 16 * n) record := by
  cases k with
  | zero => rfl
  | succ k =>
    unfold State.ringPlace
    dsimp only
    rw [if_neg]
    simpa using h

theorem pwmSafe_light (s : State) (n : Nat) (h : n ≤ 12) : s.light (s.pwmSafe n) [0x14] := by
  induction n with
  | zero => exact State.light_refl _ _
  | succ w ih =>
    refine State.light_trans (ih (by omega)) ?_
    exact State.light_set _ _ _ (by simp only [F.IO_PWM_STAT_SAFE]; simp; omega)

theorem pwmSafe_get (s : State) (n : Nat) (h : n ≤ 12) : ∀ w, w < 12 → (w < n → s.flag (F.IO_PWM_CFG_EN w) = true → (s.pwmSafe n).flag (F.IO_PWM_STAT_SAFE w) = true) := by
  induction n with
  | zero => intro w _ h; omega
  | succ m ih =>
    intro w hw h1 h2
    unfold State.pwmSafe State.flag State.setFlag
    by_cases e : w = m
    · subst e
      rw [State.get_set_same _ _ _ (by simp [F.IO_PWM_STAT_SAFE])]
      rw [show s.get (F.IO_PWM_CFG_EN w) == 1 from h2]
      rfl
    · rw [State.get_set_other _ _ _ _ (by simp only [F.IO_PWM_STAT_SAFE]; omega)]
      exact ih (by omega) w hw (by omega) h2

theorem fatal_go (u : State) (r : SafetyRec) (h : u.sf.phase ≠ .fault) :
    let s0 := u.safetyLog { r with severity := 2 }
    let s2 := ((s0.setFaultN true).set F.SF_STATUS_SUPERVISING 0).set F.SF_STATUS_FATAL_CODE r.code
    u.fatal r = (State.outputsSafe { s2 with sf := { s2.sf with phase := .fault } }).raise 0x170 := by
  have e : (u.safetyLog { r with severity := 2 }).sf = u.sf := light_sf (State.light_safetyLog u { r with severity := 2 } (bs := [0xD, 0xC]) (by simp) (by simp))
  dsimp only
  unfold State.fatal
  dsimp only
  split
  · rename_i h2; rw [e] at h2; exact absurd h2 h
  · rfl

theorem fireWatchers_light (s : State) (f n : Nat) (h : n ≤ 64) : s.light (s.fireWatchers f n) [0xC] := by
  induction n with
  | zero => exact State.light_refl _ _
  | succ w ih =>
    unfold State.fireWatchers
    dsimp only
    refine State.light_trans (ih (by omega)) ?_
    split
    · refine State.light_trans ?_ (State.light_raise _ (by omega) (by simp))
      exact State.light_of_eq rfl rfl
    · exact State.light_refl _ _

theorem occur_regs (s : State) (n k : Nat) : (s.occur n k).regs = s.regs := by
  unfold State.occur State.setListState
  obtain ⟨d, e⟩ := s.dramWrite_eq (s.listStateAddr n + 0) (leBytes 4 (satNat 32 (s.pendingOf n + k)))
  rw [e]

theorem moveFence_get (s : State) (f v : Nat) (g : Field) (h : g.addr / 0x10000 ≠ 0xC) :
    (s.moveFence f v).get g = (s.set64 (F.CL_FENCE_LO f) (F.CL_FENCE_HI f) (v % 2 ^ 64)).get g := by
  unfold State.moveFence
  dsimp only
  rw [get_frame (fireWatchers_light _ f 64 (by decide)) g (by simpa using h)]
  unfold State.occurAll
  generalize (s.set64 (F.CL_FENCE_LO f) (F.CL_FENCE_HI f) (v % 2 ^ 64)) = u
  have : ∀ (l : List Nat) (w : State) (fn : State → Nat → State), (∀ (x : State) (n : Nat), (fn x n).regs = x.regs) → (l.foldl fn w).regs = w.regs := by
    intro l
    induction l with
    | nil => intro w fn _; rfl
    | cons a l ih => intro w fn hf; rw [List.foldl_cons, ih _ _ hf, hf]
  unfold State.get State.readReg
  rw [this]
  intro x n
  exact occur_regs _ _ _

theorem fence_move (s : State) {f v : Nat} (_hf : f < 4096) : (s.moveFence f v).fence f = v % 2 ^ 64 := by
  unfold State.fence State.get64
  rw [moveFence_get _ _ _ _ (by simp only [F.CL_FENCE_LO]; omega), moveFence_get _ _ _ _ (by simp only [F.CL_FENCE_HI]; omega)]
  unfold State.set64
  rw [State.get_set_other _ _ _ _ (by simp only [F.CL_FENCE_LO, F.CL_FENCE_HI]; omega), State.get_set_same _ _ _ (by simp [F.CL_FENCE_LO]), State.get_set_same _ _ _ (by simp [F.CL_FENCE_HI])]
  simp only [F.CL_FENCE_LO, F.CL_FENCE_HI]
  omega

theorem fence_move_other (s : State) {f g v : Nat} (_hf : f < 4096) (hg : g < 4096) (h : g ≠ f) : (s.moveFence f v).fence g = s.fence g := by
  unfold State.fence State.get64
  rw [moveFence_get _ _ _ _ (by simp only [F.CL_FENCE_LO]; omega), moveFence_get _ _ _ _ (by simp only [F.CL_FENCE_HI]; omega)]
  unfold State.set64
  rw [State.get_set_other _ _ _ _ (by simp only [F.CL_FENCE_LO, F.CL_FENCE_HI]; omega), State.get_set_other _ _ _ _ (by simp only [F.CL_FENCE_LO]; omega),
    State.get_set_other _ _ _ _ (by simp only [F.CL_FENCE_HI]; omega), State.get_set_other _ _ _ _ (by simp only [F.CL_FENCE_LO, F.CL_FENCE_HI]; omega)]

theorem fence_lt (s : State) (f : Nat) : s.fence f < 2 ^ 64 := by
  have a := get_lt s (F.CL_FENCE_LO f)
  have b := get_lt s (F.CL_FENCE_HI f)
  unfold State.fence State.get64
  simp only [F.CL_FENCE_LO, F.CL_FENCE_HI] at *
  omega

theorem stale_fence (s : State) (g : Nat) (hg : g < 4096) : (s.incSat F.CL_FENCE_STALE).fence g = s.fence g := by
  unfold State.incSat State.addSat State.fence State.get64
  rw [State.get_set_other _ _ _ _ (by simp only [F.CL_FENCE_LO, F.CL_FENCE_STALE]; omega), State.get_set_other _ _ _ _ (by simp only [F.CL_FENCE_HI, F.CL_FENCE_STALE]; omega)]

theorem latch_pop (s : State) (r c r' k : Nat) : (s.popCapture r c).captureLatch r' k = (assocGet (16 * r' + k) (assocPut (16 * r + c) (s.oldestCapture c) s.io.capLatch)).getD none := by
  unfold State.popCapture
  dsimp only
  split <;> rfl

/-! Thyme and Morton codes. -/

theorem delta_eq (t : Triple) (c : Nat) (h1 : t.anchor ≤ c) (h2 : c < t.anchor + 2 ^ 63) : t.delta c = (c : Int) - t.anchor := by
  unfold Triple.delta signedOf patternOf
  dsimp only
  split <;> omega

theorem sp_succ (n x y z : Nat) : spread3 (n + 1) x + 2 * spread3 (n + 1) y + 4 * spread3 (n + 1) z =
    (x % 2 + 2 * (y % 2) + 4 * (z % 2)) + 8 * (spread3 n (x / 2) + 2 * spread3 n (y / 2) + 4 * spread3 n (z / 2)) := by
  simp only [spread3]; ring

theorem sp_lt (n x y z : Nat) : spread3 n x + 2 * spread3 n y + 4 * spread3 n z < 8 ^ n := by
  induction n generalizing x y z with
  | zero => simp [spread3]
  | succ n ih => rw [sp_succ, pow_succ]; have := ih (x / 2) (y / 2) (z / 2); omega

theorem bit8 (a b k : Nat) (h : a < 8) : bitOf (a + 8 * b) (k + 3) = bitOf b k := by
  unfold bitOf
  rw [pow_add, mul_comm (2 ^ k), ← Nat.div_div_eq_div_mul]
  have : (a + 8 * b) / 2 ^ 3 = b := by norm_num; omega
  rw [this]

theorem half_bit (x i : Nat) : bitOf (x / 2) i = bitOf x (i + 1) := by
  unfold bitOf; rw [pow_succ, mul_comm (2 ^ i), ← Nat.div_div_eq_div_mul]

theorem sp_bits (n : Nat) : ∀ (i x y z h : Nat), i < n →
    bitOf (spread3 n x + 2 * spread3 n y + 4 * spread3 n z + 8 ^ n * h) (3 * i) = bitOf x i ∧
    bitOf (spread3 n x + 2 * spread3 n y + 4 * spread3 n z + 8 ^ n * h) (3 * i + 1) = bitOf y i ∧
    bitOf (spread3 n x + 2 * spread3 n y + 4 * spread3 n z + 8 ^ n * h) (3 * i + 2) = bitOf z i := by
  induction n with
  | zero => intro i x y z h hi; omega
  | succ n ih =>
    intro i x y z h hi
    have e : spread3 (n + 1) x + 2 * spread3 (n + 1) y + 4 * spread3 (n + 1) z + 8 ^ (n + 1) * h =
        (x % 2 + 2 * (y % 2) + 4 * (z % 2)) + 8 * (spread3 n (x / 2) + 2 * spread3 n (y / 2) + 4 * spread3 n (z / 2) + 8 ^ n * h) := by
      rw [sp_succ, pow_succ]; ring
    rw [e]
    cases i with
    | zero =>
      generalize spread3 n (x / 2) + 2 * spread3 n (y / 2) + 4 * spread3 n (z / 2) + 8 ^ n * h = m
      unfold bitOf
      norm_num
      refine ⟨?_, ?_, ?_⟩ <;> omega
    | succ i =>
      have hlt : x % 2 + 2 * (y % 2) + 4 * (z % 2) < 8 := by omega
      obtain ⟨k1, k2, k3⟩ := ih i (x / 2) (y / 2) (z / 2) h (by omega)
      rw [show 3 * (i + 1) = 3 * i + 3 by ring, show 3 * i + 3 + 1 = (3 * i + 1) + 3 by ring, show 3 * i + 3 + 2 = (3 * i + 2) + 3 by ring, bit8 _ _ _ hlt, bit8 _ _ _ hlt, bit8 _ _ _ hlt, k1, k2, k3,
        half_bit, half_bit, half_bit]
      exact ⟨rfl, rfl, rfl⟩

theorem zone_le (s : State) (v : List Nat) : s.zoneOf v ≤ 1 := by unfold State.zoneOf; split <;> omega

end Sys2Proof.Laws
end

