-- ==== Sys2Proof/Laws/Light.lean ====
section
/-! SUPPORT. What the operations under Thyme, the event controller, the control outputs, Marjoram, the tiles and the host port's reads leave unchanged: one frame lemma each. -/

namespace Sys2Proof.Laws

open Sys2Proof.Machine

/-! Common steps. -/

theorem ran_light (s u : State) {bs : List Nat} (h : s.light u bs) : ∃ t, ran u = .next t ∧ s.light t bs :=
  ⟨_, rfl, State.light_trans h (u.light_drive bs)⟩

theorem ran_changes (s u : State) {bs : List Nat} (h : s.changesOnly u bs) : ∃ t, ran u = .next t ∧ s.changesOnly t bs :=
  ⟨_, rfl, State.changesOnly_trans h (u.changesOnly_drive bs)⟩

theorem elapse_light (s u : State) (dt : Nat) {bs : List Nat} (h : (s.elapse dt).light u bs) : ∃ t, ran u = .next t ∧ s.light t bs :=
  ran_light s u (State.light_trans (s.light_elapse dt bs) h)

theorem elapse_changes (s u : State) (dt : Nat) {bs : List Nat} (h : (s.elapse dt).changesOnly u bs) : ∃ t, ran u = .next t ∧ s.changesOnly t bs :=
  ran_changes s u (State.changesOnly_trans (s.changesOnly_elapse dt bs) h)

theorem ite_light (s a b : State) (c : Prop) [Decidable c] {bs : List Nat} (h : s.light a bs) (k : s.light b bs) : s.light (if c then a else b) bs := by split <;> assumption

/-! Event commands. -/

theorem complete_light (s : State) {src : Nat} (h : src < 1024) {bs : List Nat} (hc : 0xC ∈ bs) : s.light (s.completeSource src) bs := by
  have a1 : (F.EV_S_STAT_DELIV src).addr / 0x10000 = 0xC := by simp only [F.EV_S_STAT_DELIV]; omega
  have a2 : (F.EV_S_STAT_COUNT src).addr / 0x10000 = 0xC := by simp only [F.EV_S_STAT_COUNT]; omega
  unfold State.completeSource
  have l1 : s.light (s.incSat (F.EV_S_STAT_DELIV src)) bs := s.light_set _ _ (a1 ▸ hc)
  refine State.light_trans l1 ?_
  clear l1
  dsimp only
  generalize s.incSat (F.EV_S_STAT_DELIV src) = t
  split
  · exact State.light_trans (t.light_set _ _ (a2 ▸ hc)) (State.light_evSetState _ _ h hc)
  · split
    · exact t.light_evSetState _ h hc
    · exact t.light_evSetState _ h hc

theorem level_light (s : State) {c : Nat} (h : c < 8) {bs : List Nat} (hc : 0xC ∈ bs) : s.light (s.showLevel c) bs := by
  have a1 : (F.EV_C_LEVEL_GROUP c).addr / 0x10000 = 0xC := by simp only [F.EV_C_LEVEL_GROUP]; omega
  have a2 : (F.EV_C_LEVEL_IDLE c).addr / 0x10000 = 0xC := by simp only [F.EV_C_LEVEL_IDLE]; omega
  have a3 : (F.EV_C_LEVEL_DEPTH c).addr / 0x10000 = 0xC := by simp only [F.EV_C_LEVEL_DEPTH]; omega
  unfold State.showLevel
  exact State.light_trans (State.light_trans (s.light_set _ _ (a1 ▸ hc)) (State.light_set _ _ _ (a2 ▸ hc))) (State.light_set _ _ _ (a3 ▸ hc))

theorem completeOn_light (s : State) (own : Bool) {t src : Nat} (h : t < 8) (k : src < 1024) {bs : List Nat} (hc : 0xC ∈ bs) : s.light (s.completeOn own t src) bs := by
  have a1 : (F.EV_C_COMPLETE_BAD t).addr / 0x10000 = 0xC := by simp only [F.EV_C_COMPLETE_BAD]; omega
  unfold State.completeOn
  split
  · split
    · refine State.light_trans (State.light_trans ?_ (complete_light _ k hc)) (level_light _ h hc)
      exact State.light_of_eq rfl rfl
    · exact s.light_set _ _ (a1 ▸ hc)
  · exact s.light_set _ _ (a1 ▸ hc)

theorem markLate_light (s : State) (who w m n : Nat) (bs : List Nat) : s.light (s.markLate who w m n) bs := by
  induction n with
  | zero => exact s.light_refl bs
  | succ n ih =>
    unfold State.markLate
    refine State.light_trans ih ?_
    dsimp only
    generalize s.markLate who w m n = t
    split
    · split
      · exact State.light_of_eq rfl rfl
      · exact t.light_refl bs
    · exact t.light_refl bs

/-! Thyme. -/

theorem at1 (s : State) (f : Field) (n : Nat) {bs : List Nat} (h1 : 1 ∈ bs) (e : f.addr / 0x10000 = 1 := by decide) : s.light (s.set f n) bs := s.light_set f n (e ▸ h1)

theorem at1w (s : State) (f g : Field) (n : Nat) {bs : List Nat} (h1 : 1 ∈ bs) (e : f.addr / 0x10000 = 1 := by decide) (e' : g.addr / 0x10000 = 1 := by decide) : s.light (s.set64 f g n) bs :=
  s.light_set64 f g n (e ▸ h1) (e' ▸ h1)

theorem refreshTq_light (s : State) {bs : List Nat} (h1 : 1 ∈ bs) (hc : 0xC ∈ bs) : s.light s.refreshTq bs := by
  unfold State.refreshTq
  dsimp only
  split
  · exact s.light_refl bs
  · exact State.light_trans (at1 s F.TB_STATUS_TQ _ h1) (State.light_raise _ (by norm_num) hc)

theorem stepLog_light (s : State) (time : Nat) (step : Int) (j k n : Nat) {bs : List Nat} (h1 : 1 ∈ bs) : s.light (s.stepLog time step j k n) bs :=
  s.light_ringPut _ _ _ _ _ _ (b := 1) h1 (by decide) (by decide) (by decide)

theorem endRun_light (s : State) {bs : List Nat} (h1 : 1 ∈ bs) : s.light s.endRun bs :=
  State.light_trans (State.light_trans (at1 s F.TB_JUMP_REFUSED_PENDING 0 h1) (at1 _ F.TB_STATUS_CONSIST 0 h1)) (State.light_setThy _ _ _)

theorem fixDevWm_light (s : State) {n : Nat} (h : n < 48) {bs : List Nat} (h3 : 3 ∈ bs) : s.light (s.fixDevWm n) bs := by
  unfold State.fixDevWm
  split
  · dsimp only
    split
    · exact s.light_set64 _ _ _ (by simp only [F.FU_WM_LO]; rw [show (0x32000 + 64 * n) / 0x10000 = 3 by omega]; exact h3) (by simp only [F.FU_WM_HI]; rw [show (0x32004 + 64 * n) / 0x10000 = 3 by omega]; exact h3)
    · exact s.light_refl bs
  · exact s.light_refl bs

theorem shiftModels_light (s : State) (m : Int) (n : Nat) (h : n ≤ 48) {bs : List Nat} (h1 : 1 ∈ bs) : s.light (s.shiftModels m n) bs := by
  induction n with
  | zero => exact s.light_refl bs
  | succ n ih =>
    unfold State.shiftModels
    exact State.light_trans (ih (by omega)) (State.light_set64 _ _ _ _ (by simp only [F.TB_SM_OFS_LO]; rw [show (0x11000 + 32 * n) / 0x10000 = 1 by omega]; exact h1) (by simp only [F.TB_SM_OFS_HI]; rw [show (0x11004 + 32 * n) / 0x10000 = 1 by omega]; exact h1))

theorem refuseRate_light (s : State) {bs : List Nat} (h1 : 1 ∈ bs) : s.light s.refuseRate bs := by
  unfold State.refuseRate
  split
  · exact State.light_trans (State.light_trans (at1 s F.TB_COMMIT_STATUS_CODE _ h1) (at1 _ F.TB_COMMIT_STATUS_COUNT _ h1)) (State.light_setThy _ _ _)
  · exact s.light_refl bs

theorem stepCommit_light (s : State) (m : Int) (k : Nat) {bs : List Nat} (h1 : 1 ∈ bs) (h3 : 3 ∈ bs) (hc : 0xC ∈ bs) : s.light (s.stepCommit m k) bs := by
  have l0 : s.light ((List.range 48).foldl State.fixDevWm s) bs := State.light_foldl _ _ (fun s x hx => fixDevWm_light s (by simpa using hx) h3) s
  have l1 : s.light ((List.range 48).foldl State.fixDevWm s).refuseRate bs := State.light_trans l0 (refuseRate_light _ h1)
  unfold State.stepCommit
  generalize ((List.range 48).foldl State.fixDevWm s).refuseRate = t at *
  refine State.light_trans l1 ?_
  refine State.light_trans ?_ (State.light_raise _ (by norm_num) hc)
  refine State.light_trans ?_ (endRun_light _ h1)
  refine State.light_trans ?_ (shiftModels_light _ _ _ (le_refl _) h1)
  refine State.light_trans ?_ (State.light_setThy _ _ _)
  refine State.light_trans ?_ (State.light_setThy _ _ _)
  exact stepLog_light _ _ _ _ _ _ h1

theorem enterLocked_light (s : State) {bs : List Nat} (h1 : 1 ∈ bs) : s.light s.enterLocked bs := State.light_trans (at1 s F.TB_STATUS_LOCKED_ONCE 1 h1) (State.light_setThy _ _ _)

theorem countMeas_light (s : State) (q : TqState) (n : Nat) (m : Int) {bs : List Nat} (h1 : 1 ∈ bs) : s.light (s.countMeas q n m) bs := by
  unfold State.countMeas
  split
  · split
    · exact enterLocked_light s h1
    · exact s.light_setThy _ _
  · exact s.light_setThy _ _

theorem discardRun_light (s : State) {bs : List Nat} (h1 : 1 ∈ bs) : s.light s.discardRun bs := by
  unfold State.discardRun
  split
  · exact State.light_trans (stepLog_light _ _ _ _ _ _ h1) (endRun_light _ h1)
  · exact s.light_refl bs

theorem beginRun_light (s : State) (m : Int) {bs : List Nat} (h1 : 1 ∈ bs) (hc : 0xC ∈ bs) : s.light (s.beginRun m) bs := by
  unfold State.beginRun
  dsimp only
  refine State.light_trans ?_ (State.light_raise _ (by norm_num) hc)
  refine State.light_trans ?_ (State.light_setThy _ _ _)
  refine State.light_trans ?_ (at1 _ F.TB_STATUS_CONSIST 1 h1)
  refine State.light_trans ?_ (at1w _ F.TB_JUMP_SIZE_LO F.TB_JUMP_SIZE_HI _ h1)
  refine State.light_trans ?_ (at1 _ F.TB_JUMP_REFUSED_STICKY 1 h1)
  refine State.light_trans ?_ (at1 _ F.TB_JUMP_REFUSED_PENDING 1 h1)
  exact at1 s F.TB_JUMP_REFUSED_JUMP_ID _ h1

theorem extendRun_light (s : State) (m : Int) {bs : List Nat} (h1 : 1 ∈ bs) : s.light (s.extendRun m) bs := by
  unfold State.extendRun
  dsimp only
  refine State.light_trans ?_ (State.light_setThy _ _ _)
  exact State.light_trans (at1w s F.TB_JUMP_SIZE_LO F.TB_JUMP_SIZE_HI _ h1) (at1 _ F.TB_STATUS_CONSIST _ h1)

theorem tryAccept_light (s : State) (m : Int) {bs : List Nat} (h1 : 1 ∈ bs) (h3 : 3 ∈ bs) (hc : 0xC ∈ bs) : s.light (s.tryAccept m) bs := by
  unfold State.tryAccept
  split
  · exact State.light_trans (stepCommit_light _ _ _ h1 h3 hc) (enterLocked_light _ h1)
  · exact State.light_refl _ _

theorem jump_light (s : State) (m : Int) {bs : List Nat} (h1 : 1 ∈ bs) (h3 : 3 ∈ bs) (hc : 0xC ∈ bs) : s.light (s.jump m) bs :=
  State.light_trans (ite_light s _ _ _ (extendRun_light s m h1) (beginRun_light s m h1 hc)) (tryAccept_light _ m h1 h3 hc)

theorem judge_light (s : State) (m : Int) {bs : List Nat} (h1 : 1 ∈ bs) (h3 : 3 ∈ bs) (hc : 0xC ∈ bs) : s.light (s.judgeMeas m) bs := by
  have hj := jump_light s m h1 h3 hc
  unfold State.judgeMeas
  dsimp only
  split
  · split
    · exact State.light_trans (stepCommit_light _ _ _ h1 h3 hc) (State.light_setThy _ _ _)
    · split
      · exact countMeas_light _ _ _ _ h1
      · exact hj
  · split
    · exact countMeas_light _ _ _ _ h1
    · exact hj
  · split
    · exact s.light_refl bs
    · exact hj
  · split
    · exact countMeas_light _ _ _ _ h1
    · exact hj
  · split
    · refine State.light_trans (discardRun_light s h1) ?_
      split
      · exact State.light_setThy _ _ _
      · exact countMeas_light _ _ _ _ h1
    · exact hj

theorem measure_light (s : State) (m : Int) {bs : List Nat} (h1 : 1 ∈ bs) (h3 : 3 ∈ bs) (hc : 0xC ∈ bs) : s.light (s.measure m) bs := by
  unfold State.measure
  dsimp only
  refine State.light_trans ?_ (refreshTq_light _ h1 hc)
  refine State.light_trans ?_ (State.light_setThy _ _ _)
  refine State.light_trans ?_ (judge_light _ m h1 h3 hc)
  exact ite_light _ _ _ _ (State.light_setThy _ _ _) (State.light_refl _ _)

theorem raise_thy (s : State) (src : Nat) : (s.raise src).thy = s.thy := by
  have h : ∀ (t : State) (n : Nat), (t.evSetState src n).thy = t.thy := fun _ _ => rfl
  have k : ∀ t : State, (t.evCountState src).thy = t.thy := fun _ => rfl
  unfold State.raise
  split
  · dsimp only
    split <;> (first | rw [k] | rw [h] | skip) <;> split <;> rfl
  · rfl

theorem refreshTq_now (s : State) : s.refreshTq.now = s.now := by
  have e : s.refreshTq.thy = s.thy := by
    unfold State.refreshTq
    dsimp only
    split
    · rfl
    · rw [raise_thy]; rfl
  unfold State.now; rw [e]

theorem measure_within (s : State) (m : Int) (h1 : s.flag F.TB_STATUS_STARTED = true) (h2 : m.natAbs ≤ s.get F.TB_JUMP_NS) :
    (s.judgeMeas m).now = s.now ∧ ∀ {bs : List Nat}, 1 ∈ bs → s.light (s.judgeMeas m) bs := by
  have c : ∀ (t : State) (q : TqState) (n : Nat), (t.countMeas q n m).now = t.now := by
    intro t q n
    unfold State.countMeas
    split
    · split
      · rfl
      · rfl
    · rfl
  have d : s.discardRun.now = s.now := by
    unfold State.discardRun
    split
    · unfold State.now State.endRun State.stepLog State.ringPut
      have w : ∀ (l : List Nat) (t : State) (a : Nat), (t.writeWords a l).thy = t.thy := by
        intro l
        induction l with
        | nil => intro t a; rfl
        | cons x xs ih => intro t a; rw [State.writeWords, ih]; rfl
      have : ∀ t : State, t.thy = s.thy → (((t.set F.TB_JUMP_REFUSED_PENDING 0).set F.TB_STATUS_CONSIST 0).setThy (fun t => { t with run := none, arm := none })).thy.triple = s.thy.triple ∧
          (((t.set F.TB_JUMP_REFUSED_PENDING 0).set F.TB_STATUS_CONSIST 0).setThy (fun t => { t with run := none, arm := none })).thy.counter = s.thy.counter := by
        intro t ht
        exact ⟨(show _ = t.thy.triple from rfl).trans (congrArg ThyState.triple ht), (show _ = t.thy.counter from rfl).trans (congrArg ThyState.counter ht)⟩
      generalize hl : wordsOf 8 _ = l
      obtain ⟨a1, a2⟩ := this ((((s.writeWords ((F.TB_STEP_LOG 0).addr + 4 * 8 * s.get F.TB_STEP_IDX_NEXT) l).set F.TB_STEP_IDX_NEXT ((s.get F.TB_STEP_IDX_NEXT + 1) % 8)).incWrap F.TB_STEP_IDX_TOTAL)) (w _ _ _)
      rw [a1, a2]
    · rfl
  have b : decide (m.natAbs ≤ s.get F.TB_JUMP_NS) = true := by simpa using h2
  unfold State.judgeMeas
  simp only [b, if_true, h1, Bool.not_true, Bool.false_eq_true, if_false]
  cases s.thy.tq <;> dsimp only
  · exact ⟨c _ _ _, fun h => countMeas_light _ _ _ _ h⟩
  · exact ⟨c _ _ _, fun h => countMeas_light _ _ _ _ h⟩
  · exact ⟨rfl, fun h => State.light_refl _ _⟩
  · exact ⟨c _ _ _, fun h => countMeas_light _ _ _ _ h⟩
  · split
    · exact ⟨d, fun h => State.light_trans (discardRun_light s h) (State.light_setThy _ _ _)⟩
    · exact ⟨(c _ _ _).trans d, fun h => State.light_trans (discardRun_light s h) (countMeas_light _ _ _ _ h)⟩

theorem measure_now (s : State) (m : Int) (h1 : s.flag F.TB_STATUS_STARTED = true) (h2 : m.natAbs ≤ s.get F.TB_JUMP_NS) : (s.measure m).now = s.now := by
  unfold State.measure
  dsimp only
  rw [if_pos h2, refreshTq_now]
  exact (measure_within (s.setThy (fun t => { t with holdFrom := some t.counter })) m h1 h2).1

theorem measure_within_light (s : State) (m : Int) (h1 : s.flag F.TB_STATUS_STARTED = true) (h2 : m.natAbs ≤ s.get F.TB_JUMP_NS) {bs : List Nat} (k1 : 1 ∈ bs) (hc : 0xC ∈ bs) : s.light (s.measure m) bs := by
  unfold State.measure
  dsimp only
  rw [if_pos h2]
  refine State.light_trans ?_ (refreshTq_light _ k1 hc)
  refine State.light_trans ?_ (State.light_setThy _ _ _)
  exact State.light_trans (State.light_setThy s (fun t => { t with holdFrom := some t.counter }) bs) ((measure_within (s.setThy (fun t => { t with holdFrom := some t.counter })) m h1 h2).2 k1)

theorem timeout_light (s : State) {bs : List Nat} (h1 : 1 ∈ bs) (hc : 0xC ∈ bs) : s.light s.measTimeout bs := by
  unfold State.measTimeout
  dsimp only
  refine State.light_trans ?_ (refreshTq_light _ h1 hc)
  refine State.light_trans ?_ (State.light_raise _ (by norm_num) hc)
  refine State.light_trans ?_ (State.light_setThy _ _ _)
  split
  · exact s.light_refl bs
  · exact s.light_setThy _ _
  · exact s.light_setThy _ _
  · exact s.light_setThy _ _
  · exact State.light_trans (discardRun_light s h1) (State.light_setThy _ _ _)

/-! Control outputs, captures and reads. -/

theorem co_ite (s a b : State) (c : Prop) [Decidable c] {bs : List Nat} (h : s.changesOnly a bs) (k : s.changesOnly b bs) : s.changesOnly (if c then a else b) bs := by split <;> assumption

theorem co_at (s : State) (f : Field) (n b : Nat) {bs : List Nat} (h : b ∈ bs) (e : f.addr / 0x10000 = b) : s.changesOnly (s.set f n) bs := s.changesOnly_set f n (e ▸ h)

theorem co_io (s : State) (f : IoState → IoState) (bs : List Nat) : s.changesOnly (s.setIo f) bs := State.changesOnly_of_eq rfl rfl rfl rfl

theorem co_mj (s : State) (f : MjState → MjState) (bs : List Nat) : s.changesOnly (s.setMj f) bs := State.changesOnly_of_eq rfl rfl rfl rfl

theorem co_tl (s : State) (f : TlState → TlState) (bs : List Nat) : s.changesOnly (s.setTl f) bs := State.changesOnly_of_eq rfl rfl rfl rfl

theorem applyTick_co (s : State) {w : Nat} (h : w < 12) (j : Nat) {bs : List Nat} (h1 : 0x14 ∈ bs) : s.changesOnly (s.applyTick w j) bs := by
  unfold State.applyTick
  dsimp only
  refine State.changesOnly_trans (co_io s (fun x => { x with due := setAt x.due w (j + 1), duties := x.duties.filter (fun d => d.1 != w || decide (j < d.2.1)) }) bs) ?_
  split
  · exact co_ite _ _ _ _ (State.changesOnly_refl _ _) (co_at _ _ _ 0x14 h1 (by simp only [F.IO_PWM_DUTY]; omega))
  · exact co_at _ _ _ 0x14 h1 (by simp only [F.IO_PWM_STAT_LATE]; omega)

theorem applyTicks_co (s : State) {w : Nat} (h : w < 12) (n : Nat) {bs : List Nat} (h1 : 0x14 ∈ bs) : s.changesOnly (s.applyTicks w n) bs := by
  induction n generalizing s with
  | zero => exact s.changesOnly_refl bs
  | succ n ih =>
    unfold State.applyTicks
    split
    · split
      · exact State.changesOnly_trans (applyTick_co s h _ h1) (ih _)
      · exact s.changesOnly_refl bs
    · exact s.changesOnly_refl bs

theorem pulse_co (s : State) {o : Nat} (h : o < 16) (t : Nat) {bs : List Nat} (h1 : 0x14 ∈ bs) : s.changesOnly (s.firePulse o t) bs := by
  unfold State.firePulse
  split
  · exact s.changesOnly_refl bs
  · dsimp only
    refine State.changesOnly_trans ?_ (co_io _ _ _)
    split
    · split
      · exact co_at _ _ _ 0x14 h1 (by simp only [F.IO_TRG_STAT_OVERLAP]; omega)
      · exact s.changesOnly_refl bs
    · simp only [Bool.false_eq_true, if_false]
      exact s.changesOnly_refl bs

theorem fireTime_co (s : State) {o : Nat} (h : o < 16) (t : Nat) (late : Bool) {bs : List Nat} (h1 : 0x14 ∈ bs) : s.changesOnly (s.fireTime o t late) bs := by
  have a1 : (F.IO_TRG_STAT_LATE o).addr / 0x10000 = 0x14 := by simp only [F.IO_TRG_STAT_LATE]; omega
  have a2 : (F.IO_TRG_STAT_SKIPPED o).addr / 0x10000 = 0x14 := by simp only [F.IO_TRG_STAT_SKIPPED]; omega
  unfold State.fireTime
  dsimp only
  refine State.changesOnly_trans ?_ (pulse_co _ h t h1)
  have l1 : s.changesOnly (if late = true then s.incSat (F.IO_TRG_STAT_LATE o) else s) bs := co_ite _ _ _ _ (co_at _ _ _ _ h1 a1) (s.changesOnly_refl bs)
  generalize (if late = true then s.incSat (F.IO_TRG_STAT_LATE o) else s) = x at *
  exact State.changesOnly_trans l1 (co_ite _ _ _ _ (co_at _ _ _ _ h1 a2) (x.changesOnly_refl bs))

theorem fireTrigger_co (s : State) {o : Nat} (h : o < 16) {bs : List Nat} (h1 : 0x14 ∈ bs) : s.changesOnly (s.fireTrigger o) bs := by
  unfold State.fireTrigger
  split
  · split
    · exact co_ite _ _ _ _ (State.changesOnly_trans (co_io _ _ _) (fireTime_co _ h _ _ h1)) (s.changesOnly_refl bs)
    · exact s.changesOnly_refl bs
  · split
    · refine State.changesOnly_trans ?_ (fireTime_co _ h _ _ h1)
      exact State.changesOnly_trans (co_io _ _ _) (co_at _ _ _ 0x14 h1 (by simp only [F.IO_TRG_STAT_QUEUED]; omega))
    · exact s.changesOnly_refl bs

theorem pushTrigger_co (s : State) {o : Nat} (h : o < 16) (t : Nat) {bs : List Nat} (h1 : 0x14 ∈ bs) : s.changesOnly (s.pushTrigger o t) bs := by
  unfold State.pushTrigger
  split
  · exact co_at _ _ _ 0x14 h1 (by simp only [F.IO_TRG_STAT_QFULL]; omega)
  · dsimp only
    refine State.changesOnly_trans ?_ (co_at _ _ _ 0x14 h1 (by simp only [F.IO_TRG_STAT_QUEUED]; omega))
    exact State.changesOnly_of_eq rfl rfl rfl rfl

theorem readReturn_co (s : State) (r : Requester) (w : Word) {bs : List Nat} (h : 0x11 ∈ bs) : s.changesOnly (s.readReturn r w) bs := (s.light_readReturn r w h).1

theorem readGate_co (s : State) (r : Requester) (a : Nat) (f : State → State) {bs : List Nat} (h : 0x11 ∈ bs) (hc : 0xC ∈ bs) (k : s.changesOnly (f s) bs) : s.changesOnly (s.readGate r a f) bs := by
  unfold State.readGate
  split
  · split
    · exact s.changesOnly_refl bs
    · split
      · exact (s.light_hostUnpowered _ _ _ h hc).1
      · exact k
  · exact co_ite _ _ _ _ k (s.changesOnly_refl bs)

theorem coreWrite_co (s : State) (c a : Nat) (v : Word) (f : State → State) {bs : List Nat} (h : 0x11 ∈ bs) (hf : 0xF ∈ bs) (hc : 0xC ∈ bs) (k : s.changesOnly (f s) bs) :
    s.changesOnly (s.coreWrite c a v f) bs := by
  unfold State.coreWrite
  split
  · split
    · exact k
    · exact (s.light_refuseWrite _ _ h hf hc).1
  · exact s.changesOnly_refl bs

theorem popCapture_co (s : State) (r : Nat) {c : Nat} (h : c < 16) {bs : List Nat} (h1 : 0x14 ∈ bs) : s.changesOnly (s.popCapture r c) bs := by
  unfold State.popCapture
  dsimp only
  apply co_ite
  · exact State.changesOnly_of_eq rfl rfl rfl rfl
  · refine State.changesOnly_trans ?_ (co_at _ _ _ 0x14 h1 (by simp only [F.IO_CAP_STAT_FILL]; omega))
    exact State.changesOnly_of_eq rfl rfl rfl rfl

/-! Marjoram, tiles and the host port. -/

theorem raise_co (s : State) {src : Nat} (h : src < 1024) {bs : List Nat} (hc : 0xC ∈ bs) : s.changesOnly (s.raise src) bs := s.changesOnly_raise h hc

theorem sensorBad_co (s : State) {i : Nat} (h : i < 64) (t : Int) {bs : List Nat} (hb : 0xB ∈ bs) (hc : 0xC ∈ bs) (hd : 0xD ∈ bs) : s.changesOnly (s.sensorBad i t) bs := by
  unfold State.sensorBad
  dsimp only
  refine State.changesOnly_trans (co_at s (F.MJ_SENSOR_TEMP i) (s.get (F.MJ_ZONE_LIMIT (zoneOfSensor i))) 0xB hb (by simp only [F.MJ_SENSOR_TEMP]; omega)) ?_
  generalize s.set (F.MJ_SENSOR_TEMP i) (s.get (F.MJ_ZONE_LIMIT (zoneOfSensor i))) = x
  split
  · exact x.changesOnly_refl bs
  · refine State.changesOnly_trans ?_ (State.changesOnly_raise _ (by norm_num) hc)
    refine State.changesOnly_trans ?_ (State.changesOnly_safetyLog _ _ hd hc)
    refine State.changesOnly_trans ?_ (State.changesOnly_raise _ (by norm_num) hc)
    refine State.changesOnly_trans ?_ (co_at _ F.MJ_SENSOR_BAD _ 0xB hb (by decide))
    exact co_at _ _ _ 0xB hb (by simp only [F.MJ_SENSOR_BAD_FLD]; omega)

theorem showTemp_co (s : State) (f : Field) (t : Int) {bs : List Nat} (h : f.addr / 0x10000 ∈ bs) : s.changesOnly (s.showTemp f t) bs := by
  unfold State.showTemp
  exact co_ite _ _ _ _ (s.changesOnly_set _ _ h) (s.changesOnly_set _ _ h)

theorem co_foldl {α : Type} (f : State → α → State) {bs : List Nat} (l : List α) (h : ∀ s : State, ∀ x ∈ l, s.changesOnly (f s x) bs) (s : State) : s.changesOnly (l.foldl f s) bs := by
  induction l generalizing s with
  | nil => exact s.changesOnly_refl bs
  | cons x xs ih => exact State.changesOnly_trans (h s x (by simp)) (ih (fun s y hy => h s y (by simp [hy])) (f s x))

theorem refreshZones_co (s : State) {bs : List Nat} (hb : 0xB ∈ bs) : s.changesOnly s.refreshZones bs := by
  unfold State.refreshZones
  have l1 := co_foldl (fun s z => s.showTemp (F.MJ_ZONE_TEMP z) (s.zoneTemp z)) (bs := bs) (List.range 12) (fun s z hz => showTemp_co s _ _ (by
    have : z < 12 := by simpa using hz
    have e : (F.MJ_ZONE_TEMP z).addr / 0x10000 = 0xB := by simp only [F.MJ_ZONE_TEMP]; omega
    rw [e]; exact hb)) s
  exact State.changesOnly_trans l1 (co_at _ F.MJ_STATUS_NOROOM _ 0xB hb (by decide))

theorem sample_co (s : State) {i : Nat} (h : i < 64) (t : Option Int) {bs : List Nat} (hb : 0xB ∈ bs) (hc : 0xC ∈ bs) (hd : 0xD ∈ bs) : s.changesOnly (s.sampleSensor i t) bs := by
  have e1 : (F.MJ_SENSOR_BAD_FLD i).addr / 0x10000 = 0xB := by simp only [F.MJ_SENSOR_BAD_FLD]; omega
  have e2 : (F.MJ_SENSOR_TEMP i).addr / 0x10000 = 0xB := by simp only [F.MJ_SENSOR_TEMP]; omega
  unfold State.sampleSensor
  split
  · exact s.changesOnly_refl bs
  · dsimp only
    refine State.changesOnly_trans (co_mj s (fun m => { m with sampled := setAt m.sampled i s.now }) bs) ?_
    apply co_ite
    · refine State.changesOnly_trans ?_ (showTemp_co _ _ _ (e2 ▸ hb))
      exact State.changesOnly_trans (co_mj _ _ _) (co_at _ _ _ 0xB hb e1)
    · exact sensorBad_co _ h _ hb hc hd

theorem retarget_co (s : State) (l : Nat) (bs : List Nat) : s.changesOnly (s.retarget l) bs := by
  unfold State.retarget
  dsimp only
  split
  · exact State.changesOnly_of_eq rfl rfl rfl rfl
  · split
    · exact s.changesOnly_refl bs
    · exact State.changesOnly_of_eq rfl rfl rfl rfl

theorem remap_co (s : State) {v : Nat} (h : v < 144) (l r : Nat) {bs : List Nat} (h5 : 5 ∈ bs) (hc : 0xC ∈ bs) : s.changesOnly (s.remapRow v l r) bs := by
  have e1 : (F.TL_VAULT_REPAIR_DONE v).addr / 0x10000 = 5 := by simp only [F.TL_VAULT_REPAIR_DONE]; omega
  have e2 : (F.TL_VAULT_REPAIR_LEFT v).addr / 0x10000 = 5 := by simp only [F.TL_VAULT_REPAIR_LEFT]; omega
  have e3 : (F.TL_VAULT_REPAIR_DENIED v).addr / 0x10000 = 5 := by simp only [F.TL_VAULT_REPAIR_DENIED]; omega
  unfold State.remapRow
  dsimp only
  apply co_ite
  · refine State.changesOnly_trans ?_ (State.changesOnly_raise _ (by norm_num) hc)
    refine State.changesOnly_trans ?_ (co_at _ _ _ 5 h5 e2)
    exact State.changesOnly_trans (co_tl _ _ _) (co_at _ _ _ 5 h5 e1)
  · exact State.changesOnly_trans (co_tl _ _ _) (co_at _ _ _ 5 h5 e3)

theorem keepFaulty_co (s : State) (src t a : Nat) (bs : List Nat) : s.changesOnly (s.keepFaulty src t a) bs := by
  unfold State.keepFaulty
  generalize (if (src == 2) = true then sramWord t a else dramWord a) = k
  dsimp only
  split
  · exact s.changesOnly_refl bs
  · exact State.changesOnly_of_eq rfl rfl rfl rfl

theorem recordUe_co (s : State) (c : Option Nat) (src t a : Nat) {bs : List Nat} (h5 : 5 ∈ bs) (hc : 0xC ∈ bs) (hd : 0xD ∈ bs) : s.changesOnly (s.recordUe c src t a) bs := by
  unfold State.recordUe
  dsimp only
  refine State.changesOnly_trans ?_ (State.changesOnly_raise _ (by norm_num) hc)
  refine State.changesOnly_trans ?_ (State.changesOnly_raise _ (by norm_num) hc)
  refine State.changesOnly_trans ?_ (State.changesOnly_safetyLog _ _ hd hc)
  refine State.changesOnly_trans ?_ (co_at _ F.TL_UE_COUNT _ 5 h5 (by decide))
  refine State.changesOnly_trans ?_ (co_at _ F.TL_UE_ADDR_HI _ 5 h5 (by decide))
  refine State.changesOnly_trans ?_ (co_at _ F.TL_UE_ADDR_LO _ 5 h5 (by decide))
  refine State.changesOnly_trans ?_ (co_at _ F.TL_UE_CTX_TILE _ 5 h5 (by decide))
  refine State.changesOnly_trans ?_ (co_at _ F.TL_UE_CTX_SRC _ 5 h5 (by decide))
  exact State.changesOnly_trans (State.changesOnly_trans (keepFaulty_co s src t a bs) (co_at _ F.TL_UE_CTX_CTX _ 5 h5 (by decide))) (co_at _ F.TL_UE_CTX_VALID_CTX _ 5 h5 (by decide))

theorem viol_light (s : State) (code : Nat) (d : Bytes) {bs : List Nat} (h : 0x11 ∈ bs) (hc : 0xC ∈ bs) : s.light (s.violation 0x13 code d) bs :=
  s.light_violation _ _ (by norm_num) (by exact h) hc

theorem claimPin_light (s : State) (h : Nat) {bs : List Nat} (hc : 0xC ∈ bs) : s.light (s.claimPin h) bs := by
  unfold State.claimPin
  split
  · rename_i src rest hs
    have hm : src ∈ s.pinSources h := by rw [hs]; simp
    have hlt : src < 1024 := by
      unfold State.pinSources at hm
      split at hm
      · cases hm
      · unfold State.ranked sortByKey at hm
        rw [mem_sort_aux] at hm
        rcases hm with hm | hm
        · simp at hm; exact hm.1
        · cases hm
    have e : (F.EV_S_STAT_COUNT src).addr / 0x10000 = 0xC := by simp only [F.EV_S_STAT_COUNT]; omega
    exact State.light_trans (ite_light s _ _ _ (s.light_refl bs) (s.light_set _ _ (e ▸ hc))) (complete_light _ hlt hc)
  · exact s.light_refl bs

theorem readEffect_co (s : State) (a : Nat) {bs : List Nat} (h1 : 0x14 ∈ bs) (hc : 0xC ∈ bs) : s.changesOnly (s.hostReadEffect a) bs := by
  unfold State.hostReadEffect
  split
  · exact State.changesOnly_of_eq rfl rfl rfl rfl
  · split
    · exact State.changesOnly_of_eq rfl rfl rfl rfl
    · split
      · exact (claimPin_light s _ hc).1
      · split
        · exact State.changesOnly_of_eq rfl rfl rfl rfl
        · split
          · rename_i h
            simp only [Machine.within, Bool.and_eq_true, decide_eq_true_eq] at h
            exact popCapture_co s _ (by omega) h1
          · exact s.changesOnly_refl bs

theorem hostWords_co (k : Nat) : ∀ (s : State) (a : Nat) {bs : List Nat}, 0x14 ∈ bs → 0xC ∈ bs → s.changesOnly (s.hostWords a k).1 bs := by
  induction k with
  | zero => intro s a bs _ _; exact s.changesOnly_refl bs
  | succ k ih =>
    intro s a bs h1 hc
    unfold State.hostWords
    exact State.changesOnly_trans (readEffect_co s a h1 hc) (ih _ _ h1 hc)

/-! Tarragon's program (R231). -/

theorem saturate_stepCount (s : State) (p v q : Nat) : (s.saturate p v).stepCount q = s.stepCount q := by
  have h : ∀ f : Field, 0x9800C ≤ f.addr ∧ f.addr % 64 = 0xC ∨ 0x91000 ≤ f.addr ∧ f.addr % 64 = 0 → (s.saturate p v).get f = s.get f := by
    intro f hf
    unfold State.saturate State.incSat State.addSat
    dsimp only
    rw [State.get_set_other _ _ _ _ (by simp only [F.SV_SAT_LAST_PROBLEM]; omega), State.get_set_other _ _ _ _ (by simp only [F.SV_SAT_LAST_VAR]; omega),
      State.get_set_other _ _ _ _ (by simp only [F.SV_P_SAT]; omega)]
    split
    · split
      · obtain ⟨d, e⟩ := s.dramWrite_eq (‹Desc›.base + 2 * (1024 * p + v % 1024)) (leBytes 2 (satNat 16 (s.dramNat (‹Desc›.base + 2 * (1024 * p + v % 1024)) 2 + 1)))
        rw [e]; rfl
      · rfl
    · rfl
  unfold State.stepCount
  rw [h _ (by simp only [F.SV_P_PROG_PRO]; omega), h _ (by simp only [F.SV_P_PROG_ITB]; omega), h _ (by simp only [F.SV_P_CFG_ITER]; omega), h _ (by simp only [F.SV_P_PROG_EPI]; omega)]

theorem stepCounts_stepCount (s : State) (p q : Nat) (k : SvTick) : (s.stepCounts p k).stepCount q = s.stepCount q := by
  have h : ∀ (l : List Nat) (s : State), (l.foldl (fun s v => s.saturate p v) s).stepCount q = s.stepCount q := by
    intro l
    induction l with
    | nil => intro s; rfl
    | cons v l ih => intro s; rw [List.foldl_cons, ih, saturate_stepCount]
  unfold State.stepCounts State.addSat
  dsimp only
  rw [← h (s.stepWork p k).2.1 s]
  unfold State.stepCount
  rw [State.get_set_other _ _ _ _ (by simp only [F.SV_P_PROG_PRO, F.SV_P_PIVFIX]; omega), State.get_set_other _ _ _ _ (by simp only [F.SV_P_PROG_ITB, F.SV_P_PIVFIX]; omega),
    State.get_set_other _ _ _ _ (by simp only [F.SV_P_CFG_ITER, F.SV_P_PIVFIX]; omega), State.get_set_other _ _ _ _ (by simp only [F.SV_P_PROG_EPI, F.SV_P_PIVFIX]; omega)]

end Sys2Proof.Laws
end

