-- ==== Sys2Proof/WellFormed.lean ====
section
/-! DEFINITION. Well-formed commands: operands that the hardware could meet. Every meaning is total, so that an ill-formed command has a next state too; the checks say which operands stand for something in the machine. -/

namespace Sys2Proof

/-- Bytes of a tile's SRAM: 3 MiB (R159). -/
def sramBytes : Nat := 3 * 2 ^ 20

/-- Bytes of a vault: 4 layers of 64 MiB (R161). -/
def vaultBytes : Nat := 2 ^ 28

/-- A place of the physical array: 13 columns, spares among them, of 12 rows (R147). -/
def onArray (p : Nat × Nat) : Bool := decide (p.1 < 13) && decide (p.2 < 12)

/-- BIST reports places of the array, and cell rows of a tile (R147, R148). -/
def bistWf (b : BistOutcome) : Bool :=
  b.failedTiles.all onArray && b.failedRouters.all onArray && b.failedCellRows.all (fun x => onArray (x.1, x.2.1)) && b.failedVaults.all onArray

/-- A start's circumstances are well formed when what BIST reports is. -/
def bootWf (b : BootInputs) : Bool := bistWf b.bist

/-- An uncorrectable error lies in the tile's SRAM, or in a vault (R163). -/
def ueWf (u : UeReport) : Bool := decide (u.addr < (if u.src.val == 2 then sramBytes else 2 ^ 40))

/-- A list command's uncorrectable error lies somewhere. -/
def qcmdWf (c : QCmd) : Bool := c.ue.all ueWf

/-- A CAN frame has no more data than its length code says (R65). -/
def canWf (f : CanFrame) : Bool := decide (f.data.length ≤ (if f.fdf then 64 else 8))

/-- Ports of the mesh: 0 to 143 the logical tiles, 144 to 156 the edge ports on the north edge and 157 to 169 those on the south edge, by physical column (R165, R167; their number and numbering PRESUMED, log entry 92). -/
def meshPorts : Nat := 170

/-- A mesh message goes from a port to a port (R167). -/
def meshWf (m : MeshMsg) : Bool := decide (m.src < meshPorts) && decide (m.dst < meshPorts)

/-- A window read's uncorrectable word lies among the bytes read (R380). -/
def metWf (n : Nat) (m : WindowMet) : Bool := m.ue.all (fun o => decide (o < n))

/-- A command is well formed. -/
def Instr.wf (i : Instr) : Bool :=
  match i with
  | .ethFrameReceive _ _ frame _ _ _ => decide (frame.length < 65536)
  | .canFrameReceive _ _ f => canWf f
  | .load _ c => qcmdWf c
  | .store _ c => qcmdWf c
  | .matmul _ c => qcmdWf c
  | .vector _ c => qcmdWf c
  | .attend _ c => qcmdWf c
  | .pointBuild _ c => qcmdWf c
  | .query _ c => qcmdWf c
  | .fuse _ c => qcmdWf c
  | .solve _ c => qcmdWf c
  | .copy _ c => qcmdWf c
  | .collect _ c => qcmdWf c
  | .createDesc _ c => qcmdWf c
  | .kernelStepComplete _ _ ue => ue.all ueWf
  | .zoneSample _ temps => decide (temps.length = 64)
  | .spillOutComplete _ _ offset => decide (offset < sramBytes)
  | .reloadComplete _ _ offset => decide (offset < sramBytes)
  | .vaultScrub _ _ offset _ => decide (offset < vaultBytes)
  | .meshMessageArrival _ m => meshWf m
  | .meshReplyRetire _ m => meshWf m
  | .wakeLatchEdge _ _ _ b => bootWf b
  | .alarmFire _ _ b => bootWf b
  | .comparatorOutputChange _ _ _ b => bootWf b
  | .powerOnResetRelease _ b => bootWf b
  | .rd4 _ _ _ m => metWf 4 m
  | .rd64 _ _ _ m => metWf 64 m
  | .rd256 _ _ _ m => metWf 256 m
  | .rd4k _ _ _ m => metWf 4096 m
  | .rres64 _ _ _ m => metWf 64 m
  | .rres4k _ _ _ m => metWf 4096 m
  | .flitReceive _ _ flit => decide (flit.length = 272)
  | .tbNowLoRead .. => true
  | .rateCommit .. => true
  | .measurementSubmit .. => true
  | .measurementTimeout .. => true
  | .holdoverLimitReached .. => true
  | .tbRelockArm .. => true
  | .relockArmExpiry .. => true
  | .standstillReached .. => true
  | .startWaitTimeout .. => true
  | .followUpTimeout .. => true
  | .announceReceiptTimeout .. => true
  | .captureEdge .. => true
  | .csiFrameStart .. => true
  | .csiFrameEnd .. => true
  | .csiLineStart .. => true
  | .csiLineEnd .. => true
  | .csiLongPacket .. => true
  | .csiEmbeddedData .. => true
  | .csiHeaderEccError .. => true
  | .csiSotSyncError .. => true
  | .encoderEdge .. => true
  | .imuDataReady .. => true
  | .imuReadComplete .. => true
  | .canErrorPassive .. => true
  | .canBusOff .. => true
  | .canBusOffRecovery .. => true
  | .packetTimeout .. => true
  | .overrunClose .. => true
  | .packetTakeUp .. => true
  | .resultSetStart .. => true
  | .watermarkSeal .. => true
  | .deadlineSeal .. => true
  | .resultVote .. => true
  | .egressQueueRoom .. => true
  | .slotOverwriteAfterRead .. => true
  | .corridorOrderWaitEnd .. => true
  | .ingestDone .. => true
  | .sortDone .. => true
  | .leafPassDone .. => true
  | .interiorDone .. => true
  | .solveReadDataReady .. => true
  | .waitFence .. => true
  | .signalFence .. => true
  | .semAcquire .. => true
  | .semRelease .. => true
  | .branchVariant .. => true
  | .endList .. => true
  | .waitSatisfied .. => true
  | .listTimeTrigger .. => true
  | .batchWaitExpiry .. => true
  | .energyTick .. => true
  | .class0SlackExpiry .. => true
  | .starveTimeout .. => true
  | .energyDebtTimeout .. => true
  | .sensorSampleTimeout .. => true
  | .capWrite .. => true
  | .tileTempSample .. => true
  | .opChangeDone .. => true
  | .autonomousSpill .. => true
  | .vaultRowRemap .. => true
  | .tickReady .. => true
  | .tickInputsReady .. => true
  | .tickShort .. => true
  | .solverBudgetStop .. => true
  | .pwmPeriodBoundary .. => true
  | .triggerFire .. => true
  | .triggerPulseEnd .. => true
  | .triggerTimePush .. => true
  | .ioCapPopLoRead .. => true
  | .statusSourceChange .. => true
  | .coalesceTimeout .. => true
  | .eventDelivery .. => true
  | .evCClaimRead .. => true
  | .eventComplete .. => true
  | .evHCauseRead .. => true
  | .evGlobalWrite .. => true
  | .evMaskWrite .. => true
  | .evSyncRead .. => true
  | .softwareEvent .. => true
  | .fenceWatcherArm .. => true
  | .supervisionPass .. => true
  | .lockstepMismatch .. => true
  | .budgetStop .. => true
  | .budgetStopDrainTimeout .. => true
  | .resultDeadlineTest .. => true
  | .clockMonitorWindow .. => true
  | .voltageFault .. => true
  | .temperatureFault .. => true
  | .shadowCompare .. => true
  | .goldenRunComplete .. => true
  | .selfTestAttempt .. => true
  | .selfTestSliceEnd .. => true
  | .selfTestSliceOverrun .. => true
  | .queueHang .. => true
  | .fusionHang .. => true
  | .contextDrainTimeout .. => true
  | .contextWindowExpiry .. => true
  | .contextResetRequest .. => true
  | .partitionResetRequest .. => true
  | .partitionResetComplete .. => true
  | .partitionWindowExpiry .. => true
  | .crashRecordDone .. => true
  | .jobAbortReceive .. => true
  | .backstopTimeout .. => true
  | .porstAssert .. => true
  | .bootWatchdogExpiry .. => true
  | .bootSupplyFault .. => true
  | .sfdpTimeout .. => true
  | .nvmReadTimeout .. => true
  | .bootRetryHoldExpiry .. => true
  | .minRead .. => true
  | .minProgram .. => true
  | .minErase .. => true
  | .minRetry .. => true
  | .nvmOperationComplete .. => true
  | .attestationRequest .. => true
  | .attestationDone .. => true
  | .parkRequest .. => true
  | .parkDrainLimit .. => true
  | .alarmArm .. => true
  | .referenceLoss .. => true
  | .pllLockLoss .. => true
  | .wr4 .. => true
  | .setwin .. => true
  | .wreset .. => true
  | .unknownOpcode .. => true
  | .transactionCancel .. => true
  | .hpResultRelease .. => true
  | .clFenceLoRead .. => true
  | .ackTimeout .. => true
  | .linkDown .. => true
  | .linkTrained .. => true
  | .linkStartTimeout .. => true
  | .gateIntervalExpiry .. => true
  | .ethLinkChange .. => true
  | .controlCoreStore .. => true
  | .referenceRestored .. => true
  | .boundaryScanInstruction .. => true

end Sys2Proof
end

