-- ==== Sys2Proof/Tests/Slice0.lean ====
section
/-! SUPPORT. Tests of this model: ill-formed commands are refused, and concrete states and operands meet the hypotheses of the statements, clause by clause. -/

namespace Sys2Proof.Tests

open Sys2Proof Sys2Proof.Machine

set_option maxRecDepth 100000

/-! ### Helpers -/

/-- Fields of a state given values. -/
def withF (s : State) (l : List (Field × Nat)) : State := l.foldl (fun s x => s.set x.1 x.2) s

/-- A part in run state, after `dt` = 0 cycles. -/
def up : State := withF State.reset [(F.GLB_STATUS_RUN, 1), (F.GLB_STATUS_LOCKED, 1)]

/-- Zero cycles change nothing: the hypothesis `u = s.elapse dt` of the statements holds of `dt` = 0 and `s` = `u`. -/
theorem witness_elapse (u : State) (h : u.thy.counter < 2 ^ 64) : u = u.elapse 0 := by
  have e : (u.thy.counter + 0 * u.cycleNs) % 2 ^ 64 = u.thy.counter := by omega
  simp only [State.elapse, e]

/-! ### Well-formed commands: each check refuses a term and accepts one at its limit -/

/-- A queue command that met an uncorrectable error. -/
def ueCmd (src : Fin 3) (addr : Nat) : QCmd := ⟨0, 0, 0, [], some ⟨src, 0, addr⟩⟩

/-- Circumstances of a start whose BIST failed a tile. -/
def badTile (p : Nat × Nat) : BootInputs := ⟨true, 6, true, none, none, ⟨[p], [], [], []⟩, none, none, 0⟩

/-- Frames of more bytes than a MAC can hand on. -/
theorem test_wf_ethFrame :
    Instr.wf (.ethFrameReceive 0 0 (List.replicate 65536 0) false none 0) = false ∧ Instr.wf (.ethFrameReceive 0 0 (List.replicate 64 0) false none 0) = true := by
  refine ⟨?_, by decide⟩
  show decide ((List.replicate 65536 (0 : Byte)).length < 65536) = false
  rw [List.length_replicate]; decide

/-- CAN frames with more data than their format has. -/
theorem test_wf_canFrame :
    Instr.wf (.canFrameReceive 0 0 ⟨0, false, false, false, false, false, 8, List.replicate 9 0, false⟩) = false ∧
      Instr.wf (.canFrameReceive 0 0 ⟨0, false, true, false, false, false, 15, List.replicate 65 0, false⟩) = false ∧
      Instr.wf (.canFrameReceive 0 0 ⟨0, false, true, false, false, false, 15, List.replicate 64 0, false⟩) = true := by
  decide

/-- Uncorrectable errors outside SRAM and outside the address space, for every list command. -/
theorem test_wf_listCommands :
    let bad := ueCmd 2 (3 * 2 ^ 20)
    (Instr.wf (.load 0 bad) || Instr.wf (.store 0 bad) || Instr.wf (.matmul 0 bad) || Instr.wf (.vector 0 bad) || Instr.wf (.attend 0 bad) || Instr.wf (.pointBuild 0 bad) ||
      Instr.wf (.query 0 bad) || Instr.wf (.fuse 0 bad) || Instr.wf (.solve 0 bad) || Instr.wf (.copy 0 bad) || Instr.wf (.collect 0 bad) || Instr.wf (.createDesc 0 bad)) = false ∧
      Instr.wf (.load 0 (ueCmd 0 (2 ^ 40))) = false ∧ Instr.wf (.load 0 (ueCmd 2 (3 * 2 ^ 20 - 1))) = true := by
  decide

/-- A solver step's error outside the address space. -/
theorem test_wf_kernelStep :
    Instr.wf (.kernelStepComplete 0 0 (some ⟨1, 0, 2 ^ 40⟩)) = false ∧ Instr.wf (.kernelStepComplete 0 0 none) = true := by decide

/-- A sample of other than 64 sensors. -/
theorem test_wf_zoneSample :
    Instr.wf (.zoneSample 0 (List.replicate 63 none)) = false ∧ Instr.wf (.zoneSample 0 (List.replicate 64 none)) = true := by decide

/-- Offsets beyond SRAM and beyond a vault. -/
theorem test_wf_offsets :
    Instr.wf (.spillOutComplete 0 0 (3 * 2 ^ 20)) = false ∧ Instr.wf (.reloadComplete 0 0 (3 * 2 ^ 20)) = false ∧ Instr.wf (.vaultScrub 0 0 (2 ^ 28) .clean) = false ∧
      Instr.wf (.spillOutComplete 0 0 0) = true ∧ Instr.wf (.reloadComplete 0 0 0) = true ∧ Instr.wf (.vaultScrub 0 0 (2 ^ 28 - 1) .clean) = true := by
  decide

/-- Messages of tiles and edge ports that are not there. -/
theorem test_wf_mesh :
    Instr.wf (.meshMessageArrival 0 ⟨.request, 170, 0, 0, .list 0, 0, 0, 0, 0, []⟩) = false ∧ Instr.wf (.meshReplyRetire 0 ⟨.reply, 0, 170, 0, .list 0, 0, 0, 0, 0, []⟩) = false ∧
      Instr.wf (.meshMessageArrival 0 ⟨.request, 143, 0, 0, .list 0, 0, 0, 0, 0, []⟩) = true := by
  decide

/-- Starts whose BIST reports a place off the array. -/
theorem test_wf_boot :
    let bad := badTile (13, 0)
    (Instr.wf (.powerOnResetRelease 0 bad) || Instr.wf (.wakeLatchEdge 0 0 true bad) || Instr.wf (.alarmFire 0 0 bad) || Instr.wf (.comparatorOutputChange 0 0 true bad)) = false ∧
      Instr.wf (.powerOnResetRelease 0 (badTile (12, 11))) = true := by
  decide

/-- Uncorrectable words beyond the bytes of a host read. -/
theorem test_wf_hostReads :
    (Instr.wf (.rd4 0 0 0 ⟨[], some 4⟩) || Instr.wf (.rd64 0 0 0 ⟨[], some 64⟩) || Instr.wf (.rd256 0 0 0 ⟨[], some 256⟩) || Instr.wf (.rd4k 0 0 0 ⟨[], some 4096⟩) ||
      Instr.wf (.rres64 0 0 0 ⟨[], some 64⟩) || Instr.wf (.rres4k 0 0 0 ⟨[], some 4096⟩)) = false ∧ Instr.wf (.rd4 0 0 0 ⟨[], some 3⟩) = true := by
  decide

/-- Flits of other than 272 bytes. -/
theorem test_wf_flit :
    Instr.wf (.flitReceive 0 0 (List.replicate 271 0)) = false ∧ Instr.wf (.flitReceive 0 0 (List.replicate 272 0)) = true := by decide

/-! ### Checks of rules on fixed values -/

/-- R7: its worked example on 32 bits (a = 5, b = 0xFFFFFFF0); on 12 bits, 0 is later than 4095, and values half a range apart are in no order. -/
theorem test_serial : serialLater 32 0x00000005 0xFFFFFFF0 = true ∧ serialLater 32 0xFFFFFFF0 0x00000005 = false ∧
    serialLater 12 0 4095 = true ∧ serialLater 12 4095 0 = false ∧ serialLater 12 0 2048 = false ∧ serialLater 12 2048 0 = false := by decide

/-- R132: bits of x, y and z interleave with x lowest. -/
theorem test_morton : morton [1, 0, 0] = 1 ∧ morton [0, 1, 0] = 2 ∧ morton [0, 0, 1] = 4 ∧ morton [2, 1, 3] = 8 + 2 + 4 + 32 := by decide

/-- R35: a core's read of TB_NOW_LO latches; R293: a fence watcher armed; R281: a software event. -/
theorem test_words :
    (match exec (.tbNowLoRead 5 (.core 7)) up with
     | .next t => t.coreData.getD 7 0 == 10 && (t.latch 8).now == 10
     | _ => false) = true ∧
      (match exec (.softwareEvent 0 0 127) (up.set (F.EV_S_CFG_EN 0x37F) 1) with
       | .next t => t.get (F.EV_S_STAT_COUNT 0x37F) == 1
       | _ => false) = true := by
  decide

/-- R377: a register read with a wrong CRC is answered 0xC1. -/
theorem test_hostCrc :
    (match exec (.rd4 0 0 0 ⟨[], none⟩) up with
     | .next t => t.hostResp.status == 0xC1
     | _ => false) = true := by
  decide

/-! ### Witnesses: Thyme -/

/-- Thyme's clauses on reads, commits and measurements. -/
theorem witness_ThymeCommandsComplete_run :
    let u := up.setThy (fun t => { t with lastMeas := some 0, tq := .locked, arm := none })
    let v := u.set F.TB_RATE_NEXT 0x7FFFFFFF
    up.running = true ∧ up.hostReaches ∧ u.rateCode = 0 ∧ u.running = true ∧ v.rateCode = 1 ∧ v.running = true ∧
      (signedOf 64 ((u.set F.TB_MEAS_HI 0).get64 F.TB_MEAS_LO F.TB_MEAS_HI)).natAbs ≤ u.get F.TB_JUMP_NS ∧ u.thy.tq = .locked := by
  refine ⟨by decide, ⟨by decide, by decide, by decide⟩, by decide, by decide, by decide, by decide, by decide, by decide⟩

/-- A measurement that steps nothing forward, and one that steps device time forward past result sets that run. -/
theorem witness_ThymeCommandsComplete_step :
    let u := withF up [(F.TB_MEAS_LO, 1000), (F.FU_RS_STAT_STATE 3, 2), (F.FU_STATUS_RS_RUN, 8)]
    let t := (u.set F.TB_MEAS_HI 0).measure (signedOf 64 ((u.set F.TB_MEAS_HI 0).get64 F.TB_MEAS_LO F.TB_MEAS_HI))
    let t0 := (up.set F.TB_MEAS_HI 0).measure (signedOf 64 ((up.set F.TB_MEAS_HI 0).get64 F.TB_MEAS_LO F.TB_MEAS_HI))
    u.running = true ∧ u.now < t.now ∧ t.fusionOn = true ∧ t0.now ≤ up.now := by
  decide

/-- Thyme's timers. -/
theorem witness_ThymeCommandsComplete_timers :
    let u := up.setThy (fun t => { t with counter := 10 ^ 12, tq := .locked, arm := some 5, lastMeas := some 0, sync := some ⟨3, 7, 100, 10 ^ 12 - 100, 0⟩ })
    let v := withF u [(F.TB_STILL_MASK, 0x801), (F.TB_CFG_ALT_EN, 1)]
    u.thy.lastMeas.getD 0 + u.get F.TB_MEAS_TIMEOUT * 10 ^ 6 ≤ u.now ∧ u.thy.timedOut = false ∧ u.thy.tq = .locked ∧ (u.set F.TB_STATUS_TQ 1).tqCode ≠ (u.set F.TB_STATUS_TQ 1).tq ∧
      u.thy.arm = some 5 ∧ 5 < u.now ∧ v.still = true ∧ u.thy.sync = some ⟨3, 7, 100, 10 ^ 12 - 100, 0⟩ ∧ 10 ^ 12 - 100 + 100 ≤ u.now ∧
      v.flag F.TB_CFG_ALT_EN = true ∧ v.thy.altActive = false := by
  decide
/-! ### Witnesses: ingress -/

/-- An open packet with nothing stored. -/
def openP : OpenPacket := ⟨0, 0, [], 0, 0, 0, 0, [], []⟩

/-- Stream 47 on port 7 and channel 15, kind `k`, in a FIFO of one KiB. -/
def camUp (k : Nat) (x : StreamIn) : State :=
  (withF up [(F.IG_CSI_CFG_EN 7, 1), (F.IG_SCFG_EN 47, 1), (F.IG_SCFG_KIND 47, k), (F.IG_SCFG_PORT 47, 7), (F.IG_SCFG_VC 47, 15), (F.IG_SCFG_DT 47, 0x2A),
    (F.IG_FIFO_SIZE 47, 1), (F.IG_PKT_MAX 47, 1000), (F.IG_PKT_SHAPE_LINE_BYTES 47, 2)]).setStream 47 x

/-- Frame starts with and without a frame open, frame ends, a port no stream serves. -/
theorem witness_CameraCommandsComplete_frames :
    let u := camUp 0 .zero
    let v := camUp 0 { StreamIn.zero with frameOpen := true }
    u.csiOn 7 = true ∧ u.shortStream 7 15 = some 47 ∧ u.kindOf 47 = 0 ∧ (u.stream 47).ovrPend = false ∧ (u.stream 47).frameOpen = false ∧
      v.csiOn 7 = true ∧ v.shortStream 7 15 = some 47 ∧ v.kindOf 47 = 0 ∧ (v.stream 47).ovrPend = false ∧ (v.stream 47).frameOpen = true ∧ u.shortStream 7 0 = none := by
  decide

/-- Lines of an area camera and of a line-scan camera. -/
theorem witness_CameraCommandsComplete_lines :
    let u := camUp 0 { StreamIn.zero with lineOpen := true }
    let v := camUp 1 { StreamIn.zero with open_ := some openP }
    u.csiOn 7 = true ∧ u.shortStream 7 15 = some 47 ∧ (u.stream 47).ovrPend = false ∧ u.kindOf 47 = 0 ∧ (u.stream 47).lineOpen = true ∧
      v.csiOn 7 = true ∧ v.shortStream 7 15 = some 47 ∧ (v.stream 47).ovrPend = false ∧ v.kindOf 47 = 1 ∧ (v.stream 47).lineOpen = false ∧ (v.stream 47).open_ = some openP := by
  decide

/-- Image lines with a right and a wrong CRC, and an embedded line that is stored. -/
theorem witness_CameraCommandsComplete_data :
    let u := camUp 0 { StreamIn.zero with frameOpen := true, open_ := some openP }
    u.csiOn 7 = true ∧ u.lineStream 7 15 0x2A = some 47 ∧ u.kindOf 47 = 0 ∧ (u.stream 47).ovrPend = false ∧ (u.stream 47).frameOpen = true ∧
      csiCrc (sliceB [1, 2] 0 2) = (BitVec.ofNat 16 (csiCrc [1, 2])).toNat ∧ 2 = u.get (F.IG_PKT_SHAPE_LINE_BYTES 47) ∧ csiCrc (sliceB [1, 2] 0 2) ≠ (0 : BitVec 16).toNat ∧
      u.findStream (fun n => u.kindOf n == 0 && u.cameraOn 7 15 n) = some 47 ∧ (u.stream 47).frameLines = 0 ∧
      u.writePacket 47 (sliceB [1, 2] 0 2) false = ((u.writePacket 47 [1, 2] false).1, Wrote.stored) := by
  refine ⟨by decide, by decide, by decide, by decide, by decide, by decide, by decide, by decide, by decide, by decide, ?_⟩
  exact Prod.ext (by rfl) (by decide)

/-- Encoder edges, IMU reads begun, repeated and ended. -/
theorem witness_SensorCommandsComplete_edges :
    let u := withF up [(F.IG_SCFG_EN 0, 1), (F.IG_SCFG_KIND 0, 4), (F.IG_SCFG_PORT 0, 3)]
    let v := u.setImu 3 (some 9)
    u.running = true ∧ u.encoderStream 11 = none ∧ 10 * u.get (F.IO_ENC_CFG_FILT 11) ≤ 0 ∧ quadrature (u.ig.phases.getD 11 (false, false)).1 (u.ig.phases.getD 11 (false, false)).2 true false = some true ∧
      u.imuStream 3 = some 0 ∧ u.ig.imu.getD 3 none = none ∧ v.running = true ∧ v.imuStream 3 = some 0 ∧ v.ig.imu.getD 3 none = some 9 ∧ bitOf (v.get (igKind 0 0)) 23 = false := by
  decide

/-- CAN frames matched and unmatched, FD where it is off, error states. -/
theorem witness_SensorCommandsComplete_can :
    let u := withF up [(F.IG_SCFG_EN 47, 1), (F.IG_SCFG_KIND 47, 5), (F.IG_SCFG_PORT 47, 1), (igKind 47 0, 0x123), (igKind 47 1, 0x1FFFFFFF), (F.IO_CAN_CTRL_EN 1, 1)]
    let f : CanFrame := ⟨0x123, false, false, false, false, false, 0, [], false⟩
    u.running = true ∧ u.flag (F.IO_CAN_CTRL_EN 1) = true ∧ u.get (F.IO_CAN_STAT_STATE 1) ≠ 2 ∧ f.fdf = false ∧ f.faulty = false ∧ { f with faulty := true }.faulty = true ∧ { f with fdf := true }.fdf = true ∧ u.canStream 1 f = some 47 ∧
      u.canStream 1 { f with ident := 0x122 } = none ∧ u.flag (F.IO_CAN_CTRL_FD_EN 1) = false ∧ u.get (F.IO_CAN_STAT_STATE 1) = 0 ∧
      (u.set (F.IO_CAN_STAT_STATE 1) 2).running = true ∧ (u.set (F.IO_CAN_STAT_STATE 1) 2).get (F.IO_CAN_STAT_STATE 1) = 2 := by
  decide

/-- Packet timers of bands and of records, of an encoder stream with no packet open, and an overrun's close. -/
theorem witness_SensorCommandsComplete_timers :
    let u := (camUp 2 { StreamIn.zero with open_ := some openP }).set (F.IG_TIMEOUT 47) 0
    let v := (camUp 3 { StreamIn.zero with open_ := some openP }).set (F.IG_TIMEOUT 47) 0
    let w := camUp 0 { StreamIn.zero with open_ := some openP, ovrPend := true }
    let e := (camUp 3 StreamIn.zero).set (F.IG_TIMEOUT 47) 0
    u.running = true ∧ u.flag (F.IG_SCFG_EN 47) = true ∧ u.packetLate 47 = true ∧ (u.stream 47).ovrPend = false ∧ u.kindOf 47 ≤ 2 ∧
      v.running = true ∧ v.flag (F.IG_SCFG_EN 47) = true ∧ v.packetLate 47 = true ∧ (v.stream 47).ovrPend = false ∧ 3 ≤ v.kindOf 47 ∧ (v.stream 47).open_ = some openP ∧
      e.running = true ∧ e.flag (F.IG_SCFG_EN 47) = true ∧ e.packetLate 47 = true ∧ e.kindOf 47 = 3 ∧ (e.stream 47).open_ = none ∧ (e.stream 47).ovrPend = false ∧ 0 < e.freeUnits 47 ∧
      w.running = true ∧ (w.stream 47).ovrPend = true ∧ 0 < w.freeUnits 47 := by
  decide

/-- A 60-byte frame body, and the 64 bytes of it with its FCS. -/
def ethBody : Bytes := List.replicate 60 0

/-- The frame of `ethBody` with its FCS. -/
def ethGood : Bytes := ethBody ++ leBytes 4 (crc32 ethBody)

/-- Frames too short, with a wrong and with a right FCS; gates; the link. -/
theorem witness_EthernetCommandsComplete :
    let u := withF up [(F.EN_M_CFG_EN 3, 1), (F.EN_STATUS, 8), (F.EN_M_GCL 3, 1)]
    u.running = true ∧ u.flag (F.EN_M_CFG_EN 3) = true ∧ bitOf (u.get F.EN_STATUS) 3 = true ∧ (List.replicate 63 (0 : Byte)).length < 64 ∧ 9018 < (List.replicate 9019 (0 : Byte)).length ∧
      64 ≤ ethGood.length ∧ ethGood.length ≤ 9018 ∧ fieldB (ethBody ++ [0, 0, 0, 0]) (64 - 4) 4 ≠ crc32 ((ethBody ++ [0, 0, 0, 0]).take (64 - 4)) ∧
      fieldB ethGood (ethGood.length - 4) 4 = crc32 (ethGood.take (ethGood.length - 4)) ∧ u.get (F.EN_M_GCL 3) ≠ 0 ∧ bitOf (up.get F.EN_STATUS) 3 = false := by
  refine ⟨by decide, by decide, by decide, by decide, ?_, by decide, by decide, by decide, by decide, by decide, by decide⟩
  rw [List.length_replicate]; decide
/-! ### Witnesses: fusion -/

/-- A closed packet of stream 47 at time `t`, truncated or not. -/
def pk (t : Nat) (trunc : Bool) : Packet :=
  ⟨47, 3, 0, trunc, false, 0, 0, t, t, t, 1, 0, 0, 0, 0, 0, zerosB 16, t, false, [], false, false, [], false, false⟩

/-- A part in run state with one packet in the FIFO of stream 47, its watermark at 5. -/
def pkUp (p : Packet) : State := (up.set (F.FU_WM_LO 47) 5).setStream 47 { StreamIn.zero with fifo := [p] }

/-- Set 3 uses stream 47 and has sealed its first instant, at 10; device time went back since the stream's last packet. -/
def backUp (p : Packet) : State :=
  let s := withF (pkUp p) [(F.FU_RS_STAT_STATE 3, 2), (F.FU_RS_CFG 3, 1), (F.FU_RS_STREAMS_LO 3, 0xFFFFFFFF), (F.FU_RS_STREAMS_HI 3, 0xFFFF), (F.FU_RS_T0_LO 3, 10)]
  State.setThy { s with fu := { s.fu with sets := setAt s.fu.sets 3 { s.fuSet 3 with k := 1 } } } (fun t => { t with backs := 1 })

/-- Packets before the watermark, at it, truncated, and before the watermark after a step back. -/
theorem witness_FusionCommandsComplete_takeUp :
    (pkUp (pk 4 false)).fusionOn = true ∧ ((pkUp (pk 4 false)).stream 47).fifo.find? (fun p => !p.taken) = some (pk 4 false) ∧
      (pk 4 false).trunc = false ∧ (pk 4 false).stamp < (pkUp (pk 4 false)).get64 (F.FU_WM_LO 47) (F.FU_WM_HI 47) ∧
      ((pkUp (pk 5 false)).stream 47).fifo.find? (fun p => !p.taken) = some (pk 5 false) ∧ (pk 5 false).trunc = false ∧
      (pkUp (pk 5 false)).get64 (F.FU_WM_LO 47) (F.FU_WM_HI 47) ≤ (pk 5 false).stamp ∧ (pkUp (pk 5 false)).fusionOn = true ∧
      ((pkUp (pk 4 true)).stream 47).fifo.find? (fun p => !p.taken) = some (pk 4 true) ∧ (pk 4 true).trunc = true ∧ (pkUp (pk 4 true)).fusionOn = true ∧
      (pkUp (pk 4 false)).lateAgain (pk 4 false) = false ∧ (backUp (pk 4 false)).lateAgain (pk 4 false) = true ∧ (backUp (pk 4 false)).fusionOn = true ∧
      ((backUp (pk 4 false)).stream 47).fifo.find? (fun p => !p.taken) = some (pk 4 false) ∧
      (pk 4 false).stamp < (backUp (pk 4 false)).get64 (F.FU_WM_LO 47) (F.FU_WM_HI 47) := by
  decide

/-- Starts, with and without the hold of START_WAIT. -/
theorem witness_FusionCommandsComplete_start :
    let u := withF up [(F.FU_RS_STAT_STATE 3, 1), (F.TB_CFG_START_WAIT, 0)]
    let v := (withF up [(F.TB_CFG_START_WAIT, 1), (F.TB_CFG_START_TIMEOUT, 10)]).setThy (fun t => { t with holdStart := some 0, counter := 10 ^ 10 })
    u.running = true ∧ u.get (F.FU_RS_STAT_STATE 3) = 1 ∧ u.startHeld = false ∧ u.jobHeld 3 = false ∧
      v.thy.holdStart = some 0 ∧ v.startHeld = true ∧ v.get F.TB_CFG_START_TIMEOUT * 10 ^ 9 ≤ (v.thy.counter + 2 ^ 64 - 0) % 2 ^ 64 := by
  decide

/-- A result of set 3, sealed and not emitted. -/
def resA : Result := ⟨false, 3, 0, 0, 0, 0, 0, 0, 0, false, false, false, 0, false, 0, 0, none, 0, [], [], []⟩

/-- Seals by watermark and by deadline, votes of a complete and of a partial result, a slot whose read has ended. -/
theorem witness_FusionCommandsComplete_seal :
    let u := withF up [(F.FU_RS_STAT_STATE 3, 2), (F.FU_POSE_WM_LO, 100)]
    let v := withF up [(F.FU_RS_STAT_STATE 3, 2), (F.FU_RS_H 3, 0)]
    let w : State := { v with fu := { v.fu with results := [resA] } }
    let y : State := { v with fu := { v.fu with results := [{ resA with sealCode := 2 }] } }
    let r : State := { up with hp := { up.hp with reading := some (3, 4095) } }
    u.fusionOn = true ∧ u.rsRuns 3 = true ∧ (u.fuSet 3).sealAt ≠ some u.thy.counter ∧ u.watermarkReady 3 (u.fuSet 3).k = true ∧
      v.fusionOn = true ∧ v.rsRuns 3 = true ∧ (v.fuSet 3).sealAt ≠ some v.thy.counter ∧ v.watermarkReady 3 (v.fuSet 3).k = false ∧
      v.instant 3 (v.fuSet 3).k + v.get (F.FU_RS_H 3) ≤ v.now ∧
      w.fusionOn = true ∧ w.result? 3 (w.fuSet 3).next = some resA ∧ w.fu.emit = none ∧ resA.emitted = false ∧ w.listsDone 3 resA.k = true ∧ w.voteTurn 3 resA = true ∧
      y.result? 3 (y.fuSet 3).next = some { resA with sealCode := 2 } ∧ y.fusionOn = true ∧ y.fu.emit = none ∧ y.voteTurn 3 { resA with sealCode := 2 } = true ∧
      r.hp.reading = some (3, 4095) := by
  decide
/-! ### Witnesses: commands of lists -/

/-- Bytes of DRAM given values. -/
def withB (s : State) (l : List (Nat × Byte)) : State := l.foldl (fun s x => s.dramPut x.1 x.2) s

/-- A descriptor in slot `k` of the table at 0x5000: valid, rank 1, element type `t`, 16 elements at 0x6000 + 256·k. -/
def descB (k : Nat) (t : Byte) : List (Nat × Byte) :=
  let a := 0x5000 + 64 * k
  [(a, 0x81), (a + 1, t), (a + 9, BitVec.ofNat 8 (0x60 + k)), (a + 16, 16)]

/-- The bytes of a record given at offsets, as the first command of list 1 (at 0x2000). -/
def recB (r : List (Nat × Byte)) : List (Nat × Byte) := r.map (fun x => (0x2040 + x.1, x.2))

/-- The instance of list 1 at its first command, bound to result 0 of set 3. -/
def inst1 : Inst := ⟨1, 1, [(3, 0)], 0, .running, 0, [], 0, false, 3, false, none, 0, [], none, false⟩

/-- Queue 15 of engine 5. -/
def q5 : QCmd := ⟨5, 15, 0, [], none⟩

/-- A part of 12 tiles whose list 1 has an instance on queue 15 of engine 5, at a record with the given bytes; descriptors of FP32, BF16, Q32 and INT8 in slots 1 to 4, the last with the image of one in its tensor; result 0 of set 3 is kept, and problem 31 has its watermark at 0. -/
def listUp (r : List (Nat × Byte)) : State :=
  let s := withF up [(F.GLB_STATUS_COLS, 1), (F.CL_LIST_BASE_LO, 0x1000), (F.CL_LIST_COUNT, 2), (F.CL_STATE_BASE_LO, 0x4000), (F.DS_TBL_BASE_LO, 0x5000), (F.DS_TBL_SLOTS, 8),
    (F.DS_ALLOC_BASE_LO, 0x7000), (F.DS_ALLOC_COUNT, 1), (F.AT_STATUS_HL, 1), (F.AT_DIM_DH, 16)]
  let s := withB s ([(0x1041, 0x20), (0x2001, 0xF5), (0x2006, 2), (0x2008, 0xFF)] ++ recB r ++ descB 1 0 ++ descB 2 1 ++ descB 3 7 ++ descB 4 5 ++
    [(0x5110, 64), (0x5146, 1), (0x6400, 1), (0x6409, 0x60), (0x6410, 16), (0x7001, 0x60), (0x7005, 0x80), (0x7009, 0x10)])
  let s := s.putProb 31 { SvProb.zero with wm := some 0 }
  { s with cl := { s.cl with insts := [inst1] }, fu := { s.fu with results := [resA] } }

/-- LOAD of one element to tile 11. -/
def loadR : List (Nat × Byte) := [(0, 1), (8, 1), (10, 11), (11, 1), (40, 1), (42, 1), (44, 1), (46, 1)]
/-- STORE of one element from tile 11. -/
def storeR : List (Nat × Byte) := [(0, 2), (8, 1), (10, 11), (11, 1), (40, 16), (42, 1), (44, 1), (46, 1)]
/-- MATMUL of one element on tile 11, BF16 to FP32. -/
def matmulR : List (Nat × Byte) := [(0, 3), (16, 0xFF), (17, 0xFF), (18, 0xFF), (19, 0xFF), (24, 1), (26, 1), (28, 1), (30, 1), (31, 1), (34, 11), (35, 1)]
/-- VECTOR of one FP32 element on tile 11. -/
def vectorR : List (Nat × Byte) := [(0, 4), (8, 1), (10, 11), (11, 1), (28, 1)]
/-- ATTEND in mode 0 without local keys. -/
def attendR : List (Nat × Byte) := [(0, 5), (12, 2), (18, 3), (22, 1)]
/-- QUERY with no build kept. -/
def queryR : List (Nat × Byte) := [(0, 7)]
/-- FUSE of bound result 0 into the descriptor of slot 1. -/
def fuseR : List (Nat × Byte) := [(0, 8), (18, 1)]
/-- SOLVE in read mode of problem 31. -/
def solveR : List (Nat × Byte) := [(0, 9), (8, 1), (9, 31), (12, 1)]
/-- COPY of 16 elements. -/
def copyR : List (Nat × Byte) := [(0, 10), (8, 1), (10, 1), (40, 16), (42, 1), (44, 1), (46, 1)]
/-- COLLECT: a broadcast from this part. -/
def collectR : List (Nat × Byte) := [(0, 11), (8, 2), (12, 1), (14, 1)]
/-- CREATE_DESC into slot 5 from the INT8 tensor of slot 4. -/
def createR : List (Nat × Byte) := [(0, 12), (8, 4), (16, 5)]

/-- Every command of a list is at hand, with its descriptors read, and comes out as done (R184, R255). -/
def atDone (r : List (Nat × Byte)) (op : Opcode) (e : State → Inst → Bytes → State × CmdEnd) : Prop :=
  let u := listUp r
  let j := u.takenUp inst1 op (u.nextCmd inst1)
  u.atCommand q5 op inst1 ∧ (e (u.setInst j) j (u.nextCmd inst1)).2 = .done

/-- LOAD. -/
theorem witness_EngineCommandsComplete_load : atDone loadR .load (fun s j b => s.loadBody j b) := by unfold atDone State.atCommand; decide

/-- STORE. -/
theorem witness_EngineCommandsComplete_store : atDone storeR .store (fun s j b => s.storeBody j b) := by unfold atDone State.atCommand; decide

/-- MATMUL. -/
theorem witness_EngineCommandsComplete_matmul : atDone matmulR .matmul (fun s _ b => s.matmulBody b) := by unfold atDone State.atCommand; decide

/-- VECTOR. -/
theorem witness_EngineCommandsComplete_vector : atDone vectorR .vector (fun s _ b => s.vectorBody b) := by unfold atDone State.atCommand; decide

/-- ATTEND. -/
theorem witness_EngineCommandsComplete_attend : atDone attendR .attend (fun s j b => s.attendBody j b) := by unfold atDone State.atCommand; decide

/-- QUERY. -/
theorem witness_EngineCommandsComplete_query : atDone queryR .query (fun s j b => s.queryBody j b) := by unfold atDone State.atCommand; decide

/-- FUSE. -/
theorem witness_EngineCommandsComplete_fuse : atDone fuseR .fuse (fun s j b => s.fuseBody j b) := by unfold atDone State.atCommand; decide

/-- SOLVE. -/
theorem witness_EngineCommandsComplete_solve : atDone solveR .solve (fun s j b => s.solveBody j b) := by unfold atDone State.atCommand; decide

/-- COPY. -/
theorem witness_EngineCommandsComplete_copy : atDone copyR .copy (fun s j b => s.copyBody j b) := by unfold atDone State.atCommand; decide

/-- COLLECT. -/
theorem witness_EngineCommandsComplete_collect : atDone collectR .collect (fun s j b => s.collectBody j b) := by unfold atDone State.atCommand; decide

/-- CREATE_DESC. -/
theorem witness_EngineCommandsComplete_createDesc : atDone createR .createDesc (fun s j b => s.createBody j b) := by unfold atDone State.atCommand; decide

/-- POINT_BUILD begins its build. -/
theorem witness_EngineCommandsComplete_pointBuild :
    let u := withF (listUp [(0, 6)]) [(F.PT_ATTR_DESC, 1), (F.PT_SCR_DESC, 1)]
    let j := u.takenUp inst1 .pointBuild (u.nextCmd inst1)
    u.atCommand q5 .pointBuild inst1 ∧ ((u.setInst j).pointBuildBody j (u.nextCmd inst1)).2 = .busy := by unfold State.atCommand; decide

/-- The instance of list 1 waits. -/
def waiting (r : List (Nat × Byte)) (w : WaitCause) : State :=
  let s := withF (listUp r) [(F.AT_CFG_LAG, 1)]
  { s with cl := { s.cl with insts := [{ inst1 with phase := .waiting, wait := some w }] } }

/-- The instance of list 1 once its command is taken up. -/
def taken (u : State) (op : Opcode) : Inst := u.takenUp inst1 op (u.nextCmd inst1)

/-- The part with that instance. -/
def takenIn (u : State) (op : Opcode) : State := u.setInst (taken u op)

/-- A fence waited for that is reached, a fence signalled in each mode. -/
theorem witness_ListControlCommandsComplete_fences :
    let u := listUp [(0, 0x10), (8, 0xFF), (9, 0x0F)]
    let v := listUp [(0, 0x11), (8, 0xFF), (9, 0x0F), (16, 1)]
    let w := listUp [(0, 0x11), (8, 0xFF), (9, 0x0F), (10, 1), (16, 1)]
    u.atCommand q5 .waitFence inst1 ∧ (takenIn u .waitFence).fenceReached (fenceOf (u.nextCmd inst1)) (fenceValue (u.nextCmd inst1) (taken u .waitFence)) = true ∧
      v.atCommand q5 .signalFence inst1 ∧ bitOf (fieldB (v.nextCmd inst1) 10 1) 0 = false ∧ w.atCommand q5 .signalFence inst1 ∧ bitOf (fieldB (w.nextCmd inst1) 10 1) 0 = true := by
  unfold State.atCommand; decide

/-- A semaphore acquired and released. -/
theorem witness_ListControlCommandsComplete_semaphores :
    let u := (listUp [(0, 0x12), (8, 255), (10, 5)]).set (F.CL_SEM 255) 5
    let v := takenIn u .semAcquire
    u.atCommand q5 .semAcquire inst1 ∧ fieldB (u.nextCmd inst1) 10 2 ≤ v.sem (fieldB (u.nextCmd inst1) 8 1) ∧ v.acquirers (fieldB (u.nextCmd inst1) 8 1) = [] ∧
      (listUp [(0, 0x13), (8, 255), (10, 5)]).atCommand q5 .semRelease inst1 := by
  unfold State.atCommand; decide

/-- A branch on a variant other than 0, taken and not taken. -/
theorem witness_ListControlCommandsComplete_branches :
    let u := listUp [(0, 0x14)]
    let v : State := { u with fu := { u.fu with results := [{ resA with variantCode := 1 }] } }
    let code := fun s : State => (takenIn s .branchVariant).boundVariant (taken s .branchVariant) (bitsOf (fieldB (s.nextCmd inst1) 12 1) 0 4)
    v.atCommand q5 .branchVariant inst1 ∧ bitOf (fieldB (v.nextCmd inst1) 10 1) 0 = false ∧ code v ≠ 0 ∧
      u.atCommand q5 .branchVariant inst1 ∧ bitOf (fieldB (u.nextCmd inst1) 10 1) 0 = false ∧ code u = 0 := by
  unfold State.atCommand; decide

/-- A branch on one variant, taken and not taken, and an end. -/
theorem witness_ListControlCommandsComplete_branchOn :
    let u := listUp [(0, 0x14), (10, 1), (11, 1)]
    let v : State := { u with fu := { u.fu with results := [{ resA with variantCode := 1 }] } }
    let code := fun s : State => (takenIn s .branchVariant).boundVariant (taken s .branchVariant) (bitsOf (fieldB (s.nextCmd inst1) 12 1) 0 4)
    v.atCommand q5 .branchVariant inst1 ∧ bitOf (fieldB (v.nextCmd inst1) 10 1) 0 = true ∧ code v = fieldB (v.nextCmd inst1) 11 1 ∧
      u.atCommand q5 .branchVariant inst1 ∧ bitOf (fieldB (u.nextCmd inst1) 10 1) 0 = true ∧ code u ≠ fieldB (u.nextCmd inst1) 11 1 ∧
      (listUp [(0, 0x1F)]).atCommand q5 .end_ inst1 := by
  unfold State.atCommand; decide

/-- Waits that are over: a fence, a semaphore, the corridor's order, a problem's watermark. -/
theorem witness_ListControlCommandsComplete_waits :
    let f := waiting [(0, 0x10)] (.fence 4095 0)
    let m := waiting [(0, 0x12)] (.sem 255 0)
    let o := waiting attendR .corridorOrder
    let p := waiting solveR (.solveRead 31 0)
    let i := fun w => { inst1 with phase := .waiting, wait := some w }
    f.instOn 5 15 = some (i (.fence 4095 0)) ∧ f.ctxHeld (f.runHdr (i (.fence 4095 0))).ctx = false ∧ f.fenceReached 4095 0 = true ∧
      m.instOn 5 15 = some (i (.sem 255 0)) ∧ m.ctxHeld (m.runHdr (i (.sem 255 0))).ctx = false ∧ 0 ≤ m.sem 255 ∧
      o.instOn 5 15 = some (i .corridorOrder) ∧ o.orderOver (i .corridorOrder) = true ∧ o.ctxHeld (o.runHdr (i .corridorOrder)).ctx = false ∧
      p.instOn 5 15 = some (i (.solveRead 31 0)) ∧ (p.prob 31).wm = some 0 ∧ p.ctxHeld (p.runHdr (i (.solveRead 31 0))).ctx = false := by
  decide

/-- The build of list 1 with nothing left to ingest. -/
def build1 : PtBuild := ⟨1, 3, 0, 0, 16, Desc.ofBytes (zerosB 64), Desc.ofBytes (zerosB 64), [], [], 0, [], []⟩

/-- A part whose build of list 1 is in stage `k`. -/
def stageUp (k : Nat) : State := { (listUp [(0, 6)]).set F.PT_STATUS_STAGE k with pt := some build1 }

/-- Each stage of a build. -/
theorem witness_StageAndTriggerCommandsComplete_stages :
    (stageUp 1).pt = some build1 ∧ (stageUp 1).ctxHeld ((stageUp 1).listHdr build1.owner).ctx = false ∧ (stageUp 1).get F.PT_STATUS_STAGE = 1 ∧
      (stageUp 2).pt = some build1 ∧ (stageUp 2).ctxHeld ((stageUp 2).listHdr build1.owner).ctx = false ∧ (stageUp 2).get F.PT_STATUS_STAGE = 2 ∧
      (stageUp 3).pt = some build1 ∧ (stageUp 3).ctxHeld ((stageUp 3).listHdr build1.owner).ctx = false ∧ (stageUp 3).get F.PT_STATUS_STAGE = 3 ∧
      (stageUp 4).pt = some build1 ∧ (stageUp 4).ctxHeld ((stageUp 4).listHdr build1.owner).ctx = false ∧ (stageUp 4).get F.PT_STATUS_STAGE = 4 ∧
      ((stageUp 4).interiorBuild build1).inst? build1.owner = some inst1 ∧ opcodeOf (((stageUp 4).interiorBuild build1).nextCmd inst1) = some .pointBuild := by
  decide

/-- A comparator list due now, and a batch whose wait is over. -/
theorem witness_StageAndTriggerCommandsComplete_triggers :
    let u : State := { up with cl := { up.cl with fires := [(4094, 0)] } }
    let s := withB (listUp []) [(0x2010, 1)]
    let v : State := { s with cl := { s.cl with occs := [⟨1, [(3, 0)], 0⟩] } }
    u.running = true ∧ assocGet 4094 u.cl.fires = some 0 ∧ 0 ≤ u.cycleNow ∧
      v.running = true ∧ v.occsOf 1 = [⟨1, [(3, 0)], 0⟩] ∧ (v.listHdr 1).kind = 1 ∧ 0 + (v.listHdr 1).batchWait ≤ v.now := by
  decide

/-! ### Witnesses: Marjoram, tiles, Tarragon -/

/-- An instance of list 1 that is ready, of class 0 without slack, or of class 1 starving. -/
theorem witness_MarjoramCommandsComplete_lists :
    let ready : Inst := { inst1 with phase := .ready, deferred := true }
    let s := withF (listUp []) [(F.MJ_C0_SLACK, 0), (F.MJ_STARVE, 0)]
    let u : State := { s with cl := { s.cl with insts := [ready] } }
    let v := withB u [(0x2000, 1)]
    u.inst? 1 = some ready ∧ ready.phase = .ready ∧ (u.listHdr ready.list).cls = 0 ∧ u.slackLeft ready = 0 ∧
      v.inst? 1 = some ready ∧ ready.deferred = true ∧ (v.listHdr ready.list).cls ≠ 0 ∧ ready.readyAt + v.get F.MJ_STARVE * 1000 ≤ v.now ∧ v.starver (v.listHdr ready.list).cls = none := by
  decide

/-- A tick, an old debt, samples, a sensor without them, caps in range and outside. -/
theorem witness_MarjoramCommandsComplete :
    let u := up.setMj (fun m => { m with debtSince := some 0 })
    let v := u.setThy (fun t => { t with counter := 10 ^ 12 })
    up.running = true ∧ v.mj.debtSince = some 0 ∧ v.mj.debtTold = false ∧ 0 + v.get F.MJ_WINDOW * 10 ^ 6 < v.now ∧
      v.running = true ∧ v.mj.sampled.getD 63 0 + 100000 ≤ v.now ∧ v.flag (F.MJ_SENSOR_BAD_FLD 63) = false ∧
      60000 ≤ (300000 : Word).toNat ∧ (300000 : Word).toNat ≤ 300000 ∧ up.get F.MJ_BASE_MW + 10000 ≤ (300000 : Word).toNat ∧
      cleanWrite F.MJ_CAP_MW.addr 59999 = true ∧ (59999 : Word).toNat < 60000 ∧ cleanWrite F.MJ_CAP_MW.addr 300001 = true ∧ 300000 < (300001 : Word).toNat := by
  decide

/-- A buffer of 64 bytes at SRAM offset 3 MiB − 64 of tile 11, in a phase. -/
def bufX (p : BufPhase) : SramBuf := ⟨11, 0x300000 - 64, 64, 1, p, 0⟩

/-- A part of 12 tiles with that buffer. -/
def bufUp (p : BufPhase) : State :=
  let s := withF up [(F.GLB_STATUS_COLS, 1)]
  { s with tl := { s.tl with bufs := [bufX p] } }

/-- A reply from tile 143 with sequence number 0, issued at tick `t`. -/
def reply (t : BitVec 12) : MeshMsg := ⟨.reply, 143, 0, 63, .golden false, 0, t, 11, 0, []⟩

/-- Tiles: a sample, a change of point, spills and reloads, remaps, scrubs, messages. -/
theorem witness_TileCommandsComplete :
    let u := withF up [(F.GLB_STATUS_COLS, 1)]
    let c : State := { u with tl := { u.tl with opChanges := [⟨11, 2, 0⟩] }, thy := { u.thy with counter := 1500 } }
    let s := (bufUp .present).set F.TL_SPILL_CFG_HIGH 0
    u.running = true ∧ 11 < u.tiles ∧ c.tl.opChanges.find? (fun c => c.tile == 11) = some ⟨11, 2, 0⟩ ∧ 0 + 1500 ≤ c.now ∧
      s.running = true ∧ markBytes (s.get F.TL_SPILL_CFG_HIGH) < s.sramAfter 11 ∧ assocGet 11 s.tl.stalls = none ∧
      (bufUp .leaving).bufAt 11 (0x300000 - 64) = some (bufX .leaving) ∧ (bufX .leaving).phase = .leaving ∧
      (bufUp .returning).bufAt 11 (0x300000 - 64) = some (bufX .returning) ∧ (bufX .returning).phase = .returning := by
  decide

/-- Vaults and the mesh. -/
theorem witness_TileCommandsComplete_vaults :
    let u := up.set F.TL_SCRUB_CFG 1
    let v : State := { up with tl := { up.tl with rowCe := [(rowKey 143 3 7, 8)] } }
    let w := up.setThy (fun t => { t with counter := 2000000 })
    v.running = true ∧ v.get F.TL_CE_LIMIT ≤ (assocGet (rowKey 143 3 7) v.tl.rowCe).getD 0 ∧ rowKey 143 3 7 ∉ v.tl.denied ∧ u.running = true ∧ u.get F.TL_SCRUB_CFG ≠ 0 ∧
      up.running = true ∧ up.tooOld (reply 0) = false ∧ (reply 0).seqNo.toNat = up.flowDue (msgFlow (reply 0)) ∧ w.running = true ∧ w.tooOld (reply 0) = true := by
  decide

/-- A tick of problem 31 that has arisen at time 0. -/
def tick0 : SvTick := ⟨0, 0, false, false, false, 0, true, false, 0, 0, [], .start ⟨[], [], 0⟩, 0, 0, none⟩

/-- A part whose problem 31 has that tick. -/
def tickUp : State :=
  let s := (withF up [(F.SV_P_BUDGET 31, 0xFFFFFF)]).putProb 31 { SvProb.zero with t0 := some 0, ticks := [tick0] }
  { s with sv := { s.sv with cur := some 31 } }

/-- Tarragon: a tick arises, its inputs are past, or short at the limit of its wait; steps and stops. -/
theorem witness_TarragonCommandsComplete :
    let v := withF tickUp [(F.SV_P_IN_HI 31, 0x8000), (F.SV_P_WAIT 31, 0)]
    tickUp.running = true ∧ (tickUp.prob 31).t0 = some 0 ∧ 0 + (tickUp.prob 31).next * tickUp.get (F.SV_P_PERIOD 31) ≤ tickUp.now ∧
      tickUp.headTick 31 = some tick0 ∧ tick0.ready = false ∧ tickUp.inputsPast 31 tick0.t = true ∧
      v.headTick 31 = some tick0 ∧ v.inputsPast 31 tick0.t = false ∧ tick0.t + v.get (F.SV_P_WAIT 31) ≤ v.now ∧ tickUp.sv.cur = some 31 := by
  decide

/-- The first step of tick 0 is within the budget, whatever kernel it is, where no iteration ends with it. -/
theorem step_affordable (u : State) (hn : u.get (F.SV_P_SHAPE_NB0 31) = 0) (hm : u.get (F.SV_P_SHAPE_DOF 31) = 0) (hb : u.get (F.SV_P_BUDGET 31) = 16777215)
    (hp : (u.stepPlace 31 tick0.pos).2 = false) : tick0.cycles + (u.stepCycles 31 tick0 tick0.pos + 0) ≤ u.get (F.SV_P_BUDGET 31) := by
  have hr : cdiv (u.recordSize 31) 16 ≤ 1000000 := by unfold State.recordSize cdiv; omega
  have hs : tick0.struct = 0 ∧ tick0.samples = 0 ∧ tick0.cycles = 0 := by decide
  have h0 : cdiv 0 16 = 0 ∧ cdiv 0 48 = 0 ∧ cdiv 0 8 = 0 := by decide
  simp only [State.stepCycles, State.stepCost, hs, hn, hm, hb, hp, Nat.mul_zero, Nat.zero_mul, h0, beq_self_eq_true, if_true]
  split <;> simp
  exact Nat.le_trans (Nat.add_le_add_left hr 16) (by decide)

/-- A step within the budget, the last of an empty program. -/
theorem witness_TarragonCommandsComplete_step :
    tickUp.sv.cur = some 31 ∧ tickUp.headTick 31 = some tick0 ∧ tick0.cycles + (tickUp.stepCycles 31 tick0 tick0.pos + 0) ≤ tickUp.get (F.SV_P_BUDGET 31) ∧
      tickUp.running = true ∧ tickUp.stepCount 31 ≤ tick0.pos + 1 :=
  ⟨by decide, by decide, step_affordable tickUp (by decide) (by decide) (by decide) (by decide), by decide, by decide⟩

/-- A step within the budget, the first of a program of two. -/
theorem witness_TileAndSolverResults_step :
    let u := tickUp.set (F.SV_P_PROG_PRO 31) 2
    u.sv.cur = some 31 ∧ u.headTick 31 = some tick0 ∧ tick0.cycles + (u.stepCycles 31 tick0 tick0.pos + 0) ≤ u.get (F.SV_P_BUDGET 31) ∧ u.running = true ∧ tick0.pos + 1 < u.stepCount 31 :=
  ⟨by decide, by decide, step_affordable _ (by decide) (by decide) (by decide) (by decide), by decide, by decide⟩

/-- Duties, triggers of each kind, pulses and captures. -/
theorem witness_ControlOutputCommandsComplete :
    let s := withF up [(F.IO_PWM_CFG_EN 11, 1), (F.IO_TRG_CFG_EN 15, 1), (F.IO_CAP_CFG_EDGE 15, 3)]
    let p := s.set (F.IO_TRG_CFG_PERIODIC 15) 1
    let u : State := { p with io := { p.io with next := [(15, 0)], pulses := [(15, 0)] } }
    let v : State := { s with io := { s.io with queue := [⟨15, 0, false⟩] } }
    u.flag (F.IO_PWM_CFG_EN 11) = true ∧ u.flag (F.IO_PWM_CFG_PAIR (11 / 2 * 2)) = false ∧ u.running = true ∧ u.flag (F.IO_TRG_CFG_EN 15) = true ∧ u.flag (F.IO_TRG_CFG_PERIODIC 15) = true ∧ assocGet 15 u.io.next = some 0 ∧ 0 ≤ u.cycleNow ∧
      v.running = true ∧ v.flag (F.IO_TRG_CFG_EN 15) = true ∧ v.flag (F.IO_TRG_CFG_PERIODIC 15) = false ∧ v.dueQueued 15 = some ⟨15, 0, false⟩ ∧
      assocGet 15 u.io.pulses = some 0 ∧ 0 ≤ u.now ∧ v.flag (F.IO_TRG_CFG_SRC 15) = false ∧ 10 * v.get (F.IO_CAP_CFG_FILT 15) ≤ 0 ∧ v.edgeEnabled 15 true = true ∧ v.edgeEnabled 15 false = true := by
  decide

/-! ### Witnesses: events -/

/-- The event controller's sources. -/
theorem witness_EventCommandsComplete_sources :
    let s := withF up [(F.EV_S_STAT_STATE 1023, 1), (F.EV_S_COAL_TIME_US 1023, 1)]
    let u : State := { s with ev := { s.ev with starts := [(1023, 0)] }, thy := { s.thy with counter := 1000 } }
    isStatusSource (0x2E : Fin 1024).val = true ∧ up.parked = false ∧ u.get (F.EV_S_STAT_STATE 1023) = 1 ∧ u.get (F.EV_S_COAL_TIME_US 1023) ≠ 0 ∧ assocGet 1023 u.ev.starts = some 0 ∧
      0 + u.get (F.EV_S_COAL_TIME_US 1023) * 1000 ≤ u.thy.counter ∧ up.flag F.EV_GLOBAL = false := by
  decide

/-- The event controller's cores, pins and writes. -/
theorem witness_EventCommandsComplete_cores :
    let u := up.setEvCore 7 ⟨some ⟨1023, 0, false⟩, [1023]⟩
    u.running = true ∧ (u.evCore 7).held = some ⟨1023, 0, false⟩ ∧ (6 : Fin 8) ≠ 7 ∧ cleanWrite (F.EV_C_COMPLETE 7).addr 1023 = true ∧
      (u.evCore 7).active = (1023 : Word).toNat % 1024 :: [] ∧ u.hostReaches ∧ (1 : Word).toNat < 2 ∧ (127 : Word).toNat < 128 := by
  unfold State.hostReaches; decide

/-! ### Witnesses: Chervil -/

/-- Supervision begins, goes on, and a lockstep mismatch. -/
theorem witness_SupervisionCommandsComplete :
    let u := up.setSf (fun f => { f with phase := .supervising })
    up.running = true ∧ up.sf.phase = .off ∧ u.running = true ∧ u.sf.phase = .supervising := by
  decide

/-- A budget stop on a queue whose next command passes it, and the drain of one. -/
theorem witness_SupervisionCommandsComplete_budget :
    let u := listUp loadR
    let c : QCmd := { q5 with cycles := 256 }
    let d : StopDrain := ⟨5, 15, 0, 1, 0⟩
    let v : State := { u with sf := { u.sf with drains := [d] }, tl := { u.tl with reqs := [{ reply 0 with kind := .request, ctx := 0 }] }, thy := { u.thy with counter := 100000 } }
    u.instOn c.eng.val c.q.val = some inst1 ∧ opcodeOf (u.nextCmd inst1) = some .load ∧ inst1.phase = .running ∧ u.sliceHolds inst1 .load (u.nextCmd inst1) = false ∧
      u.ctxHeld (u.runHdr inst1).ctx = false ∧ u.pastBudget inst1 (cycleKeys c.eng.val .load (u.nextCmd inst1)) c.cycles = true ∧ c.ue = none ∧
      v.sf.drains.find? (fun d => d.eng == c.eng.val && d.q == c.q.val) = some d ∧ d.start + 100000 ≤ v.now ∧ v.ctxReqs (some d.ctx) ≠ [] := by
  decide

/-- Result deadlines met and missed, a clock, a voltage and a temperature. -/
theorem witness_SupervisionCommandsComplete_monitors :
    let u := withF up [(F.FU_RS_STAT_STATE 3, 2), (F.FU_RS_L 3, 0), (F.PW_DOM_ON_LO, 0xFFFFFFFF), (F.PW_DOM_ON_HI, 0xFFFFFF)]
    let v := u.putSet 3 { FuSet.zero with next := 1 }
    u.running = true ∧ u.sf.phase ≠ .fault ∧ u.rsRuns 3 = true ∧ u.instant 3 (u.fuSet 3).check + u.get (F.FU_RS_L 3) ≤ u.now ∧ (u.fuSet 3).next ≤ (u.fuSet 3).check ∧
      v.rsRuns 3 = true ∧ v.instant 3 (v.fuSet 3).check + v.get (F.FU_RS_L 3) ≤ v.now ∧ (v.fuSet 3).check < (v.fuSet 3).next ∧
      u.islandClock 157 = some (43, 25000) ∧ u.domainOn 43 = true ∧ u.domainOn 55 = true ∧ 1000 < 20 * (1000 - 949) + 20 * (949 - 1000) ∧ ((u.get F.SF_TJ_MAX : Nat) : Int) < 106 := by
  decide

/-- Shadow runs, golden runs, slices. -/
theorem witness_RedundancyCommandsComplete :
    let s := (withF up [(F.SF_CFG_ST_EN, 1)]).setSf (fun f => { f with phase := .supervising })
    let x : ShadowRun := ⟨3, 0, [0]⟩
    let g : GoldRun := ⟨0, true, false⟩
    let sl : Slice := ⟨8, none, 0⟩
    let u := s.setSf (fun f => { f with shadow := [x], golden := some g })
    let v := (s.setSf (fun f => { f with slices := [sl] })).setThy (fun t => { t with counter := 10 ^ 12 })
    u.running = true ∧ u.sf.shadow.find? (fun x => x.rs == 3) = some x ∧ u.supervising = true ∧ u.shadowReady x = true ∧ u.sf.golden = some g ∧ g.running = true ∧
      u.flag F.SF_CFG_ST_EN = true ∧ assocGet 8 u.sf.tries = none ∧ u.sf.slices = [] ∧ v.running = true ∧ v.sf.slices.find? (fun x => x.zone == 8) = some sl ∧
      sl.start + v.get F.SF_ST_SLICE * 1000 < v.now := by
  decide
/-! ### Witnesses: recovery -/

/-- Hangs of a queue and of a result set. -/
theorem witness_RecoveryCommandsComplete_hangs :
    let u := (listUp loadR).setThy (fun t => { t with counter := 10 ^ 12 })
    let v := (up.set (F.FU_RS_STAT_STATE 3) 2).setThy (fun t => { t with counter := 10 ^ 12 })
    u.running = true ∧ u.instOn 5 15 = some inst1 ∧ inst1.phase = .running ∧ inst1.wait = none ∧ inst1.progressAt + u.get F.RC_HANG_MS * 1000000 ≤ u.now ∧
      u.ctxHeld (u.runHdr inst1).ctx = false ∧ v.running = true ∧ v.rsRuns 3 = true ∧ v.rc.fusionHeld = false ∧ v.rc.devReset = none ∧
      v.instant 3 (v.fuSet 3).k + v.get (F.FU_RS_H 3) + v.get F.RC_HANG_MS * 1000000 ≤ v.now := by
  decide

/-- Context and partition resets: drains, windows, completions, requests, records. -/
theorem witness_RecoveryCommandsComplete_resets :
    let x : CtxReset := ⟨63, 0, 0, true, []⟩
    let p : PartReset := ⟨11, 0, 0, true, [], true, false⟩
    let j : CrashJob := ⟨63, none, [], [], 0, [], []⟩
    let s := withF up [(F.RC_CTX_STAT_STATE 63, 1), (F.GLB_STATUS_COLS, 1), (F.GLB_PART_LO, 11)]
    let u : State := { s with rc := { s.rc with ctxs := [x], parts := [p], jobs := [j] }, thy := { s.thy with counter := 10 ^ 12 } }
    u.ctxReset? 63 = some x ∧ u.get (F.RC_CTX_STAT_STATE 63) = 1 ∧ x.start + 100000 ≤ u.now ∧ x.start + u.get F.RC_CTX_WINDOW * 1000 ≤ u.now ∧ x.settled = true ∧
      u.covered 63 = false ∧ u.running = true ∧ cleanWrite F.RC_CTX_REQ_CTX.addr 0x8000003F = true ∧ bitOf (0x8000003F : Word).toNat 31 = true ∧
      cleanWrite F.RC_PART_REQ_PART.addr 0x8000000B = true ∧ bitOf (0x8000000B : Word).toNat 31 = true ∧ bitsOf (0x8000000B : Word).toNat 0 4 < 12 ∧
      u.tilesOfPart (bitsOf (0x8000000B : Word).toNat 0 4) ≠ [] ∧ u.partReset? 11 = some p ∧ p.cleared = true ∧ p.settled = true ∧ p.start + u.get F.RC_PART_WINDOW * 1000000 ≤ u.now ∧
      cleanWrite F.RC_CR_DONE.addr 63 = true ∧ u.rc.jobs.find? (fun j => j.slot == bitsOf (63 : Word).toNat 0 6) = some j := by
  decide

/-- A job abort and a backstop. -/
theorem witness_RecoveryCommandsComplete_job :
    let s := withF up [(F.LK_JOB_CFG_SIZE, 7), (F.FU_RS_STAT_STATE 3, 2), (F.RC_CFG_JOB_RS, 3)]
    let u : State := { s with rc := { s.rc with heard := [(7, 0)] }, thy := { s.thy with counter := 10 ^ 12 } }
    u.running = true ∧ u.inJob = true ∧ (0 : Word).toNat ≠ jobLeave ∧ u.backstopDue 7 = true := by
  decide

/-! ### Witnesses: boot and power -/

/-- A start with nothing wrong. -/
def boot0 : BootInputs := ⟨true, 6, true, none, none, ⟨[], [], [], []⟩, none, none, 0⟩

/-- An attempt in step `k` of the boot, long begun. -/
def stepUp (k : Nat) : State := (State.reset.setBt (fun b => { b with step := k, inReset := false })).setThy (fun t => { t with counter := 10 ^ 12 })

/-- Starts, boot steps, the retry hold. -/
theorem witness_BootCommandsComplete_boot :
    let h := State.reset.setBt (fun b => { b with hold := some 0 })
    let v := h.setThy (fun t => { t with counter := 10 ^ 8 })
    State.reset.rc.devReset = none ∧ State.reset.bt.inReset = true ∧ (10000 : Nat) ≤ 10000 ∧ (999 : Nat) < 1000 ∧
      (stepUp 8).bt.step ≠ 0 ∧ (stepUp 8).bt.start + (stepUp 8).watchdogMs * 1000000 ≤ (stepUp 8).thy.counter ∧ (stepUp 1).bt.step = 1 ∧ (stepUp 1).bt.resuming = false ∧
      (stepUp 1).bt.start + 10000000 ≤ (stepUp 1).thy.counter ∧ v.bt.hold = some 0 ∧ 0 + 100000000 ≤ v.thy.counter := by
  decide

/-- Minimal mode, the flash, attestation. -/
theorem witness_BootCommandsComplete_minimal :
    let m := State.reset.set F.GLB_STATUS_MINIMAL 1
    let n := m.setBt (fun b => { b with nvmJob := some (3, 0x10000, []) })
    m.minimal = true ∧ m.flag F.BT_MIN_STAT_BUSY = false ∧ n.bt.nvmJob = some (3, 0x10000, []) ∧ up.hostReaches ∧ up.locked = true ∧ up.flag F.BT_ATT_STAT_BUSY = false ∧
      up.running = true ∧ (up.set F.BT_ATT_STAT_BUSY 1).running = true ∧ (up.set F.BT_ATT_STAT_BUSY 1).flag F.BT_ATT_STAT_BUSY = true := by
  unfold State.hostReaches; decide

/-- Parks requested, and a drain at its limit. -/
theorem witness_PowerCommandsComplete_park :
    let u := (listUp loadR).set F.PW_STATUS_STATE 1
    let v := u.setThy (fun t => { t with counter := 10 ^ 13 })
    up.hostReaches ∧ up.locked = true ∧ cleanWrite F.PW_PARK_REQ_GO.addr 0x504B0001 = true ∧ bitsOf (0x504B0001 : Word).toNat 16 16 = 0x504B ∧
      bitOf (0x504B0001 : Word).toNat 0 = true ∧ up.parking = false ∧ up.running = true ∧ v.parking = true ∧ v.cl.insts ≠ [] ∧ v.pw.parkAt + v.get F.PW_DRAIN * 1000000 ≤ v.now := by
  unfold State.hostReaches; decide

/-- Alarms, comparators, wake latches, the reference, the PLLs. -/
theorem witness_PowerCommandsComplete :
    let u := withF up [(F.PW_ALARM_STAT_ARMED 3, 1), (F.PW_CMP_CFG_EN 3, 1)]
    let w := up.set F.PW_STATUS_STATE 1
    let r := State.reset.set F.PW_PLL_STAT_LOCK 0x3F
    u.flag (F.PW_ALARM_STAT_ARMED 3) = true ∧ u.parked = false ∧ u.running = true ∧ u.get64 (F.PW_ALARM_LO 3) (F.PW_ALARM_HI 3) ≤ u.cycleNow ∧
      u.passedByStep (u.get64 (F.PW_ALARM_LO 3) (F.PW_ALARM_HI 3)) = false ∧ u.flag (F.PW_CMP_CFG_EN 3) = true ∧ u.flag (F.PW_CMP_STAT_LEVEL 3) ≠ true ∧
      ((u.setFlag (F.PW_CMP_STAT_LEVEL 3) true).incSat (F.PW_CMP_STAT_CROSSINGS 3)).parked = false ∧
      w.parking = true ∧ w.pw.lovageOnly = false ∧ w.latchFalls 63 ≠ true ∧ w.latchWakes 63 = false ∧ up.thy.refPresent = true ∧ up.parked = false ∧
      bitOf (r.get F.PW_PLL_STAT_LOCK) 5 = true ∧ r.running = false := by
  decide

/-! ### Witnesses: host port and links -/

/-- The CRC a transaction has to bring. -/
def crcOf (op a : Nat) (data : Bytes) : BitVec 16 := BitVec.ofNat 16 (hostCrc op a data)

/-- Register reads at the top of the control map. -/
theorem witness_HostPortCommandsComplete_reads :
    up.hostReaches ∧ up.hp.reading = none ∧ (0x14FFFC : Word).toNat % 4 = 0 ∧ (0x14FFFC : Word).toNat < 0x150000 ∧ (crcOf 0x0B 0x14FFFC []).toNat = hostCrc 0x0B (0x14FFFC : Word).toNat [] ∧
      (0x14FFC0 : Word).toNat % 64 = 0 ∧ (0x14FFC0 : Word).toNat < 0x150000 ∧ (crcOf 0x0C 0x14FFC0 []).toNat = hostCrc 0x0C (0x14FFC0 : Word).toNat [] ∧
      (0x14FF00 : Word).toNat % 256 = 0 ∧ (0x14FF00 : Word).toNat < 0x150000 ∧ (crcOf 0x0D 0x14FF00 []).toNat = hostCrc 0x0D (0x14FF00 : Word).toNat [] ∧
      (0x14F000 : Word).toNat % 4096 = 0 ∧ (0x14F000 : Word).toNat < 0x150000 ∧ (crcOf 0x0E 0x14F000 []).toNat = hostCrc 0x0E (0x14F000 : Word).toNat [] := by
  unfold State.hostReaches; decide

/-- A window read, writes allowed and refused, SETWIN, WRESET. -/
theorem witness_HostPortCommandsComplete_writes :
    let u := withF up [(F.GLB_STATUS_COLS, 1)]
    let a : Word := BitVec.ofNat 32 F.TB_RELOCK_ARM_KEY.addr
    u.hostReaches ∧ u.hp.reading = none ∧ (0x80000000 : Nat) ≤ (0x80000000 : Word).toNat ∧ (0x80000000 : Word).toNat % 4 = 0 ∧
      (∀ i < 4, (u.toLocal (u.get F.HP_WIN_BASE * 2 ^ 31 + ((0x80000000 : Word).toNat - 0x80000000) + i)).isSome = true) ∧
      (crcOf 0x0B 0x80000000 []).toNat = hostCrc 0x0B (0x80000000 : Word).toNat [] ∧ u.locked = true ∧ hostMayWrite a.toNat = true ∧ a.toNat < 0x150000 ∧ a.toNat % 4 = 0 ∧
      (crcOf 0x02 a.toNat (leBytes 4 0)).toNat = hostCrc 0x02 a.toNat (leBytes 4 (0 : Word).toNat) ∧ hostMayWrite (0 : Word).toNat = false ∧ (0 : Word).toNat < 0x150000 ∧ (0 : Word).toNat % 4 = 0 ∧
      (crcOf 0x02 0 (leBytes 4 0)).toNat = hostCrc 0x02 (0 : Word).toNat (leBytes 4 (0 : Word).toNat) ∧ (511 : Word).toNat < 512 ∧ (crcOf 0x10 511 []).toNat = hostCrc 0x10 (511 : Word).toNat [] ∧
      (0x57525354 : Word).toNat = 0x57525354 ∧ u.running = true ∧ (crcOf 0x99 0x57525354 []).toNat = hostCrc 0x99 (0x57525354 : Word).toNat [] := by
  unfold State.hostReaches; decide

/-- A part whose ring of set 3 has one slot of 4 KiB, which holds sequence number 0. -/
def ringUp : State :=
  let s := withF (listUp []) [(F.HP_RING_CFG_SLOTS 3, 1), (F.HP_RING_CFG_SLOT_4K 3, 1), (F.HP_RING_DESC 3, 1)]
  { s with hp := { s.hp with slots := [(3, 0, 0)] } }

/-- Result reads at the end of a slot and of a whole slot; a release. -/
theorem witness_HostPortCommandsComplete_results :
    let a : Word := BitVec.ofNat 32 (0x31000000 + 4032)
    let b : Word := 0x31000000
    ringUp.hostReaches ∧ ringUp.hp.reading = none ∧ ringOf a.toNat = some 3 ∧ ringUp.get (F.HP_RING_CFG_SLOT_4K 3) * 4096 = 4096 ∧ (a.toNat - (0x01000000 + 3 * 0x10000000)) / 4096 = 0 ∧ a.toNat % 4 = 0 ∧
      0 < ringUp.get (F.HP_RING_CFG_SLOTS 3) ∧ ringUp.slotSeq 3 0 = some 0 ∧ ringUp.slotAddr 3 0 = some 0x6100 ∧
      (a.toNat - (0x01000000 + 3 * 0x10000000)) % 4096 + 64 ≤ 4096 ∧ (crcOf 0x1A a.toNat []).toNat = hostCrc 0x1A a.toNat [] ∧
      ringOf b.toNat = some 3 ∧ (b.toNat - (0x01000000 + 3 * 0x10000000)) / 4096 = 0 ∧ b.toNat % 4 = 0 ∧
      (b.toNat - (0x01000000 + 3 * 0x10000000)) % 4096 + 4096 ≤ 4096 ∧ (crcOf 0x1B b.toNat []).toNat = hostCrc 0x1B b.toNat [] ∧
      ringUp.locked = true ∧ ringUp.slotSeq 3 (ringUp.slotOf 3 (0 : Word).toNat) = some (0 : Word).toNat := by
  unfold State.hostReaches; decide

/-- No byte of those DRAM reads lies in a word that is faulty. -/
theorem witness_HostPortCommandsComplete_faulty :
    (∀ i < 4, (withF up [(F.GLB_STATUS_COLS, 1)]).faultyDram ((withF up [(F.GLB_STATUS_COLS, 1)]).get F.HP_WIN_BASE * 2 ^ 31 + ((0x80000000 : Word).toNat - 0x80000000) + i) 1 = none) ∧
      (∀ i < 64, ringUp.faultyDram (0x6100 + (BitVec.ofNat 32 (0x31000000 + 4032) - 0x31000000 : Word).toNat % 4096 + i) 1 = none) ∧
      (∀ i < 4096, ringUp.faultyDram (0x6100 + (0x31000000 - 0x31000000 : Word).toNat % 4096 + i) 1 = none) := by
  refine ⟨fun i _ => ?_, fun i _ => ?_, fun i _ => ?_⟩ <;> rfl

/-- Opcodes unknown and with a wrong inverse; the arm of a refused jump. -/
theorem witness_HostPortCommandsComplete_arm :
    let u := withF up [(F.TB_JUMP_REFUSED_JUMP_ID, 0xFFFF), (F.TB_JUMP_REFUSED_PENDING, 1), (F.TB_CFG_POLICY, 2)]
    knownOpcode 0x03 = false ∧ (0x00 : Byte) ≠ ~~~(0x0B : Byte) ∧ u.hostReaches ∧ u.hp.reading = none ∧ u.locked = true ∧ (0xA5C3FFFF : Word).toNat / 2 ^ 16 = 0xA5C3 ∧
      (0xA5C3FFFF : Word).toNat % 2 ^ 16 = u.get F.TB_JUMP_REFUSED_JUMP_ID ∧ u.flag F.TB_JUMP_REFUSED_PENDING = true ∧ u.get F.TB_CFG_POLICY = 2 := by
  unfold State.hostReaches; decide

/-- A data flit with sequence number `n`. -/
def flitN (n : Nat) : Bytes := flitBytes ⟨0, 7, 0, zerosB 256, [0, 0, 0]⟩ n 4095

/-- Flits in and out of sequence, timeouts, links down and trained, stores of control cores. -/
theorem witness_LinkAndCoreCommandsComplete :
    let s := withF up [(F.LK_L_STAT_STATE 3, 2), (F.LK_JOB_CFG_SIZE, 1)]
    let u : State := s.setLk (fun k => { k with links := setAt k.links 3 { LinkState.zero with unacked := [(0, ⟨0, 1, 0, zerosB 256, [0, 0, 0]⟩)] } })
    let v := (u.set (F.LK_L_STAT_STATE 3) 1).setThy (fun t => { t with counter := 10 ^ 12 })
    let w := v.setLk (fun k => { k with startFrom := some 0 })
    s.linkUp 3 = true ∧ flitIntact (flitN 0) = true ∧ (flitOf (flitN 0)).cls ≠ 3 ∧ flitSeq (flitN 0) = (s.link 3).expect ∧
      flitIntact (flitN 4095) = true ∧ (flitOf (flitN 4095)).cls ≠ 3 ∧ flitSeq (flitN 4095) ≠ (s.link 3).expect ∧
      u.linkUp 3 = true ∧ (u.link 3).unacked = [(0, ⟨0, 1, 0, zerosB 256, [0, 0, 0]⟩)] ∧ (u.link 3).quiet + 10000 ≤ (u.setThy (fun t => { t with counter := 10000 })).now ∧
      v.get (F.LK_L_STAT_STATE 3) = 1 ∧ v.neighbour 3 < 8 ∧ v.imageId = 0 ∧ w.lk.startFrom = some 0 ∧ w.running = true ∧ w.inJob = true ∧ 0 + w.get F.LK_START_MS * 1000000 ≤ w.now ∧
      mapped F.TB_RATE_NEXT.addr = true ∧ coreMayWrite F.TB_RATE_NEXT.addr = true ∧ cleanWrite F.TB_RATE_NEXT.addr 5 = true ∧ mapped 0 = true ∧ coreMayWrite 0 = false := by
  decide
/-! ### Witnesses: rules of one operation, frames, invariants -/

/-- A queue with a command in front, and an empty one. -/
theorem witness_StepRunsFrontCommand :
    ({ up with pending := [.referenceLoss 0, .referenceRestored 0] } : State).pending = .referenceLoss 0 :: [.referenceRestored 0] ∧ up.pending = [] := by
  decide

/-- A state whose pins agree, and a step from it. -/
theorem witness_StepKeepsPinsAgree : PinsAgree up ∧ step up = .next up := by
  have h : ∀ src < 1024, up.get (F.EV_S_CFG_HOST src) = 0 := by decide
  refine ⟨⟨by decide, by decide, ⟨fun e => absurd e (by decide), ?_⟩, ⟨fun e => absurd e (by decide), ?_⟩, by decide⟩, rfl⟩
  · rintro ⟨src, h1, h2, _⟩; rw [h src h1] at h2; omega
  · rintro ⟨src, h1, h2, _⟩; rw [h src h1] at h2; omega

/-- A part of 144 tiles, and the ends of the striped window. -/
theorem witness_StripedAddressMap :
    (State.reset.set F.GLB_STATUS_COLS 12).tiles = 144 ∧ 0x1000000000 ≤ 0x1000000000 + 144 * 2 ^ 28 - 1 ∧ 0x1000000000 + 144 * 2 ^ 28 - 1 < 0x1000000000 + 144 * 2 ^ 28 ∧
      (State.reset.set F.GLB_STATUS_COLS 12).toLocal 0x1000000000 = some 0 := by
  decide

/-- Two addresses with one local address, which are equal. -/
theorem witness_StripedMapInjective :
    let u := State.reset.set F.GLB_STATUS_COLS 1
    0x1000000000 ≤ 0x1000000FFF ∧ u.toLocal 0x1000000FFF = some 0xFFF ∧ u.toLocal 0x1000000FFF = some 0xFFF := by
  decide

/-- Bytes in the linear window below the striped one, and in the striped window. -/
theorem witness_DramWriteReadsBack :
    let u := State.reset.set F.GLB_STATUS_COLS 12
    (∀ i < [(1 : Byte), 2].length, (u.toLocal (0x900000000 - 2 + i)).isSome = true) ∧ 0x900000000 - 2 + [(1 : Byte), 2].length ≤ 0x1000000000 ∧
      (∀ i < [(1 : Byte), 2].length, (u.toLocal (0x1000000FFF + i)).isSome = true) ∧ 0x1000000000 ≤ 0x1000000FFF ∧
      (∀ i < [(1 : Byte), 2].length, u.toLocal 0 ≠ u.toLocal (0x1000000FFF + i)) := by
  decide

/-- Equal values, values half a range apart, and others. -/
theorem witness_SerialComparisonTotal :
    (0 : Nat) < 8 ∧ 255 < 2 ^ 8 ∧ 127 < 2 ^ 8 ∧ (255 + 2 ^ 8 - 127) % 2 ^ 8 = 2 ^ (8 - 1) ∧ 255 ≠ 0 ∧ (255 + 2 ^ 8 - 0) % 2 ^ 8 ≠ 2 ^ (8 - 1) := by
  decide

/-- A rate commit that is not refused. -/
theorem witness_RateCommitKeepsDeviceTime :
    let u := up.setThy (fun t => { t with lastMeas := some 0 })
    u.running = true ∧ u.rateCode = 0 := by
  decide

/-- The fastest rate over a span of the counter. -/
theorem witness_DeviceTimeRises :
    let t : Triple := ⟨0, 0, -2 ^ 31, 5⟩
    t.rate.natAbs ≤ 2 ^ 31 ∧ t.anchor ≤ 5 ∧ 5 + 1000000 < t.anchor + 2 ^ 63 ∧ 5 + 1000000 < 2 ^ 64 ∧
      0 ≤ ((5 : Nat) : Int) + t.offInt + t.sum 5 / 2 ^ 40 ∧ ((5 + 1000000 : Nat) : Int) + t.offInt + t.sum (5 + 1000000) / 2 ^ 40 < 2 ^ 64 := by
  decide

/-- A core and the host read capture 15; other requesters and captures. -/
theorem witness_CaptureReadsLatch :
    up.running = true ∧ up.hostReaches ∧ ((0 : Nat) ≠ 15 ∧ (14 : Nat) < 16 ∧ (8 : Nat) ≠ 0) := by
  unfold State.hostReaches; decide

/-- Source 1023 enabled and counting; another source. -/
theorem witness_OccurrenceCounts :
    let s := withF up [(F.EV_S_CFG_EN 1023, 1), (F.EV_S_STAT_STATE 1023, 1)]
    1023 < 1024 ∧ s.flag (F.EV_S_CFG_EN 1023) = true ∧ s.get (F.EV_S_STAT_STATE 1023) ≤ 1 ∧ 0 < 1024 ∧ 0 ≠ 1023 := by
  decide

/-- Coordinates at the edges, in zone 0 and in zone 1, and two in one zone. -/
theorem witness_MortonKey :
    let s := State.reset.set F.PT_ZONE_CFG 1
    2 ^ 21 - 1 < 2 ^ 21 ∧ (0 : Nat) < 2 ^ 21 ∧ (20 : Nat) < 21 ∧ s.zoneOf [0, 0, 0] = 0 ∧ s.zoneOf [2 ^ 21 - 1, 0, 0] = 1 ∧
      s.zoneOf [2 ^ 21 - 1, 0, 0] = s.zoneOf [0, 2 ^ 21 - 1, 2 ^ 21 - 1] := by
  decide

/-- Another record's words; a record of the same device time that R82 puts before the one there is, and one that it puts after it. -/
theorem witness_ViolationRecordInRing :
    let v := up.violation 0x13 0x71 []
    let b := v.ringRecord (F.HP_VR 0).addr ((v.get F.HP_VR_IDX_NEXT + 63) % 64)
    let w := fun code : Byte => wordsOf 4 (leBytes 8 v.now ++ [0x13, code] ++ sliceB [] 0 6)
    255 < 256 ∧ 255 / 4 ≠ up.get F.HP_VR_IDX_NEXT ∧ b.take 2 = (w 0x70).take 2 ∧ violationOrder (w 0x70) < violationOrder b ∧ v.get F.HP_VR_IDX_TOTAL ≠ 0 ∧
      ¬ (b.take 2 = (w 0x72).take 2 ∧ violationOrder (w 0x72) < violationOrder b) := by
  decide

/-- Run state with the phase Fault and without; an enabled PWM output. -/
theorem witness_LockstepMismatchIsFatal :
    let u := up.set (F.IO_PWM_CFG_EN 11) 1
    let v := up.setSf (fun f => { f with phase := .fault })
    u.running = true ∧ u.sf.phase ≠ .fault ∧ 11 < 12 ∧ u.flag (F.IO_PWM_CFG_EN 11) = true ∧ v.running = true ∧ v.sf.phase = .fault := by
  decide

/-- FAULT_N is asserted at reset. -/
theorem witness_FaultHoldsPwmPins : State.reset.flag F.SF_STATUS_FAULT = true := by decide

/-- The last fence, a later value and one that is not, in a cycle without a set, after one that left the fence and after one that moved it. -/
theorem witness_FenceSignals :
    let u := up.fenceSet 4095 0
    let v := up.fenceSet 4095 5
    (4095 : Nat) < 4096 ∧ 2 ^ 63 - 1 < 2 ^ 64 ∧ serialLater 64 (2 ^ 63 - 1) (up.fence 4095) = true ∧ serialLater 64 0 (up.fence 4095) = false ∧ (0 : Nat) < 4096 ∧ 0 ≠ 4095 ∧
      up.setNow 4095 = none ∧ u.setNow 4095 = some true ∧ serialLater 64 5 (u.fence 4095) = true ∧ serialLater 64 0 (u.fence 4095) = false ∧
      v.setNow 4095 = some false ∧ serialLater 64 6 (v.fence 4095) = true ∧ serialLater 64 4 (v.fence 4095) = false := by
  decide

/-- The last semaphore, and another. -/
theorem witness_SemaphoreRelease : (255 : Nat) < 256 ∧ (0 : Nat) < 256 ∧ 0 ≠ 255 := by decide

/-- A flit with every field at its largest value. -/
theorem witness_FlitRoundTrip :
    let f : LinkFlit := ⟨255, 7, 7, List.replicate 256 0xFF, [15, 15, 15]⟩
    f.cls < 256 ∧ f.src < 8 ∧ f.dst < 8 ∧ f.payload.length = 256 ∧ f.back = [15, 15, 15] ∧ 15 < 16 ∧ 4095 < 4096 := by
  decide

/-- The flash's three operations in progress. -/
theorem witness_NvmCommands :
    (State.reset.setBt (fun b => { b with nvmJob := some (2, 0x10000, [1]) })).bt.nvmJob = some (2, 0x10000, [1]) ∧
      (State.reset.setBt (fun b => { b with nvmJob := some (3, 0x10000, [1]) })).bt.nvmJob = some (3, 0x10000, [1]) ∧
      (State.reset.setBt (fun b => { b with nvmJob := some (1, 0x10000, [1]) })).bt.nvmJob = some (1, 0x10000, [1]) := by
  decide

/-- A buffer at the end of a tile's SRAM, leaving and returning. -/
theorem witness_SpillMovesBytes :
    (bufUp .leaving).bufAt 11 (0x300000 - 64) = some (bufX .leaving) ∧ (bufX .leaving).ofs + (bufX .leaving).len ≤ sramSize ∧ (bufX .leaving).phase = .leaving ∧
      11 < (bufUp .leaving).tiles ∧ (bufUp .leaving).spillAddr 11 (bufX .leaving).spill + (bufX .leaving).len ≤ (11 + 1) * 2 ^ 28 ∧
      (bufUp .returning).bufAt 11 (0x300000 - 64) = some (bufX .returning) ∧ (bufX .returning).ofs + (bufX .returning).len ≤ sramSize ∧ (bufX .returning).phase = .returning := by
  decide

/-- Buckets at their capacities. -/
theorem witness_RefillWithinCapacities : let cap := fun i : Nat => i + 1; (1 : Int) ≤ cap 0 ∧ (2 : Int) ≤ cap 1 ∧ (3 : Int) ≤ cap 2 ∧ (4 : Int) ≤ cap 3 := by decide

/-- Three sources at the ends of the range, in another order. -/
theorem witness_MedianOrderFree :
    let v := fun j : Nat => ([-2 ^ 31, 2 ^ 31 - 1, 0] : List Int).getD j 0
    (∀ j ∈ [0, 1, 2], -2 ^ 31 ≤ v j ∧ v j < 2 ^ 31) ∧ [0, 1, 2] ≠ [] ∧ [0, 1, 2].Perm [2, 0, 1] := by
  decide

/-- A sum at the end of the range. -/
theorem witness_IntegerAccumulation : (-2 ^ 31 : Int) ≤ 2 ^ 31 - 1 ∧ (2 ^ 31 - 1 : Int) < 2 ^ 31 := by decide

/-- The last elements of blocks, and an MX type with its format. -/
theorem witness_SubBytePacking :
    14 < 15 ∧ 15 < 16 ∧ 9 < 10 ∧ 31 < 32 ∧ ElemType.mxe4m3.isMx = true ∧ (∃ f, ElemType.mxe4m3.fmt = some f) ∧ 254 < 255 := by
  refine ⟨by decide, by decide, by decide, by decide, by decide, ⟨_, rfl⟩, by decide⟩

/-- Coordinates below, inside and beyond a tensor of 16 elements. -/
theorem witness_LoadCoordinatesClamped :
    let d := Desc.ofBytes ([0x81] ++ zerosB 15 ++ [16] ++ zerosB 47)
    5 < 6 ∧ ([-1] : List Int).getD 0 0 < 0 ∧ ((d.range 0 : Nat) : Int) ≤ ([16] : List Int).getD 0 0 ∧ 0 ≤ ([15] : List Int).getD 0 0 ∧ ([15] : List Int).getD 0 0 < ((d.range 0 : Nat) : Int) := by
  decide

/-- An attempt in the last step of the boot. -/
theorem witness_BootFailureHolds : (stepUp 8).bt.step ≠ 0 ∧ (stepUp 8).bt.step ≤ 8 := by decide

/-- Result sets have started, and a measurement of 0 is within the limit. -/
theorem witness_ThymeCommandFrame :
    let u := up.set F.TB_STATUS_STARTED 1
    (u.elapse 0).flag F.TB_STATUS_STARTED = true ∧
      (signedOf 64 (((u.elapse 0).set F.TB_MEAS_HI (0 : Word).toNat).get64 F.TB_MEAS_LO F.TB_MEAS_HI)).natAbs ≤ (u.elapse 0).get F.TB_JUMP_NS := by
  decide

/-- Stores refused for the register, for a bit and for an unmapped address, and one that changes its register alone. -/
theorem witness_StoreFrame :
    coreMayWrite 0 = false ∧ cleanWrite F.RC_CR_DONE.addr 0xFFFFFFFF = false ∧ mapped 0x00200000 = false ∧ mapped F.TB_RATE_NEXT.addr = true ∧
      ((up.elapse 0).storeSingle 7 F.TB_RATE_NEXT.addr 5).isNone = true ∧ ((up.elapse 0).storeArray 7 F.TB_RATE_NEXT.addr 5).isNone = true ∧
      coreMayWrite F.TB_RATE_NEXT.addr = true ∧ cleanWrite F.TB_RATE_NEXT.addr 5 = true := by
  decide

/-- A host read below the DRAM window, with no result read open. -/
theorem witness_HostReadFrame : (0x7FFFFFFC : Word).toNat < 0x80000000 ∧ State.reset.hp.reading = none := by decide

/-- A tile's sample with and without a change under way, the end of a change, a spill above HIGH and one within the same spell above it. -/
theorem witness_TileAndSolverResults_tiles :
    let u := withF up [(F.GLB_STATUS_COLS, 1)]
    let c : State := { u with tl := { u.tl with opChanges := [⟨11, 2, 0⟩] }, thy := { u.thy with counter := 1500 } }
    let s := (bufUp .present).set F.TL_SPILL_CFG_HIGH 0
    let v : State := { s with tl := { s.tl with above := [11] } }
    u.running = true ∧ 11 < u.tiles ∧ u.tl.opChanges.find? (fun c => c.tile == 11) = none ∧ c.running = true ∧ c.tl.opChanges.find? (fun c => c.tile == 11) = some ⟨11, 2, 0⟩ ∧ 0 + 1500 ≤ c.now ∧
      s.running = true ∧ markBytes (s.get F.TL_SPILL_CFG_HIGH) < s.sramAfter 11 ∧ assocGet 11 s.tl.stalls = none ∧ s.tl.above.contains 11 = false ∧
      v.running = true ∧ markBytes (v.get F.TL_SPILL_CFG_HIGH) < v.sramAfter 11 ∧ assocGet 11 v.tl.stalls = none ∧ v.tl.above.contains 11 = true ∧
      (bufUp .leaving).running = true ∧ (bufUp .leaving).bufAt 11 (0x300000 - 64) = some (bufX .leaving) ∧ (bufX .leaving).phase = .leaving ∧
      (bufUp .returning).running = true ∧ (bufUp .returning).bufAt 11 (0x300000 - 64) = some (bufX .returning) ∧ (bufX .returning).phase = .returning := by
  decide

/-- A row at the limit in a layer whose spare rows are all used, with or without a spare before; a scrub; a request, a reply of another generation, a reply too old. -/
theorem witness_TileAndSolverResults_vaults :
    let u := up.set F.TL_SCRUB_CFG 1
    let v : State := { up with tl := { up.tl with rowCe := [(rowKey 143 3 7, 8)] } }
    let x : State := { v with tl := { v.tl with rowsUsed := [(4 * 143 + 3, Config.spareRows 143 3)] } }
    let w := up.setThy (fun t => { t with counter := 2000000 })
    let q := { reply 0 with kind := .request }
    let g := { reply 0 with gen := 1 }
    v.running = true ∧ v.get F.TL_CE_LIMIT ≤ (assocGet (rowKey 143 3 7) v.tl.rowCe).getD 0 ∧ rowKey 143 3 7 ∉ v.tl.denied ∧
      x.running = true ∧ x.get F.TL_CE_LIMIT ≤ (assocGet (rowKey 143 3 7) x.tl.rowCe).getD 0 ∧ rowKey 143 3 7 ∉ x.tl.denied ∧ u.running = true ∧ u.get F.TL_SCRUB_CFG ≠ 0 ∧
      up.running = true ∧ up.tl.early = [] ∧ q.kind = .request ∧ q.seqNo.toNat = up.flowDue (msgFlow q) ∧
      g.kind = .reply ∧ g.seqNo.toNat = up.flowDue (msgFlow g) ∧ up.tooOld g = false ∧ g.gen.toNat ≠ up.genOf g.part.val ∧
      w.running = true ∧ w.tl.early = [] ∧ (reply 0).seqNo.toNat = w.flowDue (msgFlow (reply 0)) ∧ w.tooOld (reply 0) = true := by
  decide

/-- No spare is left where every one is used. -/
theorem witness_TileAndSolverResults_spares :
    let x : State := { up with tl := { up.tl with rowsUsed := [(4 * 143 + 3, Config.spareRows 143 3)] } }
    x.sparesLeft 143 3 = 0 := by
  show Config.spareRows 143 3 - Config.spareRows 143 3 = 0
  omega

/-- Ticks: one that arises, one whose inputs are there, one short; and a stop; steps are in `witness_TarragonCommandsComplete_step` and `witness_TileAndSolverResults_step`. -/
theorem witness_TileAndSolverResults_ticks :
    let v := withF tickUp [(F.SV_P_IN_HI 31, 0x8000), (F.SV_P_WAIT 31, 0)]
    let e := tickUp.putProb 31 { SvProb.zero with t0 := some 0 }
    tickUp.running = true ∧ (tickUp.prob 31).t0 = some 0 ∧ 0 + (tickUp.prob 31).next * tickUp.get (F.SV_P_PERIOD 31) ≤ tickUp.now ∧
      e.running = true ∧ (e.prob 31).t0 = some 0 ∧ 0 + (e.prob 31).next * e.get (F.SV_P_PERIOD 31) ≤ e.now ∧ (e.prob 31).ticks = [] ∧
      tickUp.headTick 31 = some tick0 ∧ tick0.ready = false ∧ tickUp.inputsPast 31 tick0.t = true ∧
      v.running = true ∧ v.headTick 31 = some tick0 ∧ v.inputsPast 31 tick0.t = false ∧ tick0.t + v.get (F.SV_P_WAIT 31) ≤ v.now ∧ tickUp.sv.cur = some 31 := by
  decide

end Sys2Proof.Tests
end

section
/-! The striped view's address map (R27). -/

namespace Sys2Proof.Proofs
open Sys2Proof Sys2Proof.Machine Sys2Proof.Laws

/-- The offset in a vault of a striped address of a part with `v` tiles stays below the vault's `2 ^ 28` bytes. -/
theorem stripe_offset_lt {v d : Nat} (h : d < v * 2 ^ 28) : d / 4096 / v * 4096 + d % 4096 < 2 ^ 28 := by
  have hpage : d / 4096 / v < 2 ^ 16 := by
    rw [Nat.div_div_eq_div_mul]
    exact Nat.div_lt_of_lt_mul (h.trans_eq (by ring))
  omega

/-- R27's offset, written with shift and masks as the spec does, is the sum the model's map adds up. -/
theorem stripe_offset_eq (page x : Nat) : (page <<< 12) ||| (x &&& 0xFFF) = page * 4096 + x % 4096 := by
  have hlow : x &&& 0xFFF = x % 4096 := Nat.and_two_pow_sub_one_eq_mod x 12
  rw [hlow, ← Nat.shiftLeft_add_eq_or_of_lt (Nat.mod_lt x (by decide : 0 < 2 ^ 12)), Nat.shiftLeft_eq]

/-- Settles O27: the striped window is `toLocal`'s second case, and neither of the formula's two ORs meets a set bit twice. -/
theorem stripedAddressMap : Obligations.StripedAddressMap := by
  intro s addr htiles hlo hhi x stripe vault offset
  have hx : x < 144 * 2 ^ 28 := by omega
  have hstripe : stripe = x / 4096 := Nat.shiftRight_eq_div_pow x 12
  have hoffset : offset = x / 4096 / 144 * 4096 + x % 4096 := by
    rw [← hstripe]
    exact stripe_offset_eq (stripe / 144) x
  have hlt : offset < 2 ^ 28 := hoffset ▸ stripe_offset_lt hx
  have hlocal : (vault <<< 28) ||| offset = x / 4096 % 144 * 2 ^ 28 + (x / 4096 / 144 * 4096 + x % 4096) := by
    rw [← Nat.shiftLeft_add_eq_or_of_lt hlt, Nat.shiftLeft_eq, hoffset, ← hstripe]
  rw [hlocal, local_striped s hlo, htiles, if_pos (Nat.div_lt_of_lt_mul (by omega))]

end Sys2Proof.Proofs
end

section
/-! The keys of points: the Morton code below the zone bit (R132). -/

namespace Sys2Proof.Proofs
open Sys2Proof Sys2Proof.Machine Sys2Proof.Laws

/-- The Morton code of a voxel leaves bit 63 of the key to the zone. -/
theorem morton_lt (v : List Nat) : morton v < 2 ^ 63 :=
  (sp_lt 21 _ _ _).trans_eq (by norm_num)

/-- A key lies between its zone's bit alone and the next zone's. -/
theorem keyOf_bounds (s : State) (v : List Nat) :
    s.zoneOf v * 2 ^ 63 ≤ s.keyOf v ∧ s.keyOf v < (s.zoneOf v + 1) * 2 ^ 63 := by
  have hcode := morton_lt v
  unfold State.keyOf
  omega

/-- Bit 63 of a key is its zone. -/
theorem bitOf_keyOf_zone (s : State) (v : List Nat) : bitOf (s.keyOf v) 63 = true ↔ s.zoneOf v = 1 := by
  obtain ⟨hlo, hhi⟩ := keyOf_bounds s v
  have hzone : s.keyOf v / 2 ^ 63 = s.zoneOf v := Nat.div_eq_of_lt_le hlo hhi
  have hle := zone_le s v
  rw [bitOf, hzone, beq_iff_eq]
  omega

/-- The bits of a key below the zone are those of the coordinates, in turn: what `sp_bits` says of any number put above the code. -/
theorem bitOf_keyOf_coordinates (s : State) (x y z : Nat) {i : Nat} (hi : i < 21) :
    bitOf (s.keyOf [x, y, z]) (3 * i) = bitOf x i ∧ bitOf (s.keyOf [x, y, z]) (3 * i + 1) = bitOf y i ∧
      bitOf (s.keyOf [x, y, z]) (3 * i + 2) = bitOf z i := by
  have hkey : s.keyOf [x, y, z] =
      spread3 21 x + 2 * spread3 21 y + 4 * spread3 21 z + 8 ^ 21 * s.zoneOf [x, y, z] := by
    simp only [State.keyOf, morton, List.getD_cons_zero, List.getD_cons_succ]
    ring
  rw [hkey]
  exact sp_bits 21 i x y z _ hi

/-- Every key of zone 0 sorts before every key of zone 1. -/
theorem keyOf_lt_of_zones (s : State) {v w : List Nat} (hv : s.zoneOf v = 0) (hw : s.zoneOf w = 1) :
    s.keyOf v < s.keyOf w := by
  have hbelow := (keyOf_bounds s v).2
  have habove := (keyOf_bounds s w).1
  rw [hv] at hbelow
  rw [hw] at habove
  omega

/-- Within a zone, keys sort as their Morton codes. -/
theorem keyOf_lt_iff_of_same_zone (s : State) {v w : List Nat} (h : s.zoneOf v = s.zoneOf w) :
    s.keyOf v < s.keyOf w ↔ morton v < morton w := by
  rw [State.keyOf, State.keyOf, h, Nat.add_lt_add_iff_left]

/-- Settles O36: the code stays below bit 63 (`morton_lt`), so the zone decides between zones and the code within one. -/
theorem mortonKey : Obligations.MortonKey := by
  intro s x y z _ _ _
  have hzone := zone_le s [x, y, z]
  have hkey : s.keyOf [x, y, z] < 2 ^ 64 := by
    have hhi := (keyOf_bounds s [x, y, z]).2
    omega
  exact ⟨hkey, bitOf_keyOf_zone s _, hzone, fun i hi => bitOf_keyOf_coordinates s x y z hi,
    fun x' y' z' _ _ _ => ⟨keyOf_lt_of_zones s, keyOf_lt_iff_of_same_zone s⟩⟩

end Sys2Proof.Proofs
end

section
/-! Packed elements: nibbles, blocks of MX granules, and scale bytes (R173, R175, R176, R178). -/

namespace Sys2Proof.Proofs
open Sys2Proof Sys2Proof.Machine Sys2Proof.Laws

/-! ### Fields of slices -/

/-- A field read inside a slice is the field read at the sum of the offsets. -/
theorem fieldB_sliceB (bs : Bytes) {o n o' n' : Nat} (h : o' + n' ≤ n) :
    fieldB (sliceB bs o n) o' n' = fieldB bs (o + o') n' := by
  rw [fieldB, fieldB, sliceB_sliceB bs h]

/-- Bits [8j + 3 : 8j] of a field are the low nibble of its byte j. -/
theorem bitsOf_fieldB_low_nibble (bs : Bytes) (o : Nat) {n j : Nat} (hj : j < n) :
    bitsOf (fieldB bs o n) (8 * j) 4 = bitsOf (bs.getD (o + j) 0).toNat 0 4 := by
  rw [fieldB, nibble_lo, getD_sliceB, if_pos hj]

/-- Bits [8j + 7 : 8j + 4] of a field are the high nibble of its byte j. -/
theorem bitsOf_fieldB_high_nibble (bs : Bytes) (o : Nat) {n j : Nat} (hj : j < n) :
    bitsOf (fieldB bs o n) (8 * j + 4) 4 = bitsOf (bs.getD (o + j) 0).toNat 4 4 := by
  rw [fieldB, nibble_hi, getD_sliceB, if_pos hj]

/-! ### Elements of a packed row -/

/-- INT4 elements lie two to a byte, each in a nibble of its own. -/
theorem elOf_int4_code (row : Bytes) (c : Nat) :
    (elOf .int4 row c).code = bitsOf (fieldB row (c / 2) 1) (c % 2 * 4) 4 := rfl

/-- The blocks of a granule end inside its 256 bytes (R175's table). -/
theorem blocks_fit_granule {t : ElemType} (hmx : t.isMx = true) : 16 + t.blocksMax * t.blockBytes ≤ 256 := by
  cases t <;> revert hmx <;> decide

/-- Element `m` of block `i` of granule `k` of a row: its bits in the block, read as one little-endian number. -/
theorem elOf_code_in_block {t : ElemType} (hmx : t.isMx = true) (row : Bytes) (k : Nat) {i m : Nat} (hi : i < t.blocksMax) (hm : m < 32) :
    (elOf t row (32 * (t.blocksMax * k + i) + m)).code =
      bitsOf (fieldB row (256 * k + (16 + i * t.blockBytes)) t.blockBytes) (m * t.bits) t.bits := by
  have hblock : (32 * (t.blocksMax * k + i) + m) / 32 = t.blocksMax * k + i := by omega
  have hplace : (32 * (t.blocksMax * k + i) + m) % 32 = m := by omega
  have hgranule : (t.blocksMax * k + i) / t.blocksMax = k := by
    rw [Nat.mul_add_div (Nat.zero_lt_of_lt hi), Nat.div_eq_of_lt hi, Nat.add_zero]
  have hindex : (t.blocksMax * k + i) % t.blocksMax = i := by
    rw [Nat.mul_add_mod, Nat.mod_eq_of_lt hi]
  have hend : 16 + i * t.blockBytes + t.blockBytes ≤ 256 :=
    calc 16 + i * t.blockBytes + t.blockBytes = 16 + (i + 1) * t.blockBytes := by ring
      _ ≤ 16 + t.blocksMax * t.blockBytes := Nat.add_le_add_left (Nat.mul_le_mul_right _ hi) 16
      _ ≤ 256 := blocks_fit_granule hmx
  simp only [elOf, hmx, if_true, hblock, hplace, hgranule, hindex, fieldB_sliceB row hend]

/-! ### What a scale byte stands for -/

/-- The scale byte 255 makes an element of any MX type a NaN. -/
theorem val_nan_scale {t : ElemType} (hmx : t.isMx = true) (q code : Nat) : El.val t q ⟨code, 255⟩ = .nan := by
  simp [El.val, hmx]

/-- An element with a floating format and a scale byte below 255 has the value of its code times a power of two. -/
theorem val_scaled_float {t : ElemType} {f : FlFmt} (hmx : t.isMx = true) (hf : t.fmt = some f) (q code : Nat) {e : Nat} (he : e < 255) :
    El.val t q ⟨code, e⟩ = (f.decode code).scale ((e : Int) - 127) := by
  have hint : t ≠ .mxint8 := by
    rintro rfl
    cases hf
  simp [El.val, hmx, hf, hint, he.ne]

/-- An MXINT8 element with a scale byte below 255 has the value of its integer, with six fraction bits, times a power of two. -/
theorem val_scaled_mxint8 (q code : Nat) {e : Nat} (he : e < 255) :
    El.val .mxint8 q ⟨code, e⟩ = (Fl.ofInt (signedOf 8 code)).scale ((e : Int) - 127 - 6) := by
  simp [El.val, ElemType.isMx, ElemType.fmt, ElemType.bits, he.ne]

/-! ### The packing of R173 -/

/-- INT4: elements 2j and 2j + 1 are the nibbles of byte j. -/
theorem int4_nibbles (row : Bytes) (j : Nat) :
    (elOf .int4 row (2 * j)).code = bitsOf (row.getD j 0).toNat 0 4 ∧
      (elOf .int4 row (2 * j + 1)).code = bitsOf (row.getD j 0).toNat 4 4 := by
  have heven : 2 * j / 2 = j ∧ 2 * j % 2 = 0 := by omega
  have hodd : (2 * j + 1) / 2 = j ∧ (2 * j + 1) % 2 = 1 := by omega
  rw [elOf_int4_code, elOf_int4_code, heven.1, heven.2, hodd.1, hodd.2]
  exact ⟨bitsOf_fieldB_low_nibble row j Nat.one_pos, bitsOf_fieldB_high_nibble row j Nat.one_pos⟩

/-- MXFP4: elements 2j and 2j + 1 of a block are the nibbles of its byte j. -/
theorem mxfp4_nibbles (row : Bytes) (k : Nat) {i j : Nat} (hi : i < 15) (hj : j < 16) :
    (elOf .mxfp4 row (32 * (15 * k + i) + 2 * j)).code = bitsOf (row.getD (256 * k + 16 + 16 * i + j) 0).toNat 0 4 ∧
      (elOf .mxfp4 row (32 * (15 * k + i) + 2 * j + 1)).code = bitsOf (row.getD (256 * k + 16 + 16 * i + j) 0).toNat 4 4 := by
  have hcode (m : Nat) (hm : m < 32) : (elOf .mxfp4 row (32 * (15 * k + i) + m)).code =
      bitsOf (fieldB row (256 * k + (16 + i * 16)) 16) (m * 4) 4 := elOf_code_in_block rfl row k hi hm
  have hbase : 256 * k + (16 + i * 16) = 256 * k + 16 + 16 * i := by omega
  have heven : 2 * j * 4 = 8 * j := by omega
  have hodd : (2 * j + 1) * 4 = 8 * j + 4 := by omega
  rw [Nat.add_assoc _ (2 * j) 1, hcode (2 * j) (by omega), hcode (2 * j + 1) (by omega), hbase, heven, hodd]
  exact ⟨bitsOf_fieldB_low_nibble row _ hj, bitsOf_fieldB_high_nibble row _ hj⟩

/-- MXFP6: element j of a block is bits [6j + 5 : 6j] of the block's 192-bit number, in either of the two formats. -/
theorem mxfp6_bits {t : ElemType} (ht : t = .mxe3m2 ∨ t = .mxe2m3) (row : Bytes) (k : Nat) {i j : Nat} (hi : i < 10) (hj : j < 32) :
    (elOf t row (32 * (10 * k + i) + j)).code = bitsOf (fieldB row (256 * k + 16 + 24 * i) 24) (6 * j) 6 := by
  have hcode : (elOf t row (32 * (10 * k + i) + j)).code = bitsOf (fieldB row (256 * k + (16 + i * 24)) 24) (j * 6) 6 := by
    obtain rfl | rfl := ht
    · exact elOf_code_in_block rfl row k hi hj
    · exact elOf_code_in_block rfl row k hi hj
  have hbase : 256 * k + (16 + i * 24) = 256 * k + 16 + 24 * i := by omega
  rw [hcode, hbase, Nat.mul_comm j 6]

/-- Settles O48: an element of an MX row is its bits in its block (`elOf_code_in_block`), and a nibble of a field is a nibble of one byte. -/
theorem subBytePacking : Obligations.SubBytePacking :=
  ⟨int4_nibbles, fun row k _ _ hi hj => mxfp4_nibbles row k hi hj, fun _ row k _ _ ht hi hj => mxfp6_bits ht row k hi hj,
    fun _ _ q code _ hmx hf => ⟨val_scaled_float hmx hf q code, val_nan_scale hmx q code⟩,
    fun q code _ => ⟨val_scaled_mxint8 q code, val_nan_scale rfl q code⟩⟩

end Sys2Proof.Proofs
end

section
/-! The rank of deliverable sources (R282, R285). -/

namespace Sys2Proof.Proofs
open Sys2Proof Sys2Proof.Machine Sys2Proof.Laws

/-! ### Sorting by a key -/

/-- A sort by key only reorders. -/
theorem sortByKey_perm {α : Type} (key : α → Nat) (xs : List α) : (sortByKey key xs).Perm xs := by
  simpa only [sortByKey, List.append_nil] using sort_perm key xs []

/-- A sort by key puts the keys of different elements in ascending order. -/
theorem sortByKey_pairwise {α : Type} (key : α → Nat) {xs : List α} (hnodup : xs.Nodup) :
    (sortByKey key xs).Pairwise (fun a b => key a ≤ key b ∧ a ≠ b) :=
  (sort_sorted key xs [] List.Pairwise.nil).and ((sortByKey_perm key xs).nodup_iff.mpr hnodup)

/-! ### The two parts of a priority -/

/-- PRIO is a field of eight bits. -/
theorem prio_le (s : State) (a : Nat) : s.get (F.EV_S_CFG_PRIO a) ≤ 255 :=
  Nat.le_of_lt_succ (get_lt s (F.EV_S_CFG_PRIO a))

/-- SPLIT is a field of three bits. -/
theorem split_le (s : State) : s.get F.EV_CFG ≤ 7 :=
  Nat.le_of_lt_succ (get_lt s F.EV_CFG)

/-- The group is PRIO shifted right by SPLIT. -/
theorem evGroup_eq_shiftRight (s : State) (a : Nat) :
    s.evGroup a = s.get (F.EV_S_CFG_PRIO a) >>> s.get F.EV_CFG :=
  (Nat.shiftRight_eq_div_pow _ _).symm

/-- The sub-priority is PRIO under a mask of SPLIT ones. -/
theorem evSub_eq_and_mask (s : State) (a : Nat) :
    s.evSub a = s.get (F.EV_S_CFG_PRIO a) &&& (2 ^ s.get F.EV_CFG - 1) :=
  (Nat.and_two_pow_sub_one_eq_mod _ _).symm

/-- A group is no greater than the priority, so it fits in eight bits. -/
theorem evGroup_le (s : State) (a : Nat) : s.evGroup a ≤ 255 :=
  (Nat.div_le_self _ _).trans (prio_le s a)

/-- A sub-priority is no greater than the priority, so it fits in eight bits. -/
theorem evSub_le (s : State) (a : Nat) : s.evSub a ≤ 255 :=
  (Nat.mod_le _ _).trans (prio_le s a)

/-! ### The sort key of a source -/

/-- The number by which `State.ranked` sorts: the lower it is, the higher a source ranks. -/
def rankKey (s : State) (src : Nat) : Nat :=
  (255 - s.evGroup src) * 2 ^ 20 + (255 - s.evSub src) * 2 ^ 10 + src

/-- The sources `State.ranked` sorts: the deliverable, unmasked ones that meet `p`. -/
def rankCandidates (s : State) (p : Nat → Bool) : List Nat :=
  (List.range 1024).filter (fun src => s.deliverable src && !s.evMasked src && p src)

/-- The ranked sources are the candidates sorted by their keys. -/
theorem ranked_eq_sortByKey (s : State) (p : Nat → Bool) :
    s.ranked p = sortByKey (rankKey s) (rankCandidates s p) := rfl

/-- The ranked sources are those deliverable, unmasked and chosen. -/
theorem mem_ranked (s : State) (p : Nat → Bool) (a : Nat) :
    a ∈ s.ranked p ↔ a < 1024 ∧ s.deliverable a = true ∧ s.evMasked a = false ∧ p a = true := by
  rw [ranked_eq_sortByKey, (sortByKey_perm _ _).mem_iff]
  simp [rankCandidates, and_assoc]

/-- Keys compare group first, then sub-priority, then number, as no part of a key reaches the next one's place. -/
theorem lex_of_rankKey_le (s : State) {a b : Nat} (ha : a < 1024) (hb : b < 1024) (hne : a ≠ b)
    (hkey : rankKey s a ≤ rankKey s b) :
    s.evGroup b < s.evGroup a ∨
      (s.evGroup a = s.evGroup b ∧ (s.evSub b < s.evSub a ∨ (s.evSub a = s.evSub b ∧ a < b))) := by
  have hga := evGroup_le s a
  have hgb := evGroup_le s b
  have hsa := evSub_le s a
  have hsb := evSub_le s b
  unfold rankKey at hkey
  omega

/-- The ranked sources lie by higher group, then higher sub-priority, then lower number. -/
theorem ranked_pairwise_lex (s : State) (p : Nat → Bool) :
    (s.ranked p).Pairwise (fun a b => s.evGroup b < s.evGroup a ∨
      (s.evGroup a = s.evGroup b ∧ (s.evSub b < s.evSub a ∨ (s.evSub a = s.evSub b ∧ a < b)))) := by
  have hnodup : (rankCandidates s p).Nodup := List.nodup_range.filter _
  refine (sortByKey_pairwise (rankKey s) hnodup).imp_of_mem ?_
  rintro a b ha hb ⟨hkey, hne⟩
  exact lex_of_rankKey_le s ((mem_ranked s p a).mp ha).1 ((mem_ranked s p b).mp hb).1 hne hkey

/-- SPLIT is 4 after reset. -/
theorem split_reset : State.reset.get F.EV_CFG = 4 := by decide

/-- Settles O35: the sort's key holds group, sub-priority and number in places of their own (`lex_of_rankKey_le`), and no source is listed twice. -/
theorem rankOrder : Obligations.RankOrder := by
  refine ⟨split_reset, fun s p => ⟨split_le s, prio_le s, mem_ranked s p, ?_⟩⟩
  simpa only [evGroup_eq_shiftRight, evSub_eq_and_mask] using ranked_pairwise_lex s p

end Sys2Proof.Proofs
end

section
/-! Every command ends by driving the pins, so a step faults and refuses nothing and its pins say what the state says (R288, R296, R316, R357). -/

namespace Sys2Proof.Proofs
open Sys2Proof Sys2Proof.Machine Sys2Proof.Laws

/-! ### One step -/

/-- Settles O1: `step` takes the queue apart. -/
theorem stepRunsFrontCommand : Obligations.StepRunsFrontCommand := by
  intro c q s hq
  simp only [step, hq]

/-- Settles O2: `step` on the empty queue is its first case. -/
theorem stepIdlesOnEmptyQueue : Obligations.StepIdlesOnEmptyQueue := by
  intro s hq
  simp only [step, hq]

/-! ### What driven pins say -/

/-- A source asserts a host pin exactly when it is among the pin's sources and the controller has power. -/
theorem pinAsserted_iff (s : State) (h : Nat) : s.pinAsserted h = true ↔ ∃ src, s.assertsPin h src := by
  have hsources : s.pinAsserted h = true ↔ s.parked = false ∧ ∃ src, src ∈ s.pinSources h := by
    simp [State.pinAsserted, List.eq_nil_iff_forall_not_mem]
  have hmem (src : Nat) : src ∈ s.pinSources h ↔ s.flag F.EV_GLOBAL = false ∧ src < 1024 ∧ s.deliverable src = true ∧
      s.evMasked src = false ∧ s.get (F.EV_S_CFG_HOST src) = h + 1 := by
    unfold State.pinSources
    by_cases hg : s.flag F.EV_GLOBAL = true
    · simp [hg]
    · simp [hg, mem_ranked]
  simp only [hsources, hmem, State.assertsPin, State.deliverable, State.evMasked, beq_iff_eq]
  constructor
  · rintro ⟨hpark, src, hglobal, hlt, hstate, hmask, hhost⟩
    exact ⟨src, hlt, hhost, hstate, hmask, hglobal, hpark⟩
  · rintro ⟨src, hlt, hhost, hstate, hmask, hglobal, hpark⟩
    exact ⟨hpark, src, hglobal, hlt, hstate, hmask, hhost⟩

/-- Driven pins say what the state says. -/
theorem pinsAgree_drive (s : State) : PinsAgree s.drive :=
  ⟨rfl, rfl, pinAsserted_iff s 0, pinAsserted_iff s 1, by simp [State.extestDrives]⟩

/-! ### What every command ends in -/

/-- Every command ends in a state whose pins are driven: a meaning is one state driven, or each of its branches is. -/
theorem exec_ran (c : Instr) (s : State) : ∃ u, exec c s = ran u := by
  cases c
  case porstAssert | nvmOperationComplete | attestationDone | budgetStop | budgetStopDrainTimeout | clockMonitorWindow | shadowCompare | goldenRunComplete
    | selfTestSliceEnd | selfTestSliceOverrun | tickReady | tickInputsReady | tickShort | kernelStepComplete | solverBudgetStop | triggerPulseEnd
    | relockArmExpiry | followUpTimeout | class0SlackExpiry | starveTimeout | energyDebtTimeout | ethFrameReceive | ethLinkChange | startWaitTimeout
    | slotOverwriteAfterRead | csiFrameStart | csiFrameEnd | csiLineStart | csiLineEnd | csiLongPacket | csiEmbeddedData | encoderEdge | imuDataReady
    | imuReadComplete | canFrameReceive | canErrorPassive | canBusOff | canBusOffRecovery | packetTimeout | waitSatisfied | corridorOrderWaitEnd
    | solveReadDataReady | listTimeTrigger | opChangeDone | spillOutComplete | reloadComplete =>
    dsimp only [exec, execPorstAssert, execNvmOperationComplete, execAttestationDone, execBudgetStop, execBudgetStopDrainTimeout, execClockMonitorWindow,
      execShadowCompare, execGoldenRunComplete, execSelfTestSliceEnd, execSelfTestSliceOverrun, execTickReady, execTickInputsReady, execTickShort,
      execKernelStepComplete, execSolverBudgetStop, execTriggerPulseEnd, execRelockArmExpiry, execFollowUpTimeout, execClass0SlackExpiry, execStarveTimeout,
      execEnergyDebtTimeout, execEthFrameReceive, execEthLinkChange, execStartWaitTimeout, execSlotOverwriteAfterRead, execCsiFrameStart, execCsiFrameEnd,
      execCsiLineStart, execCsiLineEnd, execCsiLongPacket, execCsiEmbeddedData, execEncoderEdge, execImuDataReady, execImuReadComplete, execCanFrameReceive,
      execCanErrorPassive, execCanBusOff, execCanBusOffRecovery, execPacketTimeout, execWaitSatisfied, execCorridorOrderWaitEnd, execSolveReadDataReady,
      execListTimeTrigger, execOpChangeDone, execSpillOutComplete, execReloadComplete]
    repeat' split
    all_goals exact ⟨_, rfl⟩
  all_goals exact ⟨_, rfl⟩

/-- Settles O3: the state a command ends in is the one whose pins it drives (that a command not due or out of state ends so too is log entry 60). -/
theorem everyCommandEndsInANextState : Obligations.EveryCommandEndsInANextState := by
  intro c s
  obtain ⟨u, hu⟩ := exec_ran c s
  exact ⟨u.drive, hu⟩

/-- Settles O5: an idle step changes nothing, and a command ends by driving the pins. -/
theorem stepKeepsPinsAgree : Obligations.StepKeepsPinsAgree := by
  intro s s' hs hstep
  cases hq : s.pending with
  | nil =>
    rw [stepIdlesOnEmptyQueue s hq] at hstep
    cases hstep
    exact hs
  | cons c q =>
    rw [stepRunsFrontCommand c q s hq] at hstep
    obtain ⟨u, hu⟩ := exec_ran c { s with pending := q }
    rw [hu] at hstep
    cases hstep
    exact pinsAgree_drive u

/-! ### The pins at reset -/

/-- The address of the last register of a row. -/
def lastAddr (r : RegRow) : Nat := r.base + r.stride1 * (r.count1 - 1) + r.stride2 * (r.count2 - 1)

/-- A row holds no address beyond its last register's. -/
theorem le_lastAddr_of_holds {r : RegRow} {a : Nat} (h : r.holds a = true) : a ≤ lastAddr r := by
  simp only [RegRow.holds, Bool.and_eq_true, decide_eq_true_eq, beq_iff_eq] at h
  obtain ⟨⟨⟨hbase, houter⟩, hinner⟩, hwhole⟩ := h
  have h1 := Nat.div_add_mod (a - r.base) r.stride1
  have h2 := Nat.div_add_mod ((a - r.base) % r.stride1) r.stride2
  have h3 := Nat.mul_le_mul_left r.stride1 (Nat.le_sub_one_of_lt houter)
  have h4 := Nat.mul_le_mul_left r.stride2 (Nat.le_sub_one_of_lt hinner)
  unfold lastAddr
  omega

/-- A register reads zero at reset where every row of its block that reaches as far up resets to zero. -/
theorem regReset_eq_zero {a : Nat} (h : ∀ r ∈ blockRows (a / 0x10000), a ≤ lastAddr r → r.resetWord = 0) : regReset a = 0 := by
  unfold regReset regRow?
  cases hrow : (blockRows (a / 0x10000)).find? (·.holds a) with
  | none => rfl
  | some r => exact h r (List.mem_of_find?_eq_some hrow) (le_lastAddr_of_holds (List.find?_some (p := fun r => RegRow.holds r a) hrow))

/-- No source is deliverable at reset. -/
theorem evState_reset {src : Nat} (h : src < 1024) : State.reset.get (F.EV_S_STAT_STATE src) = 0 := by
  have hreg : regReset (0xC3000 + 4 * src) = 0 := by
    have hblock : (0xC3000 + 4 * src) / 0x10000 = 12 := by omega
    have hrows : ∀ r ∈ blockRows 12, 0xC3000 ≤ lastAddr r → r.resetWord = 0 := by decide
    refine regReset_eq_zero fun r hr hle => hrows r (hblock ▸ hr) (by omega)
  show bitsOf (regReset (0xC3000 + 4 * src)).toNat 8 3 = 0
  rw [hreg]
  rfl

/-- No source asserts a pin at reset. -/
theorem not_assertsPin_reset (h : Nat) : ¬ ∃ src, State.reset.assertsPin h src := by
  rintro ⟨src, hlt, -, hstate, -⟩
  rw [evState_reset hlt] at hstate
  cases hstate

/-- Settles O4: SF_STATUS.FAULT resets to 1 and HB to 0, no source is deliverable, and the part's instruction is IDCODE. -/
theorem resetPinsAgree : Obligations.ResetPinsAgree :=
  ⟨by decide, by decide, iff_of_false (by decide) (not_assertsPin_reset 0), iff_of_false (by decide) (not_assertsPin_reset 1), by decide⟩

end Sys2Proof.Proofs
end

section
/-! Striping loses no byte, and what is written to DRAM reads back (R26, R27). -/

namespace Sys2Proof.Proofs
open Sys2Proof Sys2Proof.Machine Sys2Proof.Laws

/-- A striped address is mapped when it lies in the part's window, to its stripe's vault and its offset there. -/
theorem toLocal_striped_eq_some {s : State} {a l : Nat} (ha : 0x1000000000 ≤ a) (hl : s.toLocal a = some l) :
    a - 0x1000000000 < s.tiles * 2 ^ 28 ∧
      l = (a - 0x1000000000) / 4096 % s.tiles * 2 ^ 28 + ((a - 0x1000000000) / 4096 / s.tiles * 4096 + (a - 0x1000000000) % 4096) := by
  rw [local_striped s ha] at hl
  split at hl
  · rename_i hwindow
    exact ⟨(Nat.div_lt_iff_lt_mul (by norm_num)).mp hwindow, (Option.some.inj hl).symm⟩
  · cases hl

/-- Settles O28: vault, page and byte of a striped address lie in places of their own in its local address. -/
theorem stripedMapInjective : Obligations.StripedMapInjective := by
  intro s a b l ha hb hla hlb
  obtain ⟨hwa, hea⟩ := toLocal_striped_eq_some ha hla
  obtain ⟨hwb, heb⟩ := toLocal_striped_eq_some hb hlb
  have hoa := stripe_offset_lt hwa
  have hob := stripe_offset_lt hwb
  have hvault : (a - 0x1000000000) / 4096 % s.tiles = (b - 0x1000000000) / 4096 % s.tiles := by omega
  have hpage : (a - 0x1000000000) / 4096 / s.tiles = (b - 0x1000000000) / 4096 / s.tiles := by omega
  have hbyte : (a - 0x1000000000) % 4096 = (b - 0x1000000000) % 4096 := by omega
  have hstripe : (a - 0x1000000000) / 4096 = (b - 0x1000000000) / 4096 := by
    rw [← Nat.div_add_mod ((a - 0x1000000000) / 4096) s.tiles, hvault, hpage, Nat.div_add_mod]
  omega

/-- Two mapped addresses of one window with one local address are the same. -/
theorem toLocal_injective_in_window {s : State} {x y : Nat} (hx : (s.toLocal x).isSome = true) (hxy : s.toLocal x = s.toLocal y)
    (hw : (x < 0x1000000000 ∧ y < 0x1000000000) ∨ (0x1000000000 ≤ x ∧ 0x1000000000 ≤ y)) : x = y := by
  obtain ⟨hlx, hly⟩ | ⟨hsx, hsy⟩ := hw
  · have h := hxy
    rw [local_linear s hlx hx, local_linear s hly (hxy ▸ hx)] at h
    exact Option.some.inj h
  · obtain ⟨l, hl⟩ := Option.isSome_iff_exists.mp hx
    exact stripedMapInjective s x y l hsx hsy hl (hxy ▸ hl)

/-- Settles O29: no two bytes of a run in one window share a place (`toLocal_injective_in_window`), so none overwrites another. -/
theorem dramWriteReadsBack : Obligations.DramWriteReadsBack := by
  intro s a bs hmapped hwindow
  have hinj : ∀ i < bs.length, ∀ j < bs.length, s.toLocal (a + i) = s.toLocal (a + j) → i = j := by
    intro i hi j hj h
    have := toLocal_injective_in_window (hmapped i hi) h (by omega)
    omega
  refine ⟨List.ext_getElem (by simp [State.dramRead]) fun i _ hi => ?_, fun b hb => s.dramByte_dramWrite_out a bs b hb⟩
  have hback := dram_back bs s a hmapped hinj i hi
  simpa [State.dramRead, hi] using hback

end Sys2Proof.Proofs
end

section
/-! Serial comparison, device time and rate commits (R7, R34 to R37). -/

namespace Sys2Proof.Proofs
open Sys2Proof Sys2Proof.Machine Sys2Proof.Laws

/-- The difference modulo `m` of two values below `m`. -/
theorem add_sub_mod {m a b : Nat} (ha : a < m) (hb : b < m) : (a + m - b) % m = if b ≤ a then a - b else a + m - b := by
  split
  · rw [show a + m - b = a - b + m by omega, Nat.add_mod_right, Nat.mod_eq_of_lt (by omega)]
  · exact Nat.mod_eq_of_lt (by omega)

/-- Of two N-bit values the first is later when their difference lies between 1 and half the range. -/
theorem serialLater_iff {n a b : Nat} (ha : a < 2 ^ n) (hb : b < 2 ^ n) :
    serialLater n a b = true ↔ 1 ≤ (a + 2 ^ n - b) % 2 ^ n ∧ (a + 2 ^ n - b) % 2 ^ n < 2 ^ (n - 1) := by
  simp only [serialLater, Nat.mod_eq_of_lt ha, Nat.mod_eq_of_lt hb, Bool.and_eq_true, decide_eq_true_eq]

/-- Settles O30: the differences of two values taken both ways add up to the whole range, so one of them is below the half unless both are it. -/
theorem serialComparisonTotal : Obligations.SerialComparisonTotal := by
  intro n a b hn ha hb
  have hhalf : 2 ^ n = 2 * 2 ^ (n - 1) := by rw [← pow_succ', Nat.sub_add_cancel hn]
  simp only [← Bool.not_eq_true, serialLater_iff ha hb, serialLater_iff hb ha, add_sub_mod ha hb, add_sub_mod hb ha]
  generalize 2 ^ (n - 1) = p at *
  rw [hhalf] at ha hb ⊢
  split <;> split <;> omega

/-! ### A new anchor keeps device time -/

/-- At its anchor a triple's sum is its fraction alone. -/
theorem sum_at_anchor (t : Triple) : t.sum t.anchor = ((t.offFrac * 2 ^ 24 : Nat) : Int) := by
  have hdelta : t.delta t.anchor = 0 := by
    rw [delta_eq t t.anchor (le_refl _) (by omega), sub_self]
  rw [Triple.sum, hdelta, zero_mul, add_zero]

/-- A triple's fraction is 16 bits. -/
theorem frac_lt (t : Triple) (c : Nat) : t.frac c < 2 ^ 16 := by
  unfold Triple.frac patternOf
  omega

/-- A triple's time is 64 bits. -/
theorem time_lt (t : Triple) (c : Nat) : t.time c < 2 ^ 64 := by
  unfold Triple.time patternOf
  omega

/-- A triple anchored anew, with no step, shows the same fraction there. -/
theorem frac_reanchor (t : Triple) (c : Nat) (rate : Int) : (t.reanchor c rate 0).frac c = t.frac c := by
  have hlt := frac_lt t c
  have hsum : (t.reanchor c rate 0).sum c = ((t.frac c * 2 ^ 24 : Nat) : Int) := sum_at_anchor (t.reanchor c rate 0)
  rw [Triple.frac, hsum]
  unfold patternOf
  omega

/-- A triple anchored anew, with no step, shows the same time there: what the fraction carries is below one nanosecond. -/
theorem time_reanchor (t : Triple) (c : Nat) (rate : Int) : (t.reanchor c rate 0).time c = t.time c := by
  have hfrac := frac_lt t c
  have htime := time_lt t c
  have hsum : (t.reanchor c rate 0).sum c = ((t.frac c * 2 ^ 24 : Nat) : Int) := sum_at_anchor (t.reanchor c rate 0)
  have hoffset : ((t.reanchor c rate 0).offInt - ((t.time c : Int) - c)) % 2 ^ 64 = 0 := by
    unfold Triple.reanchor signedOf patternOf
    dsimp only
    split <;> omega
  rw [Triple.time, hsum]
  unfold patternOf
  omega

/-- The triple a rate commit that is not refused puts in force, with what else it leaves (R36, R37). -/
theorem rateCommit_applied {s : State} (hcode : s.rateCode = 0) : s.rateCommit = ((s.set F.TB_COMMIT_STATUS_CODE 0).setThy (fun t =>
    { t.keepTriple with triple := t.triple.reanchor t.counter (s.getI F.TB_RATE_NEXT) 0, rateAt := some t.counter })).incWrap F.TB_COMMIT_STATUS_COUNT := by
  have hrate : (s.set F.TB_COMMIT_STATUS_CODE 0).getI F.TB_RATE_NEXT = s.getI F.TB_RATE_NEXT := by
    rw [State.getI, State.get_set_other _ _ _ _ (by decide), ← State.getI]
  simp only [State.rateCommit, hcode, beq_self_eq_true, if_true, hrate]

/-- A refused rate commit leaves its code alone (R37). -/
theorem rateCommit_refused {s : State} (hcode : s.rateCode ≠ 0) : s.rateCommit = s.set F.TB_COMMIT_STATUS_CODE s.rateCode := by
  simp only [State.rateCommit, beq_iff_eq, hcode, if_false]

/-- A control core's write of TB_COMMIT in run state commits. -/
theorem exec_rateCommit {dt : Nat} {s : State} (hrun : (s.elapse dt).running = true) (c : Fin 8) :
    exec (.rateCommit dt c) s = .next (s.elapse dt).rateCommit.drive :=
  congrArg ran (State.coreWrite_run hrun (by decide) (by decide) c.val _)

/-- Settles O31: the commit anchors the triple anew at the counter (`time_reanchor`, `frac_reanchor`). -/
theorem rateCommitKeepsDeviceTime : Obligations.RateCommitKeepsDeviceTime := by
  intro dt c s u hu hrun hcode
  subst hu
  refine ⟨_, exec_rateCommit hrun c, ?_⟩
  rw [rateCommit_applied hcode]
  exact ⟨time_reanchor _ _ _, frac_reanchor _ _ _, rfl, rfl, rfl⟩

/-! ### Device time between commits -/

/-- Within half the counter's range after its anchor a triple's sum grows by its rate. -/
theorem sum_add (t : Triple) {c d : Nat} (hanchor : t.anchor ≤ c) (hrange : c + d < t.anchor + 2 ^ 63) : t.sum (c + d) = t.sum c + d * t.rate := by
  rw [Triple.sum, Triple.sum, delta_eq t c hanchor (by omega), delta_eq t (c + d) (by omega) hrange]
  push_cast
  ring

/-- Settles O32: a rate of at most `2 ^ 31` units of `2 ^ -40` takes at most a 512th part off the counter's advance, rounding aside. -/
theorem deviceTimeRises : Obligations.DeviceTimeRises := by
  intro t c d hrate hanchor hrange _ hlow hhigh
  have hsum := sum_add t hanchor hrange
  have hloss : -(d * 2 ^ 31 : Int) ≤ d * t.rate := by
    have hneg : -2 ^ 31 ≤ t.rate := by omega
    nlinarith
  have hmod (x : Nat) : t.time x = ((x : Int) + t.offInt + t.sum x / 2 ^ 40) % 2 ^ 64 := by
    unfold Triple.time patternOf
    omega
  have h0 := hmod c
  have h1 := hmod (c + d)
  push_cast at h1 hhigh
  omega

end Sys2Proof.Proofs
end

section
/-! The refill of Marjoram's buckets (R267, R268). -/

namespace Sys2Proof.Proofs
open Sys2Proof Sys2Proof.Machine Sys2Proof.Laws

/-- Four buckets, none above its capacity. -/
def BucketsWithin (cap : Nat → Nat) (l : List Int) : Prop := l.length = 4 ∧ ∀ i < 4, l.getD i 0 ≤ cap i

/-- Four levels lie within the capacities when each does. -/
theorem bucketsWithin_iff {cap : Nat → Nat} {a b c d : Int} :
    BucketsWithin cap [a, b, c, d] ↔ a ≤ cap 0 ∧ b ≤ cap 1 ∧ c ≤ cap 2 ∧ d ≤ cap 3 := by
  constructor
  · rintro ⟨-, h⟩
    exact ⟨h 0 (by decide), h 1 (by decide), h 2 (by decide), h 3 (by decide)⟩
  · rintro ⟨h0, h1, h2, h3⟩
    refine ⟨rfl, fun i hi => ?_⟩
    match i, hi with
    | 0, _ => exact h0
    | 1, _ => exact h1
    | 2, _ => exact h2
    | 3, _ => exact h3

/-- One tick keeps every bucket within its capacity and adds no more than the four refills, whether bucket 0 is in debt or not. -/
theorem refillOnce_within {r cap : Nat → Nat} {l : List Int} (h : BucketsWithin cap l) :
    BucketsWithin cap (refillOnce r cap l) ∧ (refillOnce r cap l).sum ≤ l.sum + (r 0 + r 1 + r 2 + r 3) := by
  obtain ⟨a, b, c, d, rfl⟩ : ∃ a b c d, l = [a, b, c, d] := by
    match l, h.1 with
    | [a, b, c, d], _ => exact ⟨a, b, c, d, rfl⟩
  rw [bucketsWithin_iff] at h
  simp only [refillOnce, bucketsWithin_iff, List.getD_cons_zero, List.getD_cons_succ, List.sum_cons, List.sum_nil, decide_eq_true_eq]
  by_cases hdebt : a < 0
  · simp only [hdebt, if_true]
    omega
  · simp only [hdebt, if_false]
    omega

/-- Any number of ticks does so too; at a level that a tick does not change the rest add nothing. -/
theorem refillMany_within {r cap : Nat → Nat} (n : Nat) {l : List Int} (h : BucketsWithin cap l) :
    BucketsWithin cap (refillMany r cap n l) ∧ (refillMany r cap n l).sum ≤ l.sum + n * (r 0 + r 1 + r 2 + r 3) := by
  induction n generalizing l with
  | zero => exact ⟨h, by simp [refillMany]⟩
  | succ n ih =>
    obtain ⟨honce, hsum⟩ := refillOnce_within (r := r) h
    obtain ⟨hmany, hmanySum⟩ := ih honce
    have htotal : ((n + 1 : Nat) : Int) * (r 0 + r 1 + r 2 + r 3) = n * (r 0 + r 1 + r 2 + r 3) + (r 0 + r 1 + r 2 + r 3) := by
      push_cast
      ring
    rw [refillMany, htotal]
    split
    · exact ⟨h, le_add_of_nonneg_right (by positivity)⟩
    · exact ⟨hmany, by omega⟩

/-- Settles O45: by induction on the ticks. -/
theorem refillWithinCapacities : Obligations.RefillWithinCapacities := by
  intro r cap n a b c d ha hb hc hd
  obtain ⟨⟨hlength, hcap⟩, hsum⟩ := refillMany_within (r := r) n (bucketsWithin_iff.mpr ⟨ha, hb, hc, hd⟩)
  refine ⟨hcap, hlength, hsum.trans_eq ?_⟩
  simp [add_assoc]

end Sys2Proof.Proofs
end

section
/-! The median vote (R113). -/

namespace Sys2Proof.Proofs
open Sys2Proof Sys2Proof.Machine Sys2Proof.Laws

/-- The middle of values in order: the middle one, or half the sum of the two. -/
def middleOf (o : List Int) : Int :=
  if o.length % 2 == 1 then o.getD (o.length / 2) 0 else (o.getD (o.length / 2 - 1) 0 + o.getD (o.length / 2) 0) / 2

/-- The values of sources in ascending order. -/
def sortedValues (v : Nat → Int) (xs : List Nat) : List Int := (sortByValue v xs).map v

/-- The median is the middle of the values in order. -/
theorem medianOf_eq_middleOf {v : Nat → Int} {xs : List Nat} (hv : ∀ j ∈ xs, -2 ^ 31 ≤ v j ∧ v j < 2 ^ 31) (hne : xs ≠ []) :
    medianOf v xs = middleOf (sortedValues v xs) :=
  median_map v xs hne (sort_map v xs hv).2

/-- Sources in another order have the same values in order. -/
theorem sortedValues_perm {v : Nat → Int} {xs ys : List Nat} (hv : ∀ j ∈ xs, -2 ^ 31 ≤ v j ∧ v j < 2 ^ 31) (h : xs.Perm ys) :
    sortedValues v xs = sortedValues v ys := by
  obtain ⟨hsortedX, hpermX⟩ := sort_map v xs hv
  obtain ⟨hsortedY, hpermY⟩ := sort_map v ys (fun j hj => hv j (h.mem_iff.mpr hj))
  exact ((hpermX.trans (h.trans hpermY.symm)).map v).eq_of_pairwise (fun _ _ _ _ => le_antisymm) hsortedX hsortedY

/-- The middle of values in order lies between two of them. -/
theorem middleOf_between {o : List Int} (hsorted : o.Pairwise (· ≤ ·)) (hne : o ≠ []) : (∃ x ∈ o, x ≤ middleOf o) ∧ ∃ x ∈ o, middleOf o ≤ x := by
  have hlength := List.length_pos_iff.mpr hne
  have hmem (i : Nat) (hi : i < o.length) : o.getD i 0 ∈ o := by
    rw [List.getD_eq_getElem _ _ hi]
    exact List.getElem_mem hi
  unfold middleOf
  split
  · have h := hmem (o.length / 2) (by omega)
    exact ⟨⟨_, h, le_refl _⟩, ⟨_, h, le_refl _⟩⟩
  · rename_i heven
    rw [beq_iff_eq] at heven
    have hle : o.getD (o.length / 2 - 1) 0 ≤ o.getD (o.length / 2) 0 := by
      rw [List.getD_eq_getElem _ _ (by omega), List.getD_eq_getElem _ _ (by omega)]
      exact List.pairwise_iff_getElem.mp hsorted _ _ _ _ (by omega)
    exact ⟨⟨_, hmem (o.length / 2 - 1) (by omega), by omega⟩, ⟨_, hmem (o.length / 2) (by omega), by omega⟩⟩

/-- Settles O46: the median is a function of the values in order (`medianOf_eq_middleOf`). -/
theorem medianOrderFree : Obligations.MedianOrderFree := by
  intro v xs ys hv hne h
  obtain ⟨hsorted, hperm⟩ := sort_map v xs hv
  have hneY : ys ≠ [] := fun e => hne (List.Perm.eq_nil (e ▸ h))
  have hneO : sortedValues v xs ≠ [] := by simpa [sortedValues] using fun e : sortByValue v xs = [] => hne (List.Perm.eq_nil (e ▸ hperm.symm))
  obtain ⟨⟨x, hx, hle⟩, ⟨y, hy, hge⟩⟩ := middleOf_between hsorted hneO
  have hsource {z : Int} (hz : z ∈ sortedValues v xs) : ∃ j ∈ xs, v j = z := by
    obtain ⟨j, hj, hjz⟩ := List.mem_map.mp hz
    exact ⟨j, hperm.mem_iff.mp hj, hjz⟩
  obtain ⟨j, hj, rfl⟩ := hsource hx
  obtain ⟨k, hk, rfl⟩ := hsource hy
  rw [medianOf_eq_middleOf hv hne, medianOf_eq_middleOf (fun j hj => hv j (h.mem_iff.mpr hj)) hneY, ← sortedValues_perm hv h]
  exact ⟨rfl, ⟨j, hj, hle⟩, ⟨k, hk, hge⟩⟩

end Sys2Proof.Proofs
end

section
/-! Integer accumulation (R154). -/

namespace Sys2Proof.Proofs
open Sys2Proof Sys2Proof.Machine Sys2Proof.Laws

/-- An integer wrapped to 32-bit two's complement. -/
def wrap32 (i : Int) : Int := signedOf 32 (patternOf 32 i)

/-- Wrapping one addend does not change the wrapped sum. -/
theorem wrap32_add (i j : Int) : wrap32 (wrap32 i + j) = wrap32 (i + j) := by
  have h := signed_pattern_mod i
  have hl := signed_pattern_mod (wrap32 i + j)
  have hr := signed_pattern_mod (i + j)
  have hlr := signed_range (patternOf 32 (wrap32 i + j))
  have hrr := signed_range (patternOf 32 (i + j))
  unfold wrap32 at *
  omega

/-- An integer is its own wrapped value exactly when 32 bits hold it. -/
theorem wrap32_eq_self_iff (i : Int) : wrap32 i = i ↔ -2 ^ 31 ≤ i ∧ i < 2 ^ 31 :=
  ⟨fun h => h ▸ signed_range _, signed_pattern_id i⟩

/-- An integer's alignment at its own exponent is the integer. -/
theorem alignTo_ofInt (i : Int) : alignTo (decide (i < 0)) i.natAbs 0 0 = i := by
  unfold alignTo
  by_cases h : i < 0 <;> simp only [h, decide_true, decide_false, if_true, Bool.false_eq_true, if_false, sub_self, Int.toNat_zero, pow_zero, mul_one] <;> omega

/-- The product of two integers aligns to their product. -/
theorem alignTo_mul_ofInt (a b : Int) : alignTo (decide (a < 0) != decide (b < 0)) (a.natAbs * b.natAbs) 0 0 = a * b := by
  unfold alignTo
  obtain ha | ha := lt_or_ge a 0 <;> obtain hb | hb := lt_or_ge b 0 <;> simp [ha, hb, not_lt.mpr, abs_of_nonneg, abs_of_neg]

/-- An integer plus the product of two integers rounds to the exact sum. -/
theorem rneInt_add_mul_ofInt (s a b : Int) : ((Fl.ofInt s).add ((Fl.ofInt a).mul (Fl.ofInt b))).rneInt = some (s + a * b) := by
  simp only [Fl.ofInt, Fl.mul, Fl.add, add_zero, min_self, alignTo_ofInt, alignTo_mul_ofInt]
  split
  · rename_i hzero
    rw [beq_iff_eq] at hzero
    rw [rne_fin, hzero]
    simp
  · rw [rne_fin]
    by_cases hneg : s + a * b < 0 <;> simp only [hneg, decide_true, decide_false, if_true, Bool.false_eq_true, if_false, Option.some.injEq] <;> omega

/-- One step of the accumulation: the sum wrapped, and whether it had to be. -/
theorem accAdd_ofInt (s a b : Int) :
    accAdd true (Fl.ofInt s) ((Fl.ofInt a).mul (Fl.ofInt b)) = (Fl.ofInt (wrap32 (s + a * b)), wrap32 (s + a * b) != s + a * b) := by
  simp only [accAdd, if_true, rneInt_add_mul_ofInt, Option.getD_some, wrap32]

/-- Products accumulate to their wrapped sum, from any start. -/
theorem accumulate_ofInt (ps : List (Int × Int)) (s : Int) (w : Nat) :
    (accumulate true ⟨Fl.ofInt (wrap32 s), w⟩ (ps.map (fun p => (Fl.ofInt p.1, Fl.ofInt p.2)))).v = Fl.ofInt (wrap32 (s + (ps.map (fun p => p.1 * p.2)).sum)) := by
  induction ps generalizing s w with
  | nil => simp [accumulate]
  | cons p ps ih =>
    simp only [List.map_cons, accumulate, accAdd_ofInt, List.sum_cons, wrap32_add, ih, add_assoc]

/-- Settles O47: by induction on the products, each step's wrap leaving the wrapped sum (`wrap32_add`). -/
theorem integerAccumulation : Obligations.IntegerAccumulation := by
  intro s w ps hlo hhi
  have hs : wrap32 s = s := (wrap32_eq_self_iff s).mpr ⟨hlo, hhi⟩
  refine ⟨?_, fun a b => ?_⟩
  · have h := accumulate_ofInt ps s w
    rwa [hs] at h
  · simp only [accumulate, accAdd_ofInt, ← wrap32_eq_self_iff]
    by_cases h : wrap32 (s + a * b) = s + a * b <;> simp [h, b2n]

end Sys2Proof.Proofs
end

section
/-! Coordinates of a load (R185). -/

namespace Sys2Proof.Proofs
open Sys2Proof Sys2Proof.Machine Sys2Proof.Laws

/-- Each of the six coordinates is clamped to its own dimension. -/
theorem getD_clampAll (d : Desc) (cs : List Int) {k : Nat} (hk : k < 6) : (d.clampAll cs).getD k 0 = clampTo (d.range k) (cs.getD k 0) := by
  simp [Desc.clampAll, List.getD_eq_getElem?_getD, hk]

/-- Settles O49: a dimension's range is at least 1, so `clampTo` gives a coordinate inside. -/
theorem loadCoordinatesClamped : Obligations.LoadCoordinatesClamped := by
  intro d cs k hk
  have hrange : 1 ≤ d.range k := le_max_left _ _
  rw [getD_clampAll d cs hk, clampTo]
  split <;> omega

end Sys2Proof.Proofs
end

section
/-! Fences and semaphores (R260 to R262). -/

namespace Sys2Proof.Proofs
open Sys2Proof Sys2Proof.Machine Sys2Proof.Laws

/-! ### Fences -/

/-- A field outside the fences' registers keeps its value over a write of CL_FENCE_STALE, and so does every fence. -/
theorem fence_set_stale (s : State) (n g : Nat) : (s.set F.CL_FENCE_STALE n).fence g = s.fence g := by
  unfold State.fence State.get64
  rw [State.get_set_other _ _ _ _ (by simp only [F.CL_FENCE_LO, F.CL_FENCE_STALE]; omega),
    State.get_set_other _ _ _ _ (by simp only [F.CL_FENCE_HI, F.CL_FENCE_STALE]; omega)]

/-- A fence's move leaves CL_FENCE_STALE. -/
theorem stale_moveFence (s : State) (f v : Nat) : (s.moveFence f v).get F.CL_FENCE_STALE = s.get F.CL_FENCE_STALE := by
  rw [moveFence_get _ _ _ _ (by decide), State.set64,
    State.get_set_other _ _ _ _ (by simp only [F.CL_FENCE_HI, F.CL_FENCE_STALE]; omega),
    State.get_set_other _ _ _ _ (by simp only [F.CL_FENCE_LO, F.CL_FENCE_STALE]; omega)]

/-- CL_FENCE_STALE written reads back below its width's range. -/
theorem get_set_stale (s : State) {n : Nat} (h : n < 2 ^ 32) : (s.set F.CL_FENCE_STALE n).get F.CL_FENCE_STALE = n :=
  (s.get_set_same F.CL_FENCE_STALE n (by decide)).trans (Nat.mod_eq_of_lt h)

/-- A count saturated to `w` bits fits in them. -/
theorem satNat_lt (w n : Nat) : satNat w n < 2 ^ w := by
  have := Nat.two_pow_pos w
  unfold satNat
  split <;> omega

/-- A later value set moves the fence to it, in a state whose fences are those before and whose CL_FENCE_STALE has lost the count an earlier set of the cycle left. -/
theorem fenceSet_later {s : State} {f v : Nat} (h : serialLater 64 v (s.fence f) = true) :
    ∃ u : State, s.fenceSet f v = u.moveFence f v ∧ (∀ g, u.fence g = s.fence g) ∧
      u.get F.CL_FENCE_STALE = if s.setNow f = some true then s.get F.CL_FENCE_STALE - 1 else s.get F.CL_FENCE_STALE := by
  have hlt := get_lt s F.CL_FENCE_STALE
  unfold State.fenceSet
  simp only [h, if_true]
  match hnow : s.setNow f with
  | none => exact ⟨_, rfl, fun _ => rfl, rfl⟩
  | some false => exact ⟨_, rfl, fun _ => rfl, rfl⟩
  | some true =>
    exact ⟨_, rfl, fun g => fence_set_stale s _ g, get_set_stale s (show _ < 2 ^ 32 by simp only [F.CL_FENCE_STALE] at hlt ⊢; omega)⟩

/-- A value that is not later leaves every fence, and is counted by the first set of a cycle alone. -/
theorem fenceSet_stale {s : State} {f v : Nat} (h : serialLater 64 v (s.fence f) = false) :
    (∀ g, (s.fenceSet f v).fence g = s.fence g) ∧ (s.fenceSet f v).get F.CL_FENCE_STALE =
      if s.setNow f = none then satNat 32 (s.get F.CL_FENCE_STALE + 1) else s.get F.CL_FENCE_STALE := by
  unfold State.fenceSet
  simp only [h, Bool.false_eq_true, if_false]
  match hnow : s.setNow f with
  | some _ => exact ⟨fun _ => rfl, rfl⟩
  | none => exact ⟨fun g => fence_set_stale _ _ g, get_set_stale _ (satNat_lt 32 _)⟩

/-- A fence signalled in add mode moves by what is added, modulo its 64 bits, and no other moves. -/
theorem fence_fenceAdd (s : State) {f v g : Nat} (hf : f < 4096) (hg : g < 4096) :
    (s.fenceAdd f v).fence g = if g = f then (s.fence f + v) % 2 ^ 64 else s.fence g := by
  have hlt := fence_lt s f
  unfold State.fenceAdd
  by_cases hv : v = 0
  · subst hv
    simp only [beq_self_eq_true, if_true, Nat.add_zero, Nat.mod_eq_of_lt hlt]
    split <;> simp_all
  · simp only [beq_iff_eq, hv, if_false]
    split
    · rename_i h
      rw [h, fence_move s hf]
    · rename_i h
      exact fence_move_other s hf hg h

/-- Settles O40: a set is a move of the fence or a count (`fenceSet_later`, `fenceSet_stale`), an addition a move. -/
theorem fenceSignals : Obligations.FenceSignals := by
  intro s f v hf hv
  refine ⟨by simp [fence_fenceAdd s hf hf], fun h => ?_, fun h hnow => ?_, fun h hnow => ?_, fun h => (fenceSet_stale h).1 f, fun h hnow => ?_,
    fun h hnow => ?_, fun g hg hne => ⟨by simp [fence_fenceAdd s hf hg, hne], ?_⟩⟩
  · obtain ⟨u, hu, -, -⟩ := fenceSet_later h
    rw [hu, fence_move u hf, Nat.mod_eq_of_lt hv]
  · obtain ⟨u, hu, -, hstale⟩ := fenceSet_later h
    rw [hu, stale_moveFence, hstale, if_neg hnow]
  · obtain ⟨u, hu, -, hstale⟩ := fenceSet_later h
    rw [hu, stale_moveFence, hstale, if_pos hnow]
  · rw [(fenceSet_stale h).2, if_pos hnow]
  · rw [(fenceSet_stale h).2, if_neg hnow]
  · cases h : serialLater 64 v (s.fence f) with
    | true =>
      obtain ⟨u, hu, hfence, -⟩ := fenceSet_later h
      rw [hu, fence_move_other u hf hg hne, hfence]
    | false => exact (fenceSet_stale h).1 g

/-! ### Semaphores -/

/-- Counting a saturation leaves every semaphore. -/
theorem sem_incSat_semSat (s : State) {m : Nat} (hm : m < 256) : (s.incSat F.CL_SEM_SAT).sem m = s.sem m :=
  s.get_set_other _ _ _ (by simp only [F.CL_SEM, F.CL_SEM_SAT]; omega)

/-- A release is a write of the semaphore, in a state whose semaphores are those before and whose CL_SEM_SAT has counted a saturation. -/
theorem semRelease_eq (s : State) (n k : Nat) : ∃ u : State, s.semRelease n k = u.set (F.CL_SEM n) (satNat 16 (u.sem n + k)) ∧
    (∀ m, m < 256 → u.sem m = s.sem m) ∧ u.get F.CL_SEM_SAT = if 65535 < s.sem n + k then satNat 32 (s.get F.CL_SEM_SAT + 1) else s.get F.CL_SEM_SAT := by
  unfold State.semRelease
  split
  · exact ⟨_, rfl, fun m hm => sem_incSat_semSat s hm, (State.get_set_same _ _ _ (by decide)).trans (Nat.mod_eq_of_lt (satNat_lt 32 _))⟩
  · exact ⟨_, rfl, fun _ _ => rfl, rfl⟩

/-- Settles O41: the release writes one semaphore (`semRelease_eq`), whose 16 bits the saturated count fits. -/
theorem semaphoreRelease : Obligations.SemaphoreRelease := by
  intro s n k hn
  obtain ⟨u, hu, hsem, hsat⟩ := semRelease_eq s n k
  rw [hu, hsem n hn]
  refine ⟨?_, ?_, fun m hm hne => ?_⟩
  · rw [State.sem, State.get_set_same _ _ _ (by decide : 0 + 16 ≤ 32)]
    refine (Nat.mod_eq_of_lt (satNat_lt 16 _)).trans ?_
    unfold satNat
    split <;> omega
  · rw [State.get_set_other _ _ _ _ (by simp only [F.CL_SEM, F.CL_SEM_SAT]; omega), hsat]
  · rw [State.sem, State.get_set_other _ _ _ _ (by simp only [F.CL_SEM]; omega)]
    exact hsem m hm

end Sys2Proof.Proofs
end

section
/-! Captures: what reads of IO_CAP_POP_LO take and latch (R244). -/

namespace Sys2Proof.Proofs
open Sys2Proof Sys2Proof.Machine Sys2Proof.Laws

/-- A core's pop takes the oldest entry of its FIFO. -/
theorem caps_popCapture_same (s : State) {r : Nat} (hr : r ≠ 0) (c : Nat) :
    (s.popCapture r c).io.caps.getD c [] = (s.io.caps.getD c []).drop 1 := by
  have hempty (h : (s.oldestCapture c).isNone = true) : s.io.caps.getD c [] = [] := by
    simpa only [State.oldestCapture, Option.isNone_iff_eq_none, List.head?_eq_none_iff] using h
  unfold State.popCapture
  dsimp only
  split
  · rename_i h
    rw [Bool.or_eq_true, beq_iff_eq] at h
    have hnone := hempty (h.resolve_left hr)
    show s.io.caps.getD c [] = _
    rw [hnone, List.drop_nil]
  · rename_i h
    have hlength : c < s.io.caps.length := by
      by_contra hge
      have hdefault : s.io.caps.getD c [] = [] := List.getD_eq_default _ _ (by omega)
      rw [State.oldestCapture, hdefault] at h
      simp at h
    exact getD_setAt_same _ _ _ _ hlength

/-- A pop leaves every other capture's FIFO. -/
theorem caps_popCapture_other (s : State) (r : Nat) {c k : Nat} (h : k ≠ c) : (s.popCapture r c).io.caps.getD k [] = s.io.caps.getD k [] := by
  unfold State.popCapture
  dsimp only
  split
  · rfl
  · exact getD_setAt_other _ h _ _

/-- The host's pop takes nothing. -/
theorem caps_popCapture_host (s : State) (c : Nat) : (s.popCapture 0 c).io.caps = s.io.caps := rfl

/-- A pop latches the oldest entry for the requester that reads. -/
theorem captureLatch_popCapture_same (s : State) (r c : Nat) : (s.popCapture r c).captureLatch r c = s.oldestCapture c := by
  rw [latch_pop, assocGet_put_same, Option.getD_some]

/-- A pop leaves every other latch. -/
theorem captureLatch_popCapture_other (s : State) {r c r' k : Nat} (hc : c < 16) (hk : k < 16) (h : r' ≠ r ∨ k ≠ c) :
    (s.popCapture r c).captureLatch r' k = s.captureLatch r' k := by
  rw [latch_pop, assocGet_put_other (by omega), State.captureLatch]

/-- A requester's read answered leaves the captures' state. -/
theorem io_readReturn (s : State) (r : Requester) (w : Word) : (s.readReturn r w).io = s.io :=
  light_io (s.light_readReturn r w (bs := [0x11]) (List.mem_singleton_self _))

/-- Settles O33: what the read takes and latches is `popCapture`'s. -/
theorem captureReadsLatch : Obligations.CaptureReadsLatch := by
  rintro dt s u cap rfl
  have hlatch (r : Requester) (w : Word) (v : State) (q k : Nat) : (v.readReturn r w).drive.captureLatch q k = v.captureLatch q k := by
    simp only [State.captureLatch, State.drive_io, io_readReturn]
  refine ⟨fun c hrun => ⟨_, congrArg ran (State.readGate_core hrun c _ _), ?_⟩, fun hreach => ⟨_, congrArg ran (State.readGate_host hreach _ _), ?_⟩⟩
  · simp only [hlatch, State.drive_io, io_readReturn, Requester.num]
    exact ⟨captureLatch_popCapture_same _ _ _, caps_popCapture_same _ (Nat.succ_ne_zero _) _, fun k hk => caps_popCapture_other _ _ hk,
      fun r k hk h => captureLatch_popCapture_other _ cap.isLt hk h⟩
  · simp only [hlatch, State.drive_io, io_readReturn, Requester.num]
    exact ⟨captureLatch_popCapture_same _ _ _, caps_popCapture_host _ _, fun r k hk h => captureLatch_popCapture_other _ cap.isLt hk h⟩

end Sys2Proof.Proofs
end

section
/-! Occurrences (R283). -/

namespace Sys2Proof.Proofs
open Sys2Proof Sys2Proof.Machine Sys2Proof.Laws

/-- An occurrence counted leaves every other source's status register. -/
theorem get_incSat_count_other (s : State) {src : Nat} {f : Field} (h : f.addr ≠ 0xC3000 + 4 * src) : (s.incSat (F.EV_S_STAT_COUNT src)).get f = s.get f :=
  s.get_set_other _ _ _ h

/-- Settles O34: an occurrence of a source not yet delivered is a count (`count_inc`), judged against COUNT. -/
theorem occurrenceCounts : Obligations.OccurrenceCounts := by
  intro s src hsrc hen hstate
  obtain ⟨u, hraise, hregs⟩ := raise_eq s src hen hstate
  have hcount : u.get (F.EV_S_STAT_COUNT src) = min 255 (s.get (F.EV_S_STAT_COUNT src) + 1) := by
    rw [get_regs hregs, count_inc]
  have hlimit : u.get (F.EV_S_COAL_COUNT src) = s.get (F.EV_S_COAL_COUNT src) := by
    rw [get_regs hregs, get_incSat_count_other s (by simp only [F.EV_S_COAL_COUNT]; omega)]
  have hlt : (if u.get (F.EV_S_COAL_COUNT src) ≤ u.get (F.EV_S_STAT_COUNT src) then 2 else 1) < 8 := by
    split <;> decide
  rw [hraise, State.evCountState]
  refine ⟨?_, ?_, fun o ho hne => ⟨?_, ?_⟩⟩
  · rw [evSet_count _ _ hsrc hsrc, hcount]
  · rw [evSet_state _ hsrc hlt, hcount, hlimit]
  · rw [evSet_count _ _ hsrc ho, get_regs hregs, get_incSat_count_other s (by simp only [F.EV_S_STAT_COUNT]; omega)]
  · rw [evSet_state_other _ _ hsrc ho hne, get_regs hregs, get_incSat_count_other s (by simp only [F.EV_S_STAT_STATE]; omega)]

end Sys2Proof.Proofs
end

section
/-! Violation records in their ring (R81, R82). -/

namespace Sys2Proof.Proofs
open Sys2Proof Sys2Proof.Machine Sys2Proof.Laws

/-- Placing a record writes the words of the slots from `n` down at most `k` places, and no other register. -/
theorem readReg_ringPlace_out {base : Nat} {record : List Nat} (hl : record.length = 4) {b : Nat} :
    ∀ (k n : Nat) (s : State), (∀ j ≤ k, ∀ i < 4, b ≠ base + 16 * ((n + 63 * j) % 64) + 4 * i) → n < 64 → (s.ringPlace base record k n).readReg b = s.readReg b := by
  intro k
  induction k with
  | zero =>
    intro n s h hn
    refine writeWords_out _ _ _ _ fun i hi => ?_
    have := h 0 (le_refl _) i (hl ▸ hi)
    omega
  | succ k ih =>
    intro n s h hn
    have hslot (ws : List Nat) (hws : ws.length = 4) : (s.writeWords (base + 16 * n) ws).readReg b = s.readReg b := by
      refine writeWords_out _ _ _ _ fun i hi => ?_
      have := h 0 (Nat.zero_le _) i (hws ▸ hi)
      omega
    unfold State.ringPlace
    dsimp only
    split
    · rw [ih _ _ (fun j hj i hi => ?_) (Nat.mod_lt _ (by decide)), hslot _ (by simp [State.ringRecord])]
      have := h (j + 1) (by omega) i hi
      have hnext : ((n + 63) % 64 + 63 * j) % 64 = (n + 63 * (j + 1)) % 64 := by omega
      rwa [hnext]
    · exact hslot _ hl

/-- A record written into a slot of four words is read back there. -/
theorem ringRecord_writeWords (s t : State) (base n : Nat) (base' n' : Nat) :
    (s.writeWords (base + 16 * n) (t.ringRecord base' n')).ringRecord base n = t.ringRecord base' n' := by
  refine List.map_congr_left fun i hi => ?_
  have hlt : i < 4 := List.mem_range.mp hi
  rw [writeWords_in _ _ _ _ (by simpa [State.ringRecord] using hlt)]
  simp [State.ringRecord, List.getD_eq_getElem?_getD, hlt]

/-- What a violation record on the host port leaves of a register outside the event controller: what its ring's update leaves. -/
theorem readReg_violation_host (s : State) (code : Nat) (detail : Bytes) {a : Nat} (h : a / 0x10000 ≠ 0xC) : (s.violation 0x13 code detail).readReg a =
    (s.violationPut (F.HP_VR 0).addr F.HP_VR_IDX_NEXT F.HP_VR_IDX_TOTAL (violationRecord s.now 0x13 code detail)).readReg a := by
  rw [violation_host]
  exact (State.light_raise _ (by norm_num) (bs := [0xC]) (List.mem_singleton_self _)).1.1 a (by simpa using h)

/-- What a violation record on the host port leaves of a register that is neither its index nor the event controller's: what the placing of the record leaves. -/
theorem readReg_violation_host_ring (s : State) (code : Nat) (detail : Bytes) {a : Nat} (h : a / 0x10000 ≠ 0xC) (hidx : a ≠ 0x110018) :
    (s.violation 0x13 code detail).readReg a =
      (s.ringPlace 0x111000 (wordsOf 4 (violationRecord s.now 0x13 code detail)) (min 63 (s.get F.HP_VR_IDX_TOTAL)) (s.get F.HP_VR_IDX_NEXT)).readReg a := by
  rw [readReg_violation_host s code detail h]
  unfold State.violationPut State.incWrap
  dsimp only
  rw [State.readReg_set_other _ _ _ hidx, State.readReg_set_other _ _ _ hidx]
  rfl

/-- Placing a record leaves the ring's index. -/
theorem get_ringPlace_host (s : State) {record : List Nat} (hl : record.length = 4) (k : Nat) {n : Nat} (hn : n < 64) {f : Field} (h : f.addr = 0x110018) :
    (s.ringPlace 0x111000 record k n).get f = s.get f :=
  get_of_reg (readReg_ringPlace_out hl k n s (fun j _ i _ => by omega) hn)

/-- A violation record on the host port advances NEXT modulo 64 and counts in TOTAL. -/
theorem index_violation_host (s : State) (code : Nat) (detail : Bytes) :
    (s.violation 0x13 code detail).get F.HP_VR_IDX_NEXT = (s.get F.HP_VR_IDX_NEXT + 1) % 64 ∧
      (s.violation 0x13 code detail).get F.HP_VR_IDX_TOTAL = (s.get F.HP_VR_IDX_TOTAL + 1) % 2 ^ 16 := by
  have hn : s.get F.HP_VR_IDX_NEXT < 64 := get_lt s F.HP_VR_IDX_NEXT
  have hplace := get_ringPlace_host s (length_wordsOf 4 (violationRecord s.now 0x13 code detail)) (min 63 (s.get F.HP_VR_IDX_TOTAL)) hn (f := F.HP_VR_IDX_TOTAL) rfl
  constructor
  · rw [get_of_reg (readReg_violation_host s code detail (by decide)), State.violationPut, State.incWrap,
      State.get_set_disjoint _ F.HP_VR_IDX_TOTAL F.HP_VR_IDX_NEXT _ (by decide) rfl (by decide), State.get_set_same _ _ _ (by decide)]
    exact Nat.mod_mod _ _
  · rw [get_of_reg (readReg_violation_host s code detail (by decide)), State.violationPut, State.incWrap, State.get_set_same _ _ _ (by decide),
      State.get_set_disjoint _ F.HP_VR_IDX_NEXT F.HP_VR_IDX_TOTAL _ (by decide) rfl (by decide)]
    exact congrArg (fun x => (x + 1) % 2 ^ 16) hplace

/-- A record of the host port comes before the one at NEXT − 1: that is one of its device time that R82 puts after it. -/
def ComesBefore (s : State) (code : Nat) (detail : Bytes) : Prop :=
  (s.ringRecord 0x111000 ((s.get F.HP_VR_IDX_NEXT + 63) % 64)).take 2 = (wordsOf 4 (violationRecord s.now 0x13 code detail)).take 2 ∧
    violationOrder (wordsOf 4 (violationRecord s.now 0x13 code detail)) < violationOrder (s.ringRecord 0x111000 ((s.get F.HP_VR_IDX_NEXT + 63) % 64))

/-- A record that comes before none is written at NEXT. -/
theorem readReg_violation_host_last {s : State} {code : Nat} {detail : Bytes} (h : ¬ ComesBefore s code detail) {a : Nat} (ha : a / 0x10000 ≠ 0xC) (hidx : a ≠ 0x110018) :
    (s.violation 0x13 code detail).readReg a =
      (s.writeWords (0x111000 + 16 * s.get F.HP_VR_IDX_NEXT) (wordsOf 4 (violationRecord s.now 0x13 code detail))).readReg a := by
  rw [readReg_violation_host_ring s code detail ha hidx, ringPlace_last s 0x111000 _ _ _ h]

/-- A record that comes before none lies at NEXT, and no other word of the ring changes. -/
theorem violation_host_last {s : State} {code : Nat} {detail : Bytes} (h : ¬ ComesBefore s code detail) :
    (s.violation 0x13 code detail).regBytes (F.HP_VR (4 * s.get F.HP_VR_IDX_NEXT)).addr 4 = violationRecord s.now 0x13 code detail ∧
      ∀ m, m < 256 → m / 4 ≠ s.get F.HP_VR_IDX_NEXT → (s.violation 0x13 code detail).get (F.HP_VR m) = s.get (F.HP_VR m) := by
  have hn : s.get F.HP_VR_IDX_NEXT < 64 := get_lt s F.HP_VR_IDX_NEXT
  have hl := length_wordsOf 4 (violationRecord s.now 0x13 code detail)
  constructor
  · refine regBytes_words _ _ _ _ (by simp [violationRecord, leBytes_length, sliceB_length]) fun i hi => ?_
    have haddr : (F.HP_VR (4 * s.get F.HP_VR_IDX_NEXT)).addr + 4 * i = 0x111000 + 16 * s.get F.HP_VR_IDX_NEXT + 4 * i := by
      simp only [F.HP_VR]
      omega
    rw [haddr, readReg_violation_host_last h (by omega) (by omega), writeWords_in _ _ _ _ (by omega)]
  · intro m hm hne
    have haddr : (F.HP_VR m).addr = 0x111000 + 4 * m := rfl
    refine get_of_reg ?_
    rw [haddr, readReg_violation_host_last h (by omega) (by omega), writeWords_out _ _ _ _ (fun i hi => by omega)]

/-- A record that comes before the one at NEXT − 1 moves it up to NEXT, which is not written again: at most 62 slots below it are. -/
theorem violation_host_moves {s : State} {code : Nat} {detail : Bytes} (h : ComesBefore s code detail) (hsome : s.get F.HP_VR_IDX_TOTAL ≠ 0) :
    (s.violation 0x13 code detail).ringRecord 0x111000 (s.get F.HP_VR_IDX_NEXT) = s.ringRecord 0x111000 ((s.get F.HP_VR_IDX_NEXT + 63) % 64) := by
  have hn : s.get F.HP_VR_IDX_NEXT < 64 := get_lt s F.HP_VR_IDX_NEXT
  obtain ⟨k, hk⟩ : ∃ k, min 63 (s.get F.HP_VR_IDX_TOTAL) = k + 1 := Nat.exists_eq_succ_of_ne_zero (by omega)
  have hmoves : s.ringPlace 0x111000 (wordsOf 4 (violationRecord s.now 0x13 code detail)) (k + 1) (s.get F.HP_VR_IDX_NEXT) =
      (s.writeWords (0x111000 + 16 * s.get F.HP_VR_IDX_NEXT) (s.ringRecord 0x111000 ((s.get F.HP_VR_IDX_NEXT + 63) % 64))).ringPlace 0x111000
        (wordsOf 4 (violationRecord s.now 0x13 code detail)) k ((s.get F.HP_VR_IDX_NEXT + 63) % 64) := by
    rw [State.ringPlace]
    refine if_pos ?_
    rw [Bool.and_eq_true, beq_iff_eq, decide_eq_true_eq]
    exact h
  rw [← ringRecord_writeWords s s 0x111000 (s.get F.HP_VR_IDX_NEXT) 0x111000 ((s.get F.HP_VR_IDX_NEXT + 63) % 64)]
  refine List.map_congr_left fun i hi => congrArg BitVec.toNat ?_
  have hlt : i < 4 := List.mem_range.mp hi
  rw [readReg_violation_host_ring s code detail (by omega) (by omega), hk, hmoves,
    readReg_ringPlace_out (length_wordsOf _ _) k _ _ (fun j hj i' hi' => by omega) (Nat.mod_lt _ (by decide))]

/-- Settles O37: the index advances with the record (`index_violation_host`), which lies at NEXT or moves what lies before NEXT up. -/
theorem violationRecordInRing : Obligations.ViolationRecordInRing := by
  rintro s code n detail record before rfl rfl rfl
  obtain ⟨hnext, htotal⟩ := index_violation_host s code detail
  exact ⟨hnext, htotal, fun h => violation_host_last h, fun htake horder hsome => violation_host_moves ⟨htake, horder⟩ hsome⟩

end Sys2Proof.Proofs
end

section
/-! The safe state: a lockstep mismatch, and the PWM pins while FAULT_N is asserted (R241, R242, R296 to R298). -/

namespace Sys2Proof.Proofs
open Sys2Proof Sys2Proof.Machine Sys2Proof.Laws

/-! ### Fields apart -/

/-- Two fields lie in different registers, or in different bits of one. -/
def fieldsApart (f g : Field) : Bool :=
  g.addr != f.addr || (decide (f.lo + f.width ≤ 32) && (decide (f.lo + f.width ≤ g.lo) || decide (g.lo + g.width ≤ f.lo)))

/-- A field write leaves the fields apart from it. -/
theorem get_set_apart (s : State) {f g : Field} (h : fieldsApart f g = true) (n : Nat) : (s.set f n).get g = s.get g := by
  simp only [fieldsApart, Bool.or_eq_true, bne_iff_ne, Bool.and_eq_true, decide_eq_true_eq] at h
  by_cases haddr : g.addr = f.addr
  · obtain ⟨hfits, hbits⟩ := h.resolve_left (not_not_intro haddr)
    exact s.get_set_disjoint f g n hfits haddr hbits
  · exact s.get_set_other f g n haddr

/-! ### The safety log -/

/-- A record's place in the safety log leaves every register before it. -/
theorem readReg_safetyLog (s : State) (r : SafetyRec) {a : Nat} (hring : a < 0xD1000) (hidx : a ≠ 0xD0028) (hev : a / 0x10000 ≠ 0xC) :
    (s.safetyLog r).readReg a = s.readReg a := by
  have hraise (t : State) : (t.raise 0x178).readReg a = t.readReg a :=
    (State.light_raise t (by norm_num) (bs := [0xC]) (List.mem_singleton_self _)).1.1 a (by simpa using hev)
  rw [State.safetyLog, hraise, State.ringPut, State.incWrap, State.readReg_set_other _ _ _ hidx, State.readReg_set_other _ _ _ hidx]
  refine writeWords_out _ _ _ _ fun i _ => ?_
  simp only [F.SF_EVENT_LOG]
  omega

/-- The safety log counts its records. -/
theorem total_safetyLog (s : State) (r : SafetyRec) :
    (s.safetyLog r).get F.SF_LOG_IDX_TOTAL = (s.get F.SF_LOG_IDX_TOTAL + 1) % 2 ^ F.SF_LOG_IDX_TOTAL.width := by
  have hwords (base : Nat) (ws : List Nat) (h : 0xD1000 ≤ base) : (s.writeWords base ws).get F.SF_LOG_IDX_TOTAL = s.get F.SF_LOG_IDX_TOTAL :=
    get_of_reg (writeWords_out _ _ _ _ fun i _ => by simp only [F.SF_LOG_IDX_TOTAL]; omega)
  rw [State.safetyLog, raise_get _ (by norm_num) _ (by decide), State.ringPut, State.incWrap, State.get_set_same _ _ _ (by decide),
    get_set_apart _ (by decide), hwords _ _ (by simp only [F.SF_EVENT_LOG]; omega)]

/-! ### Entering the safe state -/

/-- Holding the outputs leaves what is neither in the control outputs' block nor in the event controller's. -/
theorem get_outputsSafe (s : State) {f : Field} (hio : f.addr / 0x10000 ≠ 0x14) (hev : f.addr / 0x10000 ≠ 0xC) : s.outputsSafe.get f = s.get f :=
  (raise_get (s.pwmSafe 12) (by norm_num) f hev).trans (get_frame (pwmSafe_light s 12 (le_refl _)) f (by simpa using hio))

/-- The safe state's registers: FAULT_N driven, supervision ended, and the fatal code. -/
def safeRegisters (s : State) (r : SafetyRec) : State :=
  (((s.safetyLog { r with severity := 2 }).setFaultN true).set F.SF_STATUS_SUPERVISING 0).set F.SF_STATUS_FATAL_CODE r.code

/-- A fatal fault leaves of a register outside the outputs' and the events' what the entry into the safe state writes. -/
theorem get_fatal {s : State} {r : SafetyRec} (h : s.sf.phase ≠ .fault) {f : Field} (hio : f.addr / 0x10000 ≠ 0x14) (hev : f.addr / 0x10000 ≠ 0xC) :
    (s.fatal r).get f = (safeRegisters s r).get f := by
  rw [fatal_go s r h]
  exact (raise_get _ (by norm_num) f hev).trans (get_outputsSafe _ hio hev)

/-- The registers of the safe state read what was written. -/
theorem get_safeRegisters (s : State) (r : SafetyRec) : (safeRegisters s r).get F.SF_STATUS_FAULT = 1 ∧ (safeRegisters s r).get F.GLB_STATUS_FAULT = 1 ∧
    (safeRegisters s r).get F.SF_STATUS_SUPERVISING = 0 ∧ (safeRegisters s r).get F.SF_STATUS_FATAL_CODE = r.code % 256 := by
  unfold safeRegisters State.setFaultN State.setFlag
  refine ⟨?_, ?_, ?_, State.get_set_same _ _ _ (by decide)⟩
  · rw [get_set_apart _ (by decide), get_set_apart _ (by decide), get_set_apart _ (by decide), State.get_set_same _ _ _ (by decide)]
    rfl
  · rw [get_set_apart _ (by decide), get_set_apart _ (by decide), State.get_set_same _ _ _ (by decide)]
    rfl
  · rw [get_set_apart _ (by decide), State.get_set_same _ _ _ (by decide)]
    rfl

/-- An occurrence leaves Chervil's and the outputs' own state. -/
theorem sf_io_raise (s : State) {src : Nat} (h : src < 1024) : (s.raise src).sf = s.sf ∧ (s.raise src).io = s.io :=
  have hlight := State.light_raise s h (bs := [0xC]) (List.mem_singleton_self _)
  ⟨light_sf hlight, light_io hlight⟩

/-- A fatal fault enters the state Fault and ends every trigger pulse. -/
theorem fatal_phase_pulses {s : State} {r : SafetyRec} (h : s.sf.phase ≠ .fault) : (s.fatal r).sf.phase = .fault ∧ (s.fatal r).io.pulses = [] := by
  rw [fatal_go s r h]
  obtain ⟨hsf, hio⟩ := sf_io_raise (State.outputsSafe { safeRegisters s r with sf := { (safeRegisters s r).sf with phase := .fault } }) (src := 0x170) (by norm_num)
  refine ⟨(congrArg SfState.phase hsf).trans ?_, congrArg IoState.pulses hio⟩
  have hraise (t : State) : (t.raise 0x139).sf = t.sf := (sf_io_raise t (by norm_num)).1
  have hpwm (t : State) : (t.pwmSafe 12).sf = t.sf := light_sf (pwmSafe_light t 12 (le_refl _))
  exact congrArg SfState.phase ((hraise _).trans (hpwm _))

/-- A fatal fault puts every enabled PWM output at its SAFE level. -/
theorem fatal_pwmSafe {s : State} {r : SafetyRec} (h : s.sf.phase ≠ .fault) {w : Nat} (hw : w < 12) (hen : s.flag (F.IO_PWM_CFG_EN w) = true) :
    (s.fatal r).flag (F.IO_PWM_STAT_SAFE w) = true := by
  have hio : (F.IO_PWM_STAT_SAFE w).addr / 0x10000 = 0x14 ∧ (F.IO_PWM_CFG_EN w).addr / 0x10000 = 0x14 := by
    simp only [F.IO_PWM_STAT_SAFE, F.IO_PWM_CFG_EN]
    omega
  have hlight : s.light (safeRegisters s r) [0xD, 0xC, 0] :=
    State.light_trans (State.light_trans (State.light_trans (State.light_trans (s.light_safetyLog _ (by simp) (by simp)) (State.light_set _ _ _ (by decide)))
      (State.light_set _ _ _ (by decide))) (State.light_set _ _ _ (by decide))) (State.light_set _ _ _ (by decide))
  have hkept : (safeRegisters s r).flag (F.IO_PWM_CFG_EN w) = true := by
    rw [State.flag, get_frame hlight _ (by simp [hio.2]), ← State.flag, hen]
  have hsafe := pwmSafe_get { safeRegisters s r with sf := { (safeRegisters s r).sf with phase := .fault } } 12 (le_refl _) w hw hw hkept
  rw [fatal_go s r h, State.flag, raise_get _ (by norm_num) _ (by omega)]
  exact (congrArg (· == 1) (raise_get _ (by norm_num) _ (by omega))).trans hsafe

/-- In the state Fault a fatal fault is logged and nothing else. -/
theorem fatal_in_fault {s : State} {r : SafetyRec} (h : s.sf.phase = .fault) : s.fatal r = s.safetyLog { r with severity := 2 } := by
  have hsf : (s.safetyLog { r with severity := 2 }).sf = s.sf := light_sf (s.light_safetyLog _ (bs := [0xD, 0xC]) (by simp) (by simp))
  unfold State.fatal
  dsimp only
  rw [hsf, h]

/-- Settles O38: in run state a lockstep mismatch is a fatal fault. -/
theorem lockstepMismatchIsFatal : Obligations.LockstepMismatchIsFatal := by
  rintro dt s u rfl hrun
  have hexec : exec (.lockstepMismatch dt) s = .next ((s.elapse dt).fatal (SafetyRec.of 0x50 2)).drive := by
    change execLockstepMismatch dt s = _
    simp only [execLockstepMismatch, hrun, if_true, ran]
  refine ⟨fun hphase => ⟨_, hexec, ?_⟩, fun hphase => ⟨_, hexec, ?_⟩⟩
  · obtain ⟨hfault, hglb, hsup, hcode⟩ := get_safeRegisters (s.elapse dt) (SafetyRec.of 0x50 2)
    have hkept {f : Field} (hio : f.addr / 0x10000 ≠ 0x14) (hev : f.addr / 0x10000 ≠ 0xC) := get_fatal (r := SafetyRec.of 0x50 2) hphase hio hev
    have hsafe : ((s.elapse dt).fatal (SafetyRec.of 0x50 2)).flag F.SF_STATUS_FAULT = true := by
      rw [State.flag, hkept (by decide) (by decide), hfault]
      rfl
    have hglobal : ((s.elapse dt).fatal (SafetyRec.of 0x50 2)).flag F.GLB_STATUS_FAULT = true := by
      rw [State.flag, hkept (by decide) (by decide), hglb]
      rfl
    obtain ⟨hin, hpulses⟩ := fatal_phase_pulses (r := SafetyRec.of 0x50 2) hphase
    exact ⟨hsafe, hsafe, hglobal, (hkept (by decide) (by decide)).trans hsup, (hkept (by decide) (by decide)).trans hcode, hin, hpulses,
      fun w hw hen => fatal_pwmSafe hphase hw hen⟩
  · rw [fatal_in_fault hphase]
    exact ⟨get_of_reg (readReg_safetyLog _ _ (by decide) (by decide) (by decide)), light_sf (State.light_safetyLog _ _ (bs := [0xD, 0xC]) (by simp) (by simp)),
      total_safetyLog _ _⟩

/-- Settles O39: the first test of `pwmPin`. -/
theorem faultHoldsPwmPins : Obligations.FaultHoldsPwmPins := by
  intro s w n hfault
  simp only [State.pwmPin, hfault, Bool.or_true, if_true]

end Sys2Proof.Proofs
end

section
/-! Proofs of the frames of the event controller and of Thyme (O52, O53): each command is light because the write or read it passes through is, and what stands behind it is. -/

namespace Sys2Proof.Proofs

open Sys2Proof Sys2Proof.Machine Sys2Proof.Laws

/-! ### The event controller -/

theorem maskWrite_light (s : State) (c : Nat) {w : Nat} (h : w < 32) (v : Word) {bs : List Nat} (hc : 0xC ∈ bs) : s.light (s.maskWrite c w v) bs := by
  have a1 : (F.EV_MASK w).addr / 0x10000 = 0xC := by simp only [F.EV_MASK]; omega
  exact State.light_trans (s.light_set _ _ (a1 ▸ hc)) (markLate_light _ _ _ _ _ _)

theorem watchWrite_light (s : State) {w : Nat} (h : w < 64) (hi : Word) {bs : List Nat} (hc : 0xC ∈ bs) : s.light (s.watchWrite w hi) bs := by
  have a1 : (F.EV_FW_VAL_HI w).addr / 0x10000 = 0xC := by simp only [F.EV_FW_VAL_HI]; omega
  have fire : ∀ (t : State) (f : Nat), t.light (t.fireWatchers f 64) bs := fun t f =>
    State.light_mono (fireWatchers_light t f 64 (le_refl _)) (by simpa using hc)
  have arm : ∀ t : State, t.light { t with ev := { t.ev with armed := putBit t.ev.armed w true } } bs := fun t => State.light_of_eq rfl rfl
  exact State.light_trans (State.light_trans (s.light_set _ _ (a1 ▸ hc)) (arm _)) (fire _ _)

theorem clearLate_light (s : State) (r : Nat) (bs : List Nat) : s.light (s.clearLate r) bs := State.light_of_eq rfl rfl

theorem statusCommand_light (dt : Nat) (s : State) (src : Fin 1024) (level : Bool) {bs : List Nat} (hc : 0xC ∈ bs) :
    ∃ t, exec (.statusSourceChange dt src level) s = .next t ∧ s.light t bs :=
  elapse_light s _ dt (ite_light _ _ _ _ (State.light_refl _ _)
    (ite_light _ _ _ _ (State.light_setSignal _ _ _ _) (State.light_statusSource _ src.isLt level hc)))

theorem coalesceCommand_light (dt : Nat) (s : State) (src : Fin 1024) {bs : List Nat} (hc : 0xC ∈ bs) :
    ∃ t, exec (.coalesceTimeout dt src) s = .next t ∧ s.light t bs :=
  elapse_light s _ dt (ite_light _ _ _ _ (State.light_evSetState _ _ src.isLt hc) (State.light_refl _ _))

/-- A core's store behind its gate, as a command: light when the store is. -/
theorem storeCommand_light (dt : Nat) (s : State) (c a : Nat) (v : Word) (f : State → State) {bs : List Nat} (h : 0x11 ∈ bs) (hf : 0xF ∈ bs) (hc : 0xC ∈ bs)
    (k : (s.elapse dt).light (f (s.elapse dt)) bs) : ∃ t, ran ((s.elapse dt).coreWrite c a v f) = .next t ∧ s.light t bs :=
  elapse_light s _ dt (State.light_coreWrite _ c a v f h hf hc k)

/-- A read behind its gate, as a command: light when what it does before it answers is. -/
theorem readCommand_light (dt : Nat) (s : State) (r : Requester) (a : Nat) (f : State → State) (w : State → Word) {bs : List Nat} (h : 0x11 ∈ bs) (hc : 0xC ∈ bs)
    (k : (s.elapse dt).light (f (s.elapse dt)) bs) :
    ∃ t, ran ((s.elapse dt).readGate r a fun s => (f s).readReturn r (w s)) = .next t ∧ s.light t bs :=
  elapse_light s _ dt (State.light_readGate _ r a _ h hc (State.light_trans k (State.light_readReturn _ r _ h)))

/-- Settles O52: the eight commands one by one, each by the frame of what it does behind its gate. -/
theorem eventCommandFrame : Obligations.EventCommandFrame := by
  unfold Obligations.EventCommandFrame
  intro dt s c v r
  refine ⟨fun src level => statusCommand_light dt s src level (by decide), fun src => coalesceCommand_light dt s src (by decide), fun target => ?_, ?_, fun w => ?_, ?_, fun w => ?_, ?_⟩
  · exact storeCommand_light dt s _ _ _ _ (by decide) (by decide) (by decide) (completeOn_light _ _ target.isLt (Nat.mod_lt _ (by decide)) (by decide))
  · exact storeCommand_light dt s _ _ _ _ (by decide) (by decide) (by decide) (State.light_set _ F.EV_GLOBAL _ (by decide))
  · exact storeCommand_light dt s _ _ _ _ (by decide) (by decide) (by decide) (maskWrite_light _ _ w.isLt _ (by decide))
  · exact storeCommand_light dt s _ _ _ _ (by decide) (by decide) (by decide) (State.light_raise _ (by omega) (by decide))
  · exact storeCommand_light dt s _ _ _ _ (by decide) (by decide) (by decide) (watchWrite_light _ w.isLt _ (by decide))
  · exact readCommand_light dt s r _ _ _ (by decide) (by decide) (clearLate_light _ _ _)

/-! ### Thyme -/

theorem rateCommit_light (s : State) {bs : List Nat} (h1 : 1 ∈ bs) : s.light s.rateCommit bs := by
  unfold State.rateCommit
  exact State.light_trans (at1 s F.TB_COMMIT_STATUS_CODE _ h1)
    (ite_light _ _ _ _ (State.light_trans (State.light_setThy _ _ _) (at1 _ F.TB_COMMIT_STATUS_COUNT _ h1)) (State.light_refl _ _))

/-- A measurement within TB_JUMP_NS once result sets have started leaves device time, so it seals nothing (R41). -/
theorem measWrite_light (s : State) (hi : Word) (started : s.flag F.TB_STATUS_STARTED = true)
    (near : (signedOf 64 ((s.set F.TB_MEAS_HI hi.toNat).get64 F.TB_MEAS_LO F.TB_MEAS_HI)).natAbs ≤ s.get F.TB_JUMP_NS) {bs : List Nat} (h1 : 1 ∈ bs) (hc : 0xC ∈ bs) :
    s.light (s.measWrite hi) bs := by
  have e1 : (s.set F.TB_MEAS_HI hi.toNat).flag F.TB_STATUS_STARTED = true := by
    unfold State.flag at started ⊢; rwa [State.get_set_other _ _ _ _ (by decide)]
  have e2 : (s.set F.TB_MEAS_HI hi.toNat).get F.TB_JUMP_NS = s.get F.TB_JUMP_NS := State.get_set_other _ _ _ _ (by decide)
  rw [← e2] at near
  have still : ((s.set F.TB_MEAS_HI hi.toNat).measure (signedOf 64 ((s.set F.TB_MEAS_HI hi.toNat).get64 F.TB_MEAS_LO F.TB_MEAS_HI))).now = (s.set F.TB_MEAS_HI hi.toNat).now :=
    measure_now _ _ e1 near
  unfold State.measWrite
  simp only [still, lt_self_iff_false, decide_false, Bool.false_and, Bool.false_eq_true, if_false]
  exact State.light_trans (at1 s F.TB_MEAS_HI _ h1) (measure_within_light _ _ e1 near h1 hc)

theorem relockWrite_light (s : State) (v : Word) {bs : List Nat} (h : 0x11 ∈ bs) (hc : 0xC ∈ bs) : s.light (s.relockWrite v) bs := by
  unfold State.relockWrite
  exact ite_light _ _ _ _ (State.light_trans (State.light_setThy _ _ _) (State.light_hostReply _ _ _ _ _ h)) (State.light_hostRejected _ _ _ h hc)

theorem relockExpiry_light (dt : Nat) (s : State) : ∃ t, exec (.relockArmExpiry dt) s = .next t ∧ s.light t [] := by
  change ∃ t, execRelockArmExpiry dt s = .next t ∧ s.light t []
  cases h : (s.elapse dt).thy.arm with
  | none => simpa only [execRelockArmExpiry, h] using elapse_light s (s.elapse dt) dt (State.light_refl _ _)
  | some until_ =>
    simpa only [execRelockArmExpiry, h] using
      elapse_light s _ dt (ite_light (s.elapse dt) ((s.elapse dt).setThy (fun t => { t with arm := none })) _ (until_ < (s.elapse dt).now) (State.light_setThy _ _ _) (State.light_refl _ _))

/-- Settles O53: the nine commands one by one; a measurement that steps nothing by `measWrite_light`. -/
theorem thymeCommandFrame : Obligations.ThymeCommandFrame := by
  unfold Obligations.ThymeCommandFrame
  intro dt s c v r
  refine ⟨?_, ?_, fun started near => ?_, ?_, ?_, ?_, relockExpiry_light dt s, ?_, ?_⟩
  · exact readCommand_light dt s r _ _ _ (by decide) (by decide) (State.light_setThy _ _ _)
  · exact storeCommand_light dt s _ _ _ _ (by decide) (by decide) (by decide) (rateCommit_light _ (by decide))
  · exact storeCommand_light dt s _ _ _ _ (by decide) (by decide) (by decide) (measWrite_light _ v started near (by decide) (by decide))
  · exact elapse_light s _ dt (ite_light _ _ _ _ (timeout_light _ (by decide) (by decide)) (State.light_refl _ _))
  · exact elapse_light s _ dt (refreshTq_light _ (by decide) (by decide))
  · exact elapse_light s _ dt (State.light_hostWrite _ _ _ (by decide) (by decide) (by decide) (relockWrite_light _ v (by decide) (by decide)))
  · exact elapse_light s _ dt (ite_light _ _ _ _ (at1 _ F.TB_STATUS_STILL _ (by decide)) (State.light_refl _ _))
  · exact elapse_light s _ dt (ite_light _ _ _ _ (State.light_setThy _ _ _) (State.light_refl _ _))

end Sys2Proof.Proofs
end

section
/-! Proofs of the frames of the control outputs, the CAN controllers, Marjoram, the tiles and the power block (O54 to O57, O60). -/

namespace Sys2Proof.Proofs

open Sys2Proof Sys2Proof.Machine Sys2Proof.Laws

/-- A core's store behind its gate, as a command, changes what the store changes and what records a refusal. -/
theorem storeCommand_co (dt : Nat) (s : State) (c a : Nat) (v : Word) (f : State → State) {bs : List Nat} (h : 0x11 ∈ bs) (hf : 0xF ∈ bs) (hc : 0xC ∈ bs)
    (k : (s.elapse dt).changesOnly (f (s.elapse dt)) bs) : ∃ t, ran ((s.elapse dt).coreWrite c a v f) = .next t ∧ s.changesOnly t bs :=
  elapse_changes s _ dt (coreWrite_co _ c a v f h hf hc k)

/-- A read behind its gate, as a command, changes what it does and what answers it. -/
theorem readCommand_co (dt : Nat) (s : State) (r : Requester) (a : Nat) (f : State → State) (w : State → Word) {bs : List Nat} (h : 0x11 ∈ bs) (hc : 0xC ∈ bs)
    (k : (s.elapse dt).changesOnly (f (s.elapse dt)) bs) :
    ∃ t, ran ((s.elapse dt).readGate r a fun s => (f s).readReturn r (w s)) = .next t ∧ s.changesOnly t bs :=
  elapse_changes s _ dt (readGate_co _ r a _ h hc (State.changesOnly_trans k (readReturn_co _ r _ h)))

/-! ### Control outputs and captures -/

theorem trgTimeWrite_co (s : State) {o : Nat} (h : o < 16) (hi : Word) {bs : List Nat} (h1 : 0x14 ∈ bs) : s.changesOnly (s.trgTimeWrite o hi) bs :=
  State.changesOnly_trans (co_at s _ _ 0x14 h1 (by simp only [F.IO_TRG_TIME_HI]; omega)) (co_ite _ _ _ _ (State.changesOnly_refl _ _) (pushTrigger_co _ h _ h1))

theorem pulseEnd_co (dt : Nat) (s : State) (o : Fin 16) : ∃ t, exec (.triggerPulseEnd dt o) s = .next t ∧ s.changesOnly t [] := by
  change ∃ t, execTriggerPulseEnd dt o s = .next t ∧ s.changesOnly t []
  cases h : assocGet o.val (s.elapse dt).io.pulses with
  | none => simpa only [execTriggerPulseEnd, h] using elapse_changes s (s.elapse dt) dt (State.changesOnly_refl _ _)
  | some e =>
    simpa only [execTriggerPulseEnd, h] using
      elapse_changes s _ dt (co_ite (s.elapse dt) ((s.elapse dt).setIo (fun x => { x with pulses := assocDrop o.val x.pulses })) _ (e ≤ (s.elapse dt).now) (co_io _ _ _) (State.changesOnly_refl _ _))

/-- Settles O54: the six commands one by one. -/
theorem controlOutputFrame : Obligations.ControlOutputFrame := by
  unfold Obligations.ControlOutputFrame
  intro dt s c hi r
  refine ⟨fun w => ?_, fun o => ?_, fun o => pulseEnd_co dt s o, fun o => ?_, fun cap => ?_, fun f => ?_⟩
  · exact elapse_changes s _ dt (co_ite _ _ _ _ (applyTicks_co _ w.isLt _ (by decide)) (State.changesOnly_refl _ _))
  · exact elapse_changes s _ dt (co_ite _ _ _ _ (fireTrigger_co _ o.isLt (by decide)) (State.changesOnly_refl _ _))
  · exact storeCommand_co dt s _ _ _ _ (by decide) (by decide) (by decide) (trgTimeWrite_co _ o.isLt _ (by decide))
  · exact readCommand_co dt s r _ _ _ (by decide) (by decide) (popCapture_co _ _ cap.isLt (by decide))
  · exact readCommand_co dt s r _ _ _ (by decide) (by decide) (State.changesOnly_of_eq rfl rfl rfl rfl)

/-! ### CAN errors -/

section
variable {c : Nat} (hc : c < 2)
include hc

theorem canTec_block : (F.IO_CAN_STAT_TEC c).addr / 0x10000 = 0x14 := by simp only [F.IO_CAN_STAT_TEC]; omega
theorem canRec_block : (F.IO_CAN_STAT_REC c).addr / 0x10000 = 0x14 := by simp only [F.IO_CAN_STAT_REC]; omega
theorem canState_block : (F.IO_CAN_STAT_STATE c).addr / 0x10000 = 0x14 := by simp only [F.IO_CAN_STAT_STATE]; omega
theorem canRing_block : ringBlock (0x10 + c) = 2 := by interval_cases c <;> rfl

end

/-- A field write is light when its block is named: `co_at` for light states. -/
theorem light_at (s : State) (f : Field) (n b : Nat) {bs : List Nat} (h : b ∈ bs) (e : f.addr / 0x10000 = b) : s.light (s.set f n) bs := s.light_set f n (e ▸ h)

/-- A CAN violation's record and occurrence stay in the ingress block and the event controller's. -/
theorem canViolation_light (s : State) (ctrl : Fin 2) (code : Nat) (d : Bytes) : s.light (s.violation (0x10 + ctrl.val) code d) [0x14, 2, 0xC] :=
  s.light_violation _ _ (by omega) (by rw [canRing_block ctrl.isLt]; decide) (by decide)

theorem canPassive_light (dt : Nat) (s : State) (ctrl : Fin 2) (tec rec : Byte) :
    ∃ t, exec (.canErrorPassive dt ctrl tec rec) s = .next t ∧ s.light t [0x14, 2, 0xC] := by
  change ∃ t, execCanErrorPassive dt ctrl tec rec s = .next t ∧ s.light t [0x14, 2, 0xC]
  simp only [execCanErrorPassive]
  split
  · refine elapse_light s _ dt (State.light_trans ?_ (canViolation_light _ ctrl _ _))
    exact State.light_trans (State.light_trans (light_at _ _ _ _ (by decide) (canTec_block ctrl.isLt)) (light_at _ _ _ _ (by decide) (canRec_block ctrl.isLt))) (light_at _ _ _ _ (by decide) (canState_block ctrl.isLt))
  · exact elapse_light s _ dt (State.light_refl _ _)

theorem canOff_light (dt : Nat) (s : State) (ctrl : Fin 2) (tec : Byte) : ∃ t, exec (.canBusOff dt ctrl tec) s = .next t ∧ s.light t [0x14, 2, 0xC] := by
  change ∃ t, execCanBusOff dt ctrl tec s = .next t ∧ s.light t [0x14, 2, 0xC]
  simp only [execCanBusOff]
  split
  · refine elapse_light s _ dt (State.light_trans ?_ (canViolation_light _ ctrl _ _))
    exact State.light_trans (light_at _ _ _ _ (by decide) (canTec_block ctrl.isLt)) (light_at _ _ _ _ (by decide) (canState_block ctrl.isLt))
  · exact elapse_light s _ dt (State.light_refl _ _)

theorem canRecovery_light (dt : Nat) (s : State) (ctrl : Fin 2) : ∃ t, exec (.canBusOffRecovery dt ctrl) s = .next t ∧ s.light t [0x14] := by
  change ∃ t, execCanBusOffRecovery dt ctrl s = .next t ∧ s.light t [0x14]
  simp only [execCanBusOffRecovery]
  split
  · exact elapse_light s _ dt (State.light_trans
      (State.light_trans (light_at _ _ _ _ (by decide) (canState_block ctrl.isLt)) (light_at _ _ _ _ (by decide) (canTec_block ctrl.isLt)))
      (light_at _ _ _ _ (by decide) (canRec_block ctrl.isLt)))
  · exact elapse_light s _ dt (State.light_refl _ _)

/-- Settles O55: each command by the frame of what it writes and records. -/
theorem canErrorFrame : Obligations.CanErrorFrame := by
  unfold Obligations.CanErrorFrame
  intro dt s ctrl tec rec
  exact ⟨canPassive_light dt s ctrl tec rec, canOff_light dt s ctrl tec, canRecovery_light dt s ctrl⟩

/-! ### Marjoram -/

theorem capWrite_co (s : State) (v : Word) {bs : List Nat} (hb : 0xB ∈ bs) (hc : 0xC ∈ bs) : s.changesOnly (s.capWrite v) bs :=
  co_ite _ _ _ _ (State.changesOnly_trans (co_at s F.MJ_CAP_MW _ 0xB hb (by decide)) (co_mj _ _ _))
    (State.changesOnly_trans (co_at s F.MJ_CAP_REJ _ 0xB hb (by decide)) (State.changesOnly_raise _ (by decide) hc))

theorem setStarver_co (s : State) (c : Nat) (n : Option Nat) {bs : List Nat} (hb : 0xB ∈ bs) : s.changesOnly (s.setStarver c n) bs := by
  unfold State.setStarver
  split
  · exact State.changesOnly_trans (State.changesOnly_of_eq rfl rfl rfl rfl) (co_at _ F.MJ_STATUS_STARVE1 _ 0xB hb (by decide))
  · exact State.changesOnly_trans (State.changesOnly_of_eq rfl rfl rfl rfl) (co_at _ F.MJ_STATUS_STARVE2 _ 0xB hb (by decide))
  · exact State.changesOnly_refl _ _

theorem starveTimeout_co (dt : Nat) (s : State) (list : Fin 4095) : ∃ t, exec (.starveTimeout dt list) s = .next t ∧ s.changesOnly t [0xB] := by
  change ∃ t, execStarveTimeout dt list s = .next t ∧ s.changesOnly t [0xB]
  cases h : (s.elapse dt).inst? list.val with
  | none => simpa only [execStarveTimeout, h] using elapse_changes s (s.elapse dt) dt (State.changesOnly_refl _ _)
  | some i =>
    simp only [execStarveTimeout, h]
    exact elapse_changes s _ dt (co_ite _ _ _ _ (setStarver_co _ _ _ (by decide)) (State.changesOnly_refl _ _))

theorem debtTimeout_co (dt : Nat) (s : State) : ∃ t, exec (.energyDebtTimeout dt) s = .next t ∧ s.changesOnly t [0xC, 0xD] := by
  change ∃ t, execEnergyDebtTimeout dt s = .next t ∧ s.changesOnly t [0xC, 0xD]
  cases h : (s.elapse dt).mj.debtSince with
  | none => simpa only [execEnergyDebtTimeout, h] using elapse_changes s (s.elapse dt) dt (State.changesOnly_refl _ _)
  | some c =>
    simp only [execEnergyDebtTimeout, h]
    refine elapse_changes s _ dt (co_ite _ _ _ _ ?_ (State.changesOnly_refl _ _))
    refine State.changesOnly_trans ?_ (State.changesOnly_raise _ (by decide) (by decide))
    refine State.changesOnly_trans ?_ (State.changesOnly_safetyLog _ _ (by decide) (by decide))
    exact State.changesOnly_trans (co_mj _ _ _) (State.changesOnly_raise _ (by decide) (by decide))

/-- The 64 sensors of a sample, in turn. -/
theorem sampleAll_co (s : State) (temps : List (Option Int)) {bs : List Nat} (hb : 0xB ∈ bs) (hc : 0xC ∈ bs) (hd : 0xD ∈ bs) :
    s.changesOnly ((List.range 64).foldl (fun s i => s.sampleSensor i (temps.getD i none)) s) bs :=
  co_foldl _ _ (fun s _ hi => sample_co s (List.mem_range.1 hi) _ hb hc hd) s

/-- Settles O56: the five commands one by one. -/
theorem marjoramCommandFrame : Obligations.MarjoramCommandFrame := by
  unfold Obligations.MarjoramCommandFrame
  intro dt s c v
  refine ⟨?_, fun list => starveTimeout_co dt s list, debtTimeout_co dt s, fun temps => ?_, fun sensor => ?_⟩
  · exact storeCommand_co dt s _ _ _ _ (by decide) (by decide) (by decide) (capWrite_co _ _ (by decide) (by decide))
  · exact elapse_changes s _ dt (co_ite _ _ _ _ (State.changesOnly_trans (sampleAll_co _ _ (by decide) (by decide) (by decide)) (refreshZones_co _ (by decide))) (State.changesOnly_refl _ _))
  · exact elapse_changes s _ dt (co_ite _ _ _ _ (State.changesOnly_trans (sensorBad_co _ sensor.isLt _ (by decide) (by decide) (by decide)) (refreshZones_co _ (by decide))) (State.changesOnly_refl _ _))

/-! ### Tiles -/

theorem tempSample_co (dt : Nat) (s : State) (tile : Fin 144) (temp : BitVec 8) : ∃ t, exec (.tileTempSample dt tile temp) s = .next t ∧ s.changesOnly t [5] :=
  elapse_changes s _ dt (co_ite _ _ _ _
    (State.changesOnly_trans (co_at _ _ _ 5 (by decide) (by simp only [F.TL_T_STAT_TEMP]; omega)) (retarget_co _ _ _)) (State.changesOnly_refl _ _))

theorem endChange_co (s : State) (c : OpChange) (h : c.tile < 144) (settled : Bool) : s.changesOnly (s.endChange c settled) [5] := by
  unfold State.endChange
  refine State.changesOnly_trans ?_ (co_ite _ _ _ _ (retarget_co _ _ _) (State.changesOnly_refl _ _))
  refine State.changesOnly_trans ?_ (co_at _ _ _ 5 (by decide) (by simp only [F.TL_T_OPCHG]; omega))
  exact State.changesOnly_trans (co_tl _ _ _) (co_at _ _ _ 5 (by decide) (by simp only [F.TL_T_STAT_OP]; omega))

theorem opChangeDone_co (dt : Nat) (s : State) (tile : Fin 144) (ok : Bool) : ∃ t, exec (.opChangeDone dt tile ok) s = .next t ∧ s.changesOnly t [5] := by
  change ∃ t, execOpChangeDone dt tile ok s = .next t ∧ s.changesOnly t [5]
  cases h : (s.elapse dt).tl.opChanges.find? (fun c => c.tile == tile.val) with
  | none => simpa only [execOpChangeDone, h] using elapse_changes s (s.elapse dt) dt (State.changesOnly_refl _ _)
  | some c =>
    have same : c.tile = tile.val := by simpa using List.find?_some h
    simp only [execOpChangeDone, h]
    exact elapse_changes s _ dt (co_ite _ _ _ _ (endChange_co _ c (same ▸ tile.isLt) ok) (State.changesOnly_refl _ _))

theorem vaultCe_co (s : State) {v : Nat} (h : v < 144) (layer row : Nat) {bs : List Nat} (h5 : 5 ∈ bs) : s.changesOnly (s.vaultCe v layer row) bs :=
  State.changesOnly_trans (co_at s _ _ 5 h5 (by simp only [F.TL_VAULT_CE]; omega)) (co_tl _ _ _)

theorem vaultScrub_co (dt : Nat) (s : State) (tile : Fin 144) (offset : Nat) (f : ScrubFinding) :
    ∃ t, exec (.vaultScrub dt tile offset f) s = .next t ∧ s.changesOnly t [5, 0xC, 0xD] := by
  refine elapse_changes s _ dt (co_ite _ _ _ _ ?_ (State.changesOnly_refl _ _))
  cases f with
  | clean => exact State.changesOnly_refl _ _
  | corrected row => exact vaultCe_co _ tile.isLt _ _ (by decide)
  | uncorrectable => exact recordUe_co _ _ _ _ _ (by decide) (by decide) (by decide)

/-- Settles O57: each command by the frame of what it does behind its condition. -/
theorem tileCommandFrame : Obligations.TileCommandFrame := by
  unfold Obligations.TileCommandFrame
  intro dt s tile
  refine ⟨fun temp => tempSample_co dt s tile temp, fun ok => opChangeDone_co dt s tile ok, fun layer row => ?_, fun offset f => vaultScrub_co dt s tile offset f⟩
  exact elapse_changes s _ dt (co_ite _ _ _ _ (remap_co _ tile.isLt _ _ (by decide) (by decide)) (State.changesOnly_refl _ _))

/-! ### Power and boundary scan -/

theorem alarmWrite_co (s : State) (a : Fin 4) (hi : Word) {bs : List Nat} (h : 0x10 ∈ bs) : s.changesOnly (s.alarmWrite a hi) bs := by
  refine State.changesOnly_trans (t := (s.set (F.PW_ALARM_HI a) hi.toNat).setFlag (F.PW_ALARM_STAT_ARMED a) true) ?_ (State.changesOnly_of_eq rfl rfl rfl rfl)
  exact State.changesOnly_trans (co_at _ _ _ 0x10 h (by simp only [F.PW_ALARM_HI]; omega)) (co_at _ _ _ 0x10 h (by simp only [F.PW_ALARM_STAT_ARMED]; omega))

/-- Besides registers an alarm's store changes only which alarms were late when they were armed, and so does a refused one: nothing. -/
theorem alarmStore_rest (s : State) (c : Fin 8) (a : Fin 4) (hi : Word) :
    (s.coreWrite c (F.PW_ALARM_HI a).addr hi (fun s => s.alarmWrite a hi)).rest =
      { s.rest with pw := { s.pw with late := (s.coreWrite c (F.PW_ALARM_HI a).addr hi (fun s => s.alarmWrite a hi)).pw.late } } := by
  have only : ∀ t : State, t.rest = s.rest → t.rest = { s.rest with pw := { s.pw with late := t.pw.late } } := by
    intro t h
    have hp : t.pw = s.pw := show t.rest.pw = s.rest.pw from congrArg (fun u : State => u.pw) h
    rw [h, hp]; rfl
  unfold State.coreWrite
  split
  · split
    · rfl
    · exact only _ (State.light_refuseWrite s _ _ (bs := [0xC, 0xF, 0x11]) (by decide) (by decide) (by decide)).2
  · rfl

/-- Settles O60: an alarm's store by `alarmWrite_co` and `alarmStore_rest`, the others by the frames of what they do. -/
theorem powerFrame : Obligations.PowerFrame := by
  unfold Obligations.PowerFrame
  intro dt s
  refine ⟨fun c a hi => ⟨_, rfl, ?_, ?_⟩, ?_, fun code => ?_⟩
  · exact State.changesOnly_trans (s.changesOnly_elapse dt _)
      (State.changesOnly_trans (coreWrite_co _ _ _ _ _ (by decide) (by decide) (by decide) (alarmWrite_co _ a hi (by decide))) (State.changesOnly_drive _ _))
  · exact alarmStore_rest (s.elapse dt) c a hi
  · exact elapse_light s _ dt (State.light_of_eq rfl rfl)
  · exact elapse_changes s _ dt (State.changesOnly_of_eq rfl rfl rfl rfl)

end Sys2Proof.Proofs
end

section
/-! Proofs of the frames of cores' stores and of the host's register reads (O58, O59). -/

namespace Sys2Proof.Proofs

open Sys2Proof Sys2Proof.Machine Sys2Proof.Laws

/-! ### Stores of control cores -/

/-- A store that R6 or R402 refuses leaves the record of the refusal, or nothing where no core runs. -/
theorem coreWrite_refused_light (s : State) (c : Nat) {a : Nat} {v : Word} (f : State → State) (no : coreMayWrite a = false ∨ cleanWrite a v = false) :
    s.light (s.coreWrite c a v f) [0xC, 0xF, 0x11] := by
  cases h : s.running with
  | true => rw [State.coreWrite_refused h no]; exact State.light_refuseWrite _ _ _ (by decide) (by decide) (by decide)
  | false => rw [State.coreWrite, h]; exact State.light_refl _ _

theorem coreUnmapped_light (s : State) (c a : Nat) : s.light (s.coreUnmapped c a) [0xC, 0xF, 0x11] := viol_light s _ _ (by decide) (by decide)

theorem refusedStore_light (dt : Nat) (s : State) (c : Fin 8) (addr v : Word) (no : coreMayWrite addr.toNat = false ∨ cleanWrite addr.toNat v = false ∨ mapped addr.toNat = false) :
    ∃ t, exec (.controlCoreStore dt c addr v) s = .next t ∧ s.light t [0xC, 0xF, 0x11] := by
  change ∃ t, execControlCoreStore dt c addr v s = .next t ∧ s.light t [0xC, 0xF, 0x11]
  simp only [execControlCoreStore]
  cases h : mapped addr.toNat <;> simp only [if_true, Bool.false_eq_true, if_false]
  case true => exact elapse_light s _ dt (coreWrite_refused_light _ _ _ (by simpa [h] using no))
  case false => exact elapse_light s _ dt (ite_light _ _ _ _ (coreUnmapped_light _ _ _) (State.light_refl _ _))

/-- A plain store changes its register alone. -/
theorem plainStore_frame (s : State) (a : Nat) (v : Word) : (s.plainStore a v).rest = s.rest ∧ s.sameMemories (s.plainStore a v) ∧ ∀ b, b ≠ a → (s.plainStore a v).readReg b = s.readReg b := by
  unfold State.plainStore
  split
  · exact ⟨rfl, ⟨rfl, rfl, rfl⟩, fun b h => State.readReg_writeReg_other _ h _⟩
  · exact ⟨rfl, ⟨rfl, rfl, rfl⟩, fun _ _ => rfl⟩

theorem storeEffect_plain {s : State} {c : Fin 8} {a : Nat} {v : Word} (h1 : s.storeSingle c a v = none) (h2 : s.storeArray c a v = none) :
    s.storeEffect c a v = s.plainStore a v := by
  rw [State.storeEffect, h1, h2]; rfl

/-- Settles O58: a store that goes through with no effect of its own is a plain store, which changes its register alone. -/
theorem storeFrame : Obligations.StoreFrame := by
  unfold Obligations.StoreFrame
  intro dt s c addr v
  refine ⟨refusedStore_light dt s c addr v, fun hm h1 h2 may clean => ?_⟩
  change ∃ t, execControlCoreStore dt c addr v s = .next t ∧ t.rest = s.rest ∧ s.sameMemories t ∧ ∀ b, b ≠ addr.toNat → t.readReg b = s.readReg b
  simp only [execControlCoreStore, hm, if_true]
  refine ⟨_, rfl, ?_⟩
  cases h : (s.elapse dt).running with
  | true =>
    rw [State.coreWrite_run h may clean, storeEffect_plain h1 h2]
    exact plainStore_frame (s.elapse dt) addr.toNat v
  | false =>
    rw [State.coreWrite, h]
    exact ⟨rfl, ⟨rfl, rfl, rfl⟩, fun _ _ => rfl⟩

/-! ### Reads of the host -/

theorem endHostRead_closed {s : State} (h : s.hp.reading = none) : s.endHostRead = s := by rw [State.endHostRead, h]

/-- The answer to a transaction whose CRC is wrong (R378). -/
theorem badCrc_light (s : State) (opcode a n : Nat) {bs : List Nat} (h : 0x11 ∈ bs) (hc : 0xC ∈ bs) :
    s.light (((s.violation 0x13 0x73 (BitVec.ofNat 8 opcode :: leBytes 4 a)).incSat F.HP_CRC_ERR).hostReply opcode 0xC1 0 (zerosB n)) bs :=
  State.light_trans (State.light_trans (viol_light s _ _ h hc) (light_at _ F.HP_CRC_ERR _ 0x11 h (by decide))) (State.light_hostReply _ _ _ _ _ h)

theorem hostAddrErr_light (s : State) (opcode a n : Nat) {bs : List Nat} (h : 0x11 ∈ bs) (hc : 0xC ∈ bs) : s.light (s.hostAddrErr opcode a n) bs :=
  State.light_trans (State.light_trans (viol_light s _ _ h hc) (light_at _ F.HP_ADDR_ERR _ 0x11 h (by decide))) (State.light_hostReply _ _ _ _ _ h)

theorem registerRead_co (s : State) (opcode n : Nat) {a : Nat} (met : WindowMet) (h : a < 0x80000000) : s.changesOnly (s.hostRead opcode a n met) [0xC, 0x11, 0x14] := by
  unfold State.hostRead
  rw [if_neg (by omega)]
  refine co_ite _ _ _ _ (State.light_hostUnpowered _ _ _ _ (by decide) (by decide)).1 (co_ite _ _ _ _ (hostAddrErr_light _ _ _ _ (by decide) (by decide)).1 ?_)
  exact State.changesOnly_trans (hostWords_co _ _ _ (by decide) (by decide)) (State.light_hostReply _ _ _ _ _ (by decide)).1

/-- A transaction with no reading open changes what it does or what its wrong CRC leaves. -/
theorem hostTxn_co {s : State} (closed : s.hp.reading = none) (opcode a n : Nat) (data : Bytes) (crc : BitVec 16) (f : State → State) {bs : List Nat} (h : 0x11 ∈ bs) (hc : 0xC ∈ bs)
    (k : s.changesOnly (f s) bs) : s.changesOnly (s.hostTxn opcode a n data crc f) bs := by
  unfold State.hostTxn
  rw [endHostRead_closed closed]
  exact co_ite _ _ _ _ (State.changesOnly_refl _ _) (co_ite _ _ _ _ k (badCrc_light _ _ _ _ h hc).1)

/-- Settles O59: the four reads differ in their length alone. -/
theorem hostReadFrame : Obligations.HostReadFrame := by
  unfold Obligations.HostReadFrame
  intro dt s addr crc met low closed
  have read : ∀ opcode n : Nat,
      ∃ t, ran ((s.elapse dt).hostTxn opcode addr.toNat n [] crc (fun s => s.hostRead opcode addr.toNat n met)) = .next t ∧ s.changesOnly t [0xC, 0x11, 0x14] := fun opcode n =>
    elapse_changes s _ dt (hostTxn_co (s := s.elapse dt) closed _ _ _ _ _ _ (by decide) (by decide) (registerRead_co _ _ _ _ low))
  exact ⟨read _ _, read _ _, read _ _, read _ _⟩

end Sys2Proof.Proofs
end

section
/-! Bytes that come back: a flit from its 272 bytes (O42), the NVM after the flash's commands (O43), a buffer spilled and reloaded (O44); and what a failed boot records (O50). -/

namespace Sys2Proof.Proofs

open Sys2Proof Sys2Proof.Machine Sys2Proof.Laws

/-! ### Flits (R386) -/

/-- A field of a byte string is the number of the piece that stands there. -/
theorem fieldB_at {bs a b c : Bytes} {o n : Nat} (h : bs = a ++ b ++ c) (ho : a.length = o) (hn : b.length = n) : fieldB bs o n = leNat b := by
  rw [fieldB, slice_at h ho hn]

/-- The 268 bytes of a flit that its CRC covers. -/
def flitBody (f : LinkFlit) (seqNo ack back : Nat) : Bytes :=
  [BitVec.ofNat 8 f.cls] ++ ([BitVec.ofNat 8 (f.src + 8 * f.dst)] ++ (leBytes 2 seqNo ++ (leBytes 2 ack ++ (leBytes 2 back ++ (f.payload ++ zerosB 4)))))

theorem flitBody_length {f : LinkFlit} (h : f.payload.length = 256) (seqNo ack back : Nat) : (flitBody f seqNo ack back).length = 268 := by
  simp [flitBody, leBytes_length, h, zerosB]

theorem flitBytes_eq {f : LinkFlit} (h : f.payload.length = 256) {a b c : Nat} (hb : f.back = [a, b, c]) (seqNo ack : Nat) :
    flitBytes f seqNo ack = flitBody f seqNo ack (a + 16 * b + 256 * c) ++ leBytes 4 (crc32 (flitBody f seqNo ack (a + 16 * b + 256 * c))) := by
  have whole : sliceB f.payload 0 256 = f.payload := by rw [sliceB_in (by omega)]; simp [h]
  simp [flitBytes, flitBody, whole, hb]

section
variable {f : LinkFlit} {a b c seqNo ack : Nat} (hp : f.payload.length = 256) (hb : f.back = [a, b, c])
include hp hb

theorem flitBytes_length : (flitBytes f seqNo ack).length = 272 := by
  rw [flitBytes_eq hp hb, List.length_append, flitBody_length hp, leBytes_length]

theorem flit_intact : flitIntact (flitBytes f seqNo ack) = true := by
  have hl := flitBody_length hp seqNo ack (a + 16 * b + 256 * c)
  have hcrc : fieldB (flitBytes f seqNo ack) 268 4 = crc32 (flitBody f seqNo ack (a + 16 * b + 256 * c)) := by
    rw [flitBytes_eq hp hb, fieldB_at (List.append_nil _).symm hl (leBytes_length _ _), leNat_leBytes]
    exact Nat.mod_eq_of_lt (crc32_lt _)
  have htake : (flitBytes f seqNo ack).take 268 = flitBody f seqNo ack (a + 16 * b + 256 * c) := by rw [flitBytes_eq hp hb, List.take_left' hl]
  simp [flitIntact, flitBytes_length hp hb, hcrc, htake]

theorem flit_class (h : f.cls < 256) : fieldB (flitBytes f seqNo ack) 0 1 = f.cls := by
  rw [flitBytes_eq hp hb, flitBody, fieldB_at (o := 0) (n := 1) (a := []) (b := [BitVec.ofNat 8 f.cls]) (by simp only [List.nil_append, List.append_assoc]; rfl) rfl rfl]
  simp [leNat]; omega

theorem flit_ranks : fieldB (flitBytes f seqNo ack) 1 1 = (f.src + 8 * f.dst) % 256 := by
  rw [flitBytes_eq hp hb, flitBody, fieldB_at (o := 1) (n := 1) (a := [BitVec.ofNat 8 f.cls]) (b := [BitVec.ofNat 8 (f.src + 8 * f.dst)]) (by simp only [List.append_assoc]; rfl) rfl rfl]
  simp [leNat]

theorem flit_seq : fieldB (flitBytes f seqNo ack) 2 2 = seqNo % 65536 := by
  rw [flitBytes_eq hp hb, flitBody, fieldB_at (o := 2) (n := 2) (a := [BitVec.ofNat 8 f.cls, BitVec.ofNat 8 (f.src + 8 * f.dst)]) (b := leBytes 2 seqNo) (by simp only [List.append_assoc]; rfl) rfl (leBytes_length _ _),
    leNat_leBytes]
  rfl

theorem flit_ack : fieldB (flitBytes f seqNo ack) 4 2 = ack % 65536 := by
  rw [flitBytes_eq hp hb, flitBody, fieldB_at (o := 4) (n := 2) (a := [BitVec.ofNat 8 f.cls, BitVec.ofNat 8 (f.src + 8 * f.dst)] ++ leBytes 2 seqNo) (b := leBytes 2 ack) (by simp only [List.append_assoc]; rfl)
    (by simp [leBytes_length]) (leBytes_length _ _), leNat_leBytes]
  rfl

theorem flit_credits : fieldB (flitBytes f seqNo ack) 6 2 = (a + 16 * b + 256 * c) % 65536 := by
  rw [flitBytes_eq hp hb, flitBody, fieldB_at (o := 6) (n := 2) (a := [BitVec.ofNat 8 f.cls, BitVec.ofNat 8 (f.src + 8 * f.dst)] ++ leBytes 2 seqNo ++ leBytes 2 ack) (b := leBytes 2 (a + 16 * b + 256 * c))
    (by simp only [List.append_assoc]; rfl) (by simp [leBytes_length]) (leBytes_length _ _), leNat_leBytes]
  rfl

theorem flit_payload : sliceB (flitBytes f seqNo ack) 8 256 = f.payload := by
  rw [flitBytes_eq hp hb, flitBody]
  exact slice_at (a := [BitVec.ofNat 8 f.cls, BitVec.ofNat 8 (f.src + 8 * f.dst)] ++ leBytes 2 seqNo ++ leBytes 2 ack ++ leBytes 2 (a + 16 * b + 256 * c)) (by simp only [List.append_assoc]; rfl)
    (by simp [leBytes_length]) hp

end

/-- Settles O42: each field is the piece that stands at its offset. -/
theorem flitRoundTrip : Obligations.FlitRoundTrip := by
  unfold Obligations.FlitRoundTrip
  intro f seqNo ack a b c hcls hsrc hdst hp hb ha hb' hc hseq hack
  refine ⟨flitBytes_length hp hb, flit_intact hp hb, ?_, ?_, ?_⟩
  · have credits : [bitsOf (a + 16 * b + 256 * c) 0 4, bitsOf (a + 16 * b + 256 * c) 4 4, bitsOf (a + 16 * b + 256 * c) 8 4] = f.back := by
      simp only [hb, bitsOf, List.cons.injEq, and_true]; omega
    have ranks : bitsOf (f.src + 8 * f.dst) 0 3 = f.src ∧ bitsOf (f.src + 8 * f.dst) 3 3 = f.dst := by simp only [bitsOf]; omega
    rw [flitOf, flit_class hp hb hcls, flit_ranks hp hb, flit_credits hp hb, flit_payload hp hb, Nat.mod_eq_of_lt (by omega : f.src + 8 * f.dst < 256),
      Nat.mod_eq_of_lt (by omega : a + 16 * b + 256 * c < 65536)]
    rw [credits, ranks.1, ranks.2]
  · rw [flitSeq, flit_seq hp hb]; simp only [bitsOf]; omega
  · rw [flitAck, flit_ack hp hb]; simp only [bitsOf]; omega

end Sys2Proof.Proofs
end

section
/-! Proofs about the NVM's commands (O43), spills and reloads (O44) and failed boots (O50). -/

namespace Sys2Proof.Proofs

open Sys2Proof Sys2Proof.Machine Sys2Proof.Laws

theorem flag_setFlag (s : State) (f : Field) (b : Bool) (h : f.lo + f.width ≤ 32 := by decide) (w : f.width = 1 := by rfl) : (s.setFlag f b).flag f = b := by
  rw [State.flag, State.setFlag, State.get_set_same _ _ _ h, w]
  cases b <;> rfl

/-! ### The flash (R352) -/

/-- A flash command that succeeds leaves what it does and BUSY clear. -/
theorem exec_nvmComplete {dt : Nat} {s : State} {op a : Nat} {data : Bytes} (status : Byte) (h : (s.elapse dt).bt.nvmJob = some (op, a, data)) :
    exec (.nvmOperationComplete dt false status) s =
      ran (((((s.elapse dt).flashDone op a data false).nextFree).setFlag F.BT_MIN_STAT_BUSY false).setBt (fun b => { b with nvmJob := none })) := by
  change execNvmOperationComplete _ _ _ _ = _
  simp only [execNvmOperationComplete, h, Bool.false_and, Bool.false_eq_true, if_false]

/-- What follows the flash's own effect: BUSY clears, the NVM and the buffer stay. -/
theorem flash_settled (w : State) (f : BtState → BtState) :
    ((w.nextFree.setFlag F.BT_MIN_STAT_BUSY false).setBt f).drive.flag F.BT_MIN_STAT_BUSY = false ∧ ((w.nextFree.setFlag F.BT_MIN_STAT_BUSY false).setBt f).drive.nvm = w.nvm ∧
      ∀ i, ((w.nextFree.setFlag F.BT_MIN_STAT_BUSY false).setBt f).drive.readReg ((F.BT_NVM_BUF 0).addr + 4 * i) = w.readReg ((F.BT_NVM_BUF 0).addr + 4 * i) :=
  ⟨flag_setFlag w.nextFree F.BT_MIN_STAT_BUSY false, rfl, fun i => State.readReg_set_other _ F.BT_MIN_STAT_BUSY _ (by simp only [F.BT_NVM_BUF, F.BT_MIN_STAT_BUSY]; omega)⟩

/-- A flash command that succeeds ends in a state with BUSY clear, whose NVM and buffer are as its own effect left them. -/
theorem nvmComplete_ends {dt : Nat} {s : State} {op a : Nat} {data : Bytes} (status : Byte) (h : (s.elapse dt).bt.nvmJob = some (op, a, data)) :
    ∃ t, exec (.nvmOperationComplete dt false status) s = .next t ∧ t.flag F.BT_MIN_STAT_BUSY = false ∧ t.nvm = ((s.elapse dt).flashDone op a data false).nvm ∧
      ∀ i, t.readReg ((F.BT_NVM_BUF 0).addr + 4 * i) = ((s.elapse dt).flashDone op a data false).readReg ((F.BT_NVM_BUF 0).addr + 4 * i) := by
  rw [exec_nvmComplete status h]
  exact ⟨_, rfl, flash_settled _ _⟩

theorem nvmRead_writeRange_in {s : State} {m : List (Nat × Byte)} {a : Nat} {data : Bytes} (h : s.nvm = Memory.writeRange nvmDefault m a data) : s.nvmRead a data.length = data := by
  refine List.ext_getElem (by simp [State.nvmRead]) fun i _ hi => ?_
  simpa [State.nvmRead, h] using Memory.read_writeRange_in m a data i hi

theorem nvmRead_writeRange_out {s u : State} {a : Nat} {data : Bytes} (h : s.nvm = Memory.writeRange nvmDefault u.nvm a data) {x : Nat} (hx : x < a ∨ a + data.length ≤ x) :
    s.nvmRead x 1 = u.nvmRead x 1 := by
  rw [read1, read1, h, Memory.read_writeRange_out _ _ hx]

/-- An erased sector reads as erased flash (log entry 9), the rest as before. -/
theorem nvmRead_erased {s u : State} {a : Nat} (h : s.nvm = u.nvm.filter (fun e => decide (e.1 < a / 65536 * 65536) || decide (a / 65536 * 65536 + 65536 ≤ e.1))) (x : Nat) :
    s.nvmRead x 1 = if x / 65536 = a / 65536 then [nvmDefault x] else u.nvmRead x 1 := by
  rw [read1, read1, h, read_filter _ (fun e => decide (e < a / 65536 * 65536) || decide (a / 65536 * 65536 + 65536 ≤ e))]
  have same : (decide (x < a / 65536 * 65536) || decide (a / 65536 * 65536 + 65536 ≤ x)) = !decide (x / 65536 = a / 65536) := by
    rw [Bool.eq_iff_iff]; simp; omega
  rw [same]
  by_cases hx : x / 65536 = a / 65536 <;> simp [hx]

theorem flashProgram_nvm (s : State) (a : Nat) (data : Bytes) : (s.flashDone 2 a data false).nvm = Memory.writeRange nvmDefault s.nvm a data := by
  simp only [State.flashDone, Bool.false_eq_true, if_false]

theorem flashErase_nvm (s : State) (a : Nat) (data : Bytes) :
    (s.flashDone 3 a data false).nvm = s.nvm.filter (fun e => decide (e.1 < a / 65536 * 65536) || decide (a / 65536 * 65536 + 65536 ≤ e.1)) := by
  simp only [State.flashDone, Bool.false_eq_true, if_false]

theorem flashRead_nvm (s : State) (a : Nat) (data : Bytes) (failed : Bool) : (s.flashDone 1 a data failed).nvm = s.nvm := nvm_words _ _ s

theorem flashRead_reg (s : State) (a : Nat) (data : Bytes) (failed : Bool) {i : Nat} (h : i < 64) :
    (s.flashDone 1 a data failed).readReg ((F.BT_NVM_BUF 0).addr + 4 * i) = BitVec.ofNat 32 ((wordsOf 64 (s.nvmRead a 256)).getD i 0) :=
  writeWords_in s _ _ _ (by rwa [wordsOf_length])

/-- Settles O43: that a program copies its buffer whole and that an erase leaves 0xFF are the model's choices (log entries 58 and 9). -/
theorem nvmCommands : Obligations.NvmCommands := by
  unfold Obligations.NvmCommands
  rintro dt s u status a data rfl
  refine ⟨fun h => ?_, fun h => ?_, fun h => ?_⟩ <;> obtain ⟨t, ht, idle, nvm, buf⟩ := nvmComplete_ends status h
  · rw [flashProgram_nvm] at nvm
    exact ⟨t, ht, nvmRead_writeRange_in nvm, idle, fun x hx => nvmRead_writeRange_out nvm hx⟩
  · rw [flashErase_nvm] at nvm
    exact ⟨t, ht, idle, fun x hx => (nvmRead_erased nvm x).trans (if_pos hx), fun x hx => (nvmRead_erased nvm x).trans (if_neg hx)⟩
  · rw [flashRead_nvm] at nvm
    exact ⟨t, ht, idle, nvm, regBytes_words _ _ _ _ (by simp [State.nvmRead]) fun i hi => (buf i).trans (flashRead_reg _ _ _ _ hi)⟩

/-! ### Spills and reloads (R160) -/

/-- A byte of a mapped tile's DRAM lies at its own address in the local view. -/
theorem toLocal_tile {s : State} {l a : Nat} (h : l < s.tiles) (ha : a < (l + 1) * 2 ^ 28) : s.toLocal a = some a := by
  have : a / 2 ^ 28 < s.tiles := by omega
  rw [State.toLocal, if_pos this]

theorem sramRead_write (s : State) {l o : Nat} {bs : Bytes} (h : o + bs.length ≤ sramSize) : (s.sramWrite l o bs).sramRead l o bs.length = bs := by
  refine List.ext_getElem (by simp [State.sramRead]) fun i _ hi => ?_
  have hin : o + i < sramSize := by omega
  have whole : bs.take (sramSize - o) = bs := List.take_of_length_le (by omega)
  have back := Memory.read_writeRange_in (d := ramDefault) s.sram (l * sramSize + o) bs i hi
  simpa [State.sramRead, State.sramByte, State.sramWrite, hin, whole, Nat.add_assoc] using back

theorem sramByte_write_out (s : State) {l o l' o' : Nat} {bs : Bytes} (h : o + bs.length ≤ sramSize) (hin : o' < sramSize) (apart : l' ≠ l ∨ o' < o ∨ o + bs.length ≤ o') :
    (s.sramWrite l o bs).sramByte l' o' = s.sramByte l' o' := by
  have whole : bs.take (sramSize - o) = bs := List.take_of_length_le (by omega)
  rw [State.sramByte, State.sramByte, if_pos hin, if_pos hin, State.sramWrite, whole]
  refine Memory.read_writeRange_out _ _ ?_
  simp only [sramSize] at *
  omega

theorem exec_spillOut {dt : Nat} {s : State} {tile : Fin 144} {offset : Nat} {b : SramBuf} (h : (s.elapse dt).bufAt tile.val offset = some b) (out : b.phase = .leaving) :
    exec (.spillOutComplete dt tile offset) s =
      ran ((((((s.elapse dt).dramWrite ((s.elapse dt).spillAddr tile.val b.spill) ((s.elapse dt).sramRead tile.val b.ofs b.len)).putBuf { b with phase := .spilled }).set (F.TL_SPILL_OUT tile.val)
        (((s.elapse dt).dramWrite ((s.elapse dt).spillAddr tile.val b.spill) ((s.elapse dt).sramRead tile.val b.ofs b.len)).get (F.TL_SPILL_OUT tile.val) + b.units)).settleMark tile.val)) := by
  change execSpillOutComplete _ _ _ _ = _
  simp only [execSpillOutComplete, h, out, beq_self_eq_true, if_true]

theorem exec_reload {dt : Nat} {s : State} {tile : Fin 144} {offset : Nat} {b : SramBuf} (h : (s.elapse dt).bufAt tile.val offset = some b) (inn : b.phase = .returning) :
    exec (.reloadComplete dt tile offset) s =
      ran ((((s.elapse dt).sramWrite tile.val b.ofs ((s.elapse dt).dramRead ((s.elapse dt).spillAddr tile.val b.spill) b.len)).putBuf { b with phase := .present }).set (F.TL_SPILL_IN tile.val)
        (((s.elapse dt).sramWrite tile.val b.ofs ((s.elapse dt).dramRead ((s.elapse dt).spillAddr tile.val b.spill) b.len)).get (F.TL_SPILL_IN tile.val) + b.units)) := by
  change execReloadComplete _ _ _ _ = _
  simp only [execReloadComplete, h, inn, beq_self_eq_true, if_true]

/-- What follows the bytes of a spill leaves every memory as the bytes left it, and the number of tiles. -/
theorem spillEnd_frame (s : State) (x : SramBuf) (tile n : Nat) (l : Nat) (ht : tile < 144) :
    (((s.putBuf x).set (F.TL_SPILL_OUT tile) n).settleMark l).drive.dram = s.dram ∧ (((s.putBuf x).set (F.TL_SPILL_OUT tile) n).settleMark l).drive.sram = s.sram ∧
      (((s.putBuf x).set (F.TL_SPILL_OUT tile) n).settleMark l).drive.nvm = s.nvm ∧ (((s.putBuf x).set (F.TL_SPILL_OUT tile) n).settleMark l).drive.tiles = s.tiles := by
  obtain ⟨hd, hs, hn, hr⟩ := settleMark_eq ((s.putBuf x).set (F.TL_SPILL_OUT tile) n) l
  have hcols : (((s.putBuf x).set (F.TL_SPILL_OUT tile) n)).readReg F.GLB_STATUS_COLS.addr = s.readReg F.GLB_STATUS_COLS.addr :=
    State.readReg_set_other _ _ _ (by simp only [F.GLB_STATUS_COLS, F.TL_SPILL_OUT]; omega)
  exact ⟨hd, hs, hn, congrArg (12 * ·) (get_of_reg (hr.trans hcols))⟩

theorem spillOut_moves {dt : Nat} {s : State} {tile : Fin 144} {offset : Nat} {b : SramBuf} (h : (s.elapse dt).bufAt tile.val offset = some b) (out : b.phase = .leaving)
    (live : tile.val < (s.elapse dt).tiles) (fits : (s.elapse dt).spillAddr tile.val b.spill + b.len ≤ (tile.val + 1) * 2 ^ 28) :
    ∃ t, exec (.spillOutComplete dt tile offset) s = .next t ∧
      t.dramRead ((s.elapse dt).spillAddr tile.val b.spill) b.len = (s.elapse dt).sramRead tile.val b.ofs b.len ∧ t.sram = (s.elapse dt).sram ∧ t.nvm = (s.elapse dt).nvm ∧
      ∀ x, (∀ i < b.len, (s.elapse dt).toLocal x ≠ (s.elapse dt).toLocal ((s.elapse dt).spillAddr tile.val b.spill + i)) → t.dramByte x = (s.elapse dt).dramByte x := by
  rw [exec_spillOut h out]
  refine ⟨_, rfl, ?_⟩
  generalize s.elapse dt = u at *
  have hlen : (u.sramRead tile.val b.ofs b.len).length = b.len := by simp [State.sramRead]
  have back := read_write_linear u (u.spillAddr tile.val b.spill) (u.sramRead tile.val b.ofs b.len) (fun i hi => toLocal_tile live (by omega))
  have kept := u.dramByte_dramWrite_out (u.spillAddr tile.val b.spill) (u.sramRead tile.val b.ofs b.len)
  obtain ⟨d, hd⟩ := u.dramWrite_eq (u.spillAddr tile.val b.spill) (u.sramRead tile.val b.ofs b.len)
  rw [hlen] at back kept
  obtain ⟨td, ts, tn, tt⟩ := spillEnd_frame (u.dramWrite (u.spillAddr tile.val b.spill) (u.sramRead tile.val b.ofs b.len)) { b with phase := .spilled } tile.val
    ((u.dramWrite (u.spillAddr tile.val b.spill) (u.sramRead tile.val b.ofs b.len)).get (F.TL_SPILL_OUT tile.val) + b.units) tile.val tile.isLt
  refine ⟨?_, ts.trans (by rw [hd]), tn.trans (by rw [hd]), fun x hx => ?_⟩
  · exact (List.map_congr_left fun i _ => dramByte_congr td tt _).trans back
  · rw [dramByte_congr td tt, kept x hx]

theorem reload_moves {dt : Nat} {s : State} {tile : Fin 144} {offset : Nat} {b : SramBuf} (h : (s.elapse dt).bufAt tile.val offset = some b) (inn : b.phase = .returning)
    (fits : b.ofs + b.len ≤ sramSize) :
    ∃ t, exec (.reloadComplete dt tile offset) s = .next t ∧ t.sramRead tile.val b.ofs b.len = (s.elapse dt).dramRead ((s.elapse dt).spillAddr tile.val b.spill) b.len ∧
      t.dram = (s.elapse dt).dram ∧ t.nvm = (s.elapse dt).nvm ∧ ∀ l o, o < sramSize → l ≠ tile.val ∨ o < b.ofs ∨ b.ofs + b.len ≤ o → t.sramByte l o = (s.elapse dt).sramByte l o := by
  rw [exec_reload h inn]
  refine ⟨_, rfl, ?_⟩
  generalize s.elapse dt = u at *
  have hlen : (u.dramRead (u.spillAddr tile.val b.spill) b.len).length = b.len := by simp [State.dramRead]
  generalize u.dramRead (u.spillAddr tile.val b.spill) b.len = bs at *
  have back := sramRead_write u (l := tile.val) (o := b.ofs) (bs := bs) (by rwa [hlen])
  rw [hlen] at back
  refine ⟨back, rfl, rfl, fun l o ho apart => ?_⟩
  exact sramByte_write_out u (by rwa [hlen]) ho (by rwa [hlen])

/-- Settles O44: both moves are a write of the area's bytes, and what follows leaves every memory. -/
theorem spillMovesBytes : Obligations.SpillMovesBytes := by
  unfold Obligations.SpillMovesBytes
  rintro dt s u tile offset b rfl h fits
  exact ⟨fun out live area => spillOut_moves h out live area, fun inn => reload_moves h inn fits⟩

/-! ### Failed boots (R344, R345) -/

/-- 64 bits put into a pair of whole registers read back. -/
theorem get64_set64 (s : State) {lo hi : Field} (apart : lo.addr ≠ hi.addr) (hlo : lo.lo = 0 ∧ lo.width = 32) (hhi : hi.lo = 0 ∧ hi.width = 32) {n : Nat} (h : n < 2 ^ 64) :
    (s.set64 lo hi n).get64 lo hi = n := by
  rw [State.get64, State.set64, State.get_set_other _ _ _ _ apart, State.get_set_same _ _ _ (by omega), State.get_set_same _ _ _ (by omega), hlo.2, hhi.2]
  omega

/-- A field apart from both registers of a pair is left by a write to it. -/
theorem get_set64_apart (s : State) {lo hi f : Field} (hlo : fieldsApart lo f = true) (hhi : fieldsApart hi f = true) (n : Nat) : (s.set64 lo hi n).get f = s.get f :=
  (get_set_apart _ hhi _).trans (get_set_apart _ hlo _)

theorem recordCause_code (s : State) {cause : Nat} (step detail : Nat) (h : cause < 256) : (s.recordCause cause step detail).get F.BT_LAST_CAUSE_CAUSE = cause := by
  rw [State.recordCause, get_set64_apart _ (by decide) (by decide), get_set_apart _ (by decide), get_set_apart _ (by decide), State.get_set_same _ _ _ (by decide)]
  exact Nat.mod_eq_of_lt h

theorem recordCause_step (s : State) (cause : Nat) {step : Nat} (detail : Nat) (h : step < 16) : (s.recordCause cause step detail).get F.BT_LAST_CAUSE_STEP = step := by
  rw [State.recordCause, get_set64_apart _ (by decide) (by decide), get_set_apart _ (by decide), State.get_set_same _ _ _ (by decide)]
  exact Nat.mod_eq_of_lt h

theorem recordCause_history (s : State) (cause step detail : Nat) :
    (s.recordCause cause step detail).get64 F.BT_CAUSE_HIST0 F.BT_CAUSE_HIST1 = (s.get64 F.BT_CAUSE_HIST0 F.BT_CAUSE_HIST1 * 256 + cause) % 2 ^ 64 := by
  have kept : (((s.set F.BT_LAST_CAUSE_CAUSE cause).set F.BT_LAST_CAUSE_STEP step).set F.BT_LAST_CAUSE_DETAIL detail).get64 F.BT_CAUSE_HIST0 F.BT_CAUSE_HIST1 =
      s.get64 F.BT_CAUSE_HIST0 F.BT_CAUSE_HIST1 := by
    simp only [State.get64]
    rw [get_set_apart _ (by decide), get_set_apart _ (by decide), get_set_apart _ (by decide), get_set_apart _ (by decide), get_set_apart _ (by decide), get_set_apart _ (by decide)]
  rw [State.recordCause, get64_set64 _ (by decide) (by decide) (by decide) (Nat.mod_lt _ (by decide)), kept]

/-- A failure's record leaves the fault bit of SF_STATUS. -/
theorem recordCause_fault (s : State) (cause step detail : Nat) : (s.recordCause cause step detail).flag F.SF_STATUS_FAULT = s.flag F.SF_STATUS_FAULT := by
  rw [State.flag, State.recordCause, get_set64_apart _ (by decide) (by decide), get_set_apart _ (by decide), get_set_apart _ (by decide), get_set_apart _ (by decide), State.flag]

theorem exec_bootSupplyFault {dt : Nat} {s : State} (h : (s.elapse dt).bt.step ≠ 0) :
    exec (.bootSupplyFault dt) s = ran ((s.elapse dt).bootFail 0x09 (s.elapse dt).bt.step 0) := by
  change execBootSupplyFault _ _ = _
  simp only [execBootSupplyFault]
  rw [if_pos (by simpa using h)]

/-- Settles O50: after the record only BT_STATUS and boot's own state change. -/
theorem bootFailureHolds : Obligations.BootFailureHolds := by
  unfold Obligations.BootFailureHolds
  rintro dt s u rfl booting bound
  refine ⟨_, exec_bootSupplyFault booting, ?_, ?_, ?_, rfl, rfl, ?_⟩
  · exact (get_set_apart _ (f := F.BT_STATUS) (by decide) 0).trans (recordCause_code _ _ _ (by decide))
  · exact (get_set_apart _ (f := F.BT_STATUS) (by decide) 0).trans (recordCause_step _ _ _ (by omega))
  · refine Eq.trans ?_ (recordCause_history (s.elapse dt) 9 (s.elapse dt).bt.step 0)
    exact congrArg₂ (fun x y => x + 2 ^ 32 * y) (get_set_apart _ (f := F.BT_STATUS) (by decide) 0) (get_set_apart _ (f := F.BT_STATUS) (by decide) 0)
  · exact (congrArg (· == 1) (get_set_apart _ (f := F.BT_STATUS) (g := F.SF_STATUS_FAULT) (by decide) 0)).trans (recordCause_fault _ _ _ _)

end Sys2Proof.Proofs
end

section
/-! Thyme's commands complete (O6). -/

namespace Sys2Proof.Proofs

open Sys2Proof Sys2Proof.Machine Sys2Proof.Laws

section
variable {dt : Nat} {s u : State} (hu : u = s.elapse dt)
include hu

theorem tbNowRead_core (run : u.running = true) (c : Fin 8) :
    exec (.tbNowLoRead dt (.core c)) s = .next ((u.latchNow (c.val + 1)).coreReturn c.val (BitVec.ofNat 32 u.cycleNow)).drive := by
  subst hu; exact congrArg ran (State.readGate_core run c _ _)

theorem tbNowRead_host (reach : u.hostReaches) :
    exec (.tbNowLoRead dt .host) s = .next ((u.latchNow 0).hostReply 0x0B 0 0 (leBytes 4 (BitVec.ofNat 32 u.cycleNow).toNat)).drive := by
  subst hu; exact congrArg ran (State.readGate_host reach _ _)

theorem exec_measurement (run : u.running = true) (c : Fin 8) (hi : Word) : exec (.measurementSubmit dt c hi) s = ran (u.measWrite hi) := by
  subst hu; exact congrArg ran (State.coreWrite_run run (by decide) (clean_measHi hi) c.val _)

end

/-- A measurement that does not step device time past running result sets is its judgement alone. -/
theorem measWrite_plain {s : State} {hi : Word} {t : State} (ht : t = (s.set F.TB_MEAS_HI hi.toNat).measure (signedOf 64 ((s.set F.TB_MEAS_HI hi.toNat).get64 F.TB_MEAS_LO F.TB_MEAS_HI)))
    (plain : t.now ≤ s.now ∨ t.fusionOn = false) : s.measWrite hi = t := by
  have later : (decide ((s.set F.TB_MEAS_HI hi.toNat).now < t.now) && t.fusionOn) = false := by
    have same : (s.set F.TB_MEAS_HI hi.toNat).now = s.now := rfl
    obtain h | h := plain
    · simp [same, h]
    · simp [h]
  rw [State.measWrite, ← ht]
  simp only [later, Bool.false_eq_true, if_false]

/-- A measurement that steps device time forward seals what the step passed (R45). -/
theorem measWrite_step {s : State} {hi : Word} {t : State} (ht : t = (s.set F.TB_MEAS_HI hi.toNat).measure (signedOf 64 ((s.set F.TB_MEAS_HI hi.toNat).get64 F.TB_MEAS_LO F.TB_MEAS_HI)))
    (step : s.now < t.now) (fusion : t.fusionOn = true) : s.measWrite hi = ((List.range 4).foldl State.sealPassed t).parkCheck := by
  have later : (decide ((s.set F.TB_MEAS_HI hi.toNat).now < t.now) && t.fusionOn) = true := by simp [show (s.set F.TB_MEAS_HI hi.toNat).now = s.now from rfl, step, fusion]
  rw [State.measWrite, ← ht]
  simp only [later, if_true]

/-- In Locked a measurement within TB_JUMP_NS only restarts the holdover timer (R41). -/
theorem measure_locked {s : State} {m : Int} (locked : s.thy.tq = .locked) (near : m.natAbs ≤ s.get F.TB_JUMP_NS) :
    s.measure m = (s.setThy (fun t => { t with holdFrom := some s.thy.counter, lastMeas := some s.now, timedOut := false })).refreshTq := by
  have judged : (s.setThy (fun t => { t with holdFrom := some t.counter })).judgeMeas m = s.setThy (fun t => { t with holdFrom := some t.counter }) := by
    have within : decide (m.natAbs ≤ (s.setThy (fun t => { t with holdFrom := some t.counter })).get F.TB_JUMP_NS) = true := decide_eq_true near
    have tq : (s.setThy (fun t => { t with holdFrom := some t.counter })).thy.tq = .locked := locked
    simp only [State.judgeMeas, tq, within, if_true]
  rw [State.measure, if_pos near, judged]
  rfl

theorem measWrite_locked {s : State} {hi : Word} (locked : s.thy.tq = .locked)
    (near : (signedOf 64 ((s.set F.TB_MEAS_HI hi.toNat).get64 F.TB_MEAS_LO F.TB_MEAS_HI)).natAbs ≤ s.get F.TB_JUMP_NS) :
    s.measWrite hi = ((s.set F.TB_MEAS_HI hi.toNat).setThy (fun t => { t with holdFrom := some s.thy.counter, lastMeas := some s.now, timedOut := false })).refreshTq := by
  have judged := measure_locked (s := s.set F.TB_MEAS_HI hi.toNat) locked (near.trans_eq (State.get_set_other _ _ _ _ (by decide)).symm)
  exact (measWrite_plain judged.symm (Or.inl (refreshTq_now _).le)).trans rfl

theorem measTimeout_locked {s : State} (locked : s.thy.tq = .locked) :
    s.measTimeout = ((s.setThy (fun t => { t with tq := .holdover, consec := 0, timedOut := true })).raise 0x0F3).refreshTq := by
  simp only [State.measTimeout, locked]
  rfl

section
variable {dt : Nat} {s u : State} (hu : u = s.elapse dt)
include hu

theorem exec_measTimeout (late : u.thy.lastMeas.getD 0 + u.get F.TB_MEAS_TIMEOUT * 10 ^ 6 ≤ u.now) (fresh : u.thy.timedOut = false) : exec (.measurementTimeout dt) s = ran u.measTimeout := by
  subst hu
  change execMeasurementTimeout _ _ = _
  simp only [execMeasurementTimeout, decide_eq_true late, fresh, Bool.not_false, Bool.and_self, if_true]

theorem exec_holdoverLimit (changed : u.tqCode ≠ u.tq) : exec (.holdoverLimitReached dt) s = ran ((u.set F.TB_STATUS_TQ u.tqCode).raise 0x0F2) := by
  subst hu
  change execHoldoverLimitReached _ _ = _
  simp only [execHoldoverLimitReached, State.refreshTq, beq_iff_eq, changed, if_false]

theorem exec_relockExpiry {t : Nat} (armed : u.thy.arm = some t) (past : t < u.now) : exec (.relockArmExpiry dt) s = ran (u.setThy (fun x => { x with arm := none })) := by
  subst hu
  change execRelockArmExpiry _ _ = _
  simp only [execRelockArmExpiry, armed, past, if_true]

theorem exec_followUpTimeout {y : PtpSync} (waiting : u.thy.sync = some y) (past : y.at_ + y.interval ≤ u.now) :
    exec (.followUpTimeout dt) s = ran ((u.setThy (fun t => { t with sync := none })).violation (0x08 + y.mac) 0x42 (leBytes 2 y.seqId)) := by
  subst hu
  change execFollowUpTimeout _ _ = _
  simp only [execFollowUpTimeout, waiting, past, if_true]

theorem exec_announceTimeout (alt : u.flag F.TB_CFG_ALT_EN = true) (main : u.thy.altActive = false) :
    exec (.announceReceiptTimeout dt) s = ran (u.setThy (fun t => { t with altActive := true, sync := none, lastAnnounce := none })) := by
  subst hu
  change execAnnounceReceiptTimeout _ _ = _
  simp only [execAnnounceReceiptTimeout, alt, main, Bool.not_false, Bool.and_self, if_true]

theorem exec_standstill (still : u.still = true) : exec (.standstillReached dt) s = ran (u.set F.TB_STATUS_STILL 1) := by
  subst hu
  change execStandstillReached _ _ = _
  simp only [execStandstillReached, still, if_true]

end

/-- Settles O6: Thyme's commands one by one. -/
theorem thymeCommandsComplete : Obligations.ThymeCommandsComplete := by
  unfold Obligations.ThymeCommandsComplete
  intro dt s u hu
  refine ⟨fun c run => tbNowRead_core hu run c, tbNowRead_host hu, fun c run ok => ?_, fun c run bad => ?_, fun c hi t run ht => ⟨fun plain => ?_, fun step fusion => ?_⟩,
    fun c hi run locked near => ?_, fun late fresh locked => ?_, exec_measTimeout hu, exec_holdoverLimit hu, fun t => exec_relockExpiry hu, exec_standstill hu,
    fun y => exec_followUpTimeout hu, exec_announceTimeout hu⟩
  · subst hu; rw [exec_rateCommit run, rateCommit_applied ok]
  · subst hu; rw [exec_rateCommit run, rateCommit_refused bad]
  · rw [exec_measurement hu run, measWrite_plain ht plain]; rfl
  · rw [exec_measurement hu run, measWrite_step ht step fusion]; rfl
  · rw [exec_measurement hu run, measWrite_locked locked near]; rfl
  · rw [exec_measTimeout hu late fresh, measTimeout_locked locked]; rfl

end Sys2Proof.Proofs
end

section
/-! The camera commands complete (O7). -/

namespace Sys2Proof.Proofs

open Sys2Proof Sys2Proof.Machine Sys2Proof.Laws

section
variable {dt : Nat} {s u : State} {port : Fin 8} {vc : Fin 16} {corrected : Bool} (hu : u = (s.elapse dt).csiCorrected port.val corrected) (on : (s.elapse dt).csiOn port.val = true)
include hu on

/-! ### Frames -/

theorem exec_frameStart_closed {n : Nat} (stream : u.shortStream port.val vc.val = some n) (area : u.kindOf n = 0) (room : (u.stream n).ovrPend = false) (closed : (u.stream n).frameOpen = false)
    (fnum : BitVec 16) (ts : Option (BitVec 64)) (lock : Bool) :
    exec (.csiFrameStart dt port ⟨vc, corrected⟩ fnum ts lock) s = ran (u.openFrame n fnum.toNat ⟨ts.map (fun v => v.toNat), some lock, u.now⟩) := by
  change execCsiFrameStart _ _ _ _ _ _ _ = _
  simp only [execCsiFrameStart, on, ← hu, stream, area, room, closed, bne_self_eq_false, Bool.not_true, Bool.or_self, Bool.false_eq_true, if_false]

theorem exec_frameStart_open {n : Nat} (stream : u.shortStream port.val vc.val = some n) (area : u.kindOf n = 0) (room : (u.stream n).ovrPend = false) (frame : (u.stream n).frameOpen = true)
    (fnum : BitVec 16) (ts : Option (BitVec 64)) (lock : Bool) :
    exec (.csiFrameStart dt port ⟨vc, corrected⟩ fnum ts lock) s =
      ran ((u.truncate n 0x13 (leBytes 2 (u.stream n).frameLines)).openFrame n fnum.toNat
        ⟨ts.map (fun v => v.toNat), some lock, (u.truncate n 0x13 (leBytes 2 (u.stream n).frameLines)).now⟩) := by
  change execCsiFrameStart _ _ _ _ _ _ _ = _
  simp only [execCsiFrameStart, on, ← hu, stream, area, room, frame, bne_self_eq_false, Bool.not_true, Bool.or_self, Bool.false_eq_true, if_false, if_true]

theorem exec_frameStart_unmatched (none_ : u.shortStream port.val vc.val = none) (fnum : BitVec 16) (ts : Option (BitVec 64)) (lock : Bool) :
    exec (.csiFrameStart dt port ⟨vc, corrected⟩ fnum ts lock) s = ran (u.csiUnmatched port.val vc.val 0 fnum.toNat) := by
  change execCsiFrameStart _ _ _ _ _ _ _ = _
  simp only [execCsiFrameStart, on, ← hu, none_, Bool.not_true, Bool.false_eq_true, if_false]

theorem exec_frameEnd {n : Nat} (stream : u.shortStream port.val vc.val = some n) (area : u.kindOf n = 0) (room : (u.stream n).ovrPend = false) (frame : (u.stream n).frameOpen = true)
    (fnum : BitVec 16) :
    exec (.csiFrameEnd dt port ⟨vc, corrected⟩ fnum) s = ran ((u.closeBand n true).setStream n { (u.closeBand n true).stream n with frameOpen := false }) := by
  change execCsiFrameEnd _ _ _ _ _ = _
  simp only [execCsiFrameEnd, on, ← hu, stream, area, room, frame, bne_self_eq_false, Bool.not_true, Bool.or_self, Bool.false_eq_true, if_false, if_true]

/-! ### Lines -/

theorem exec_lineStart_area {n : Nat} (stream : u.shortStream port.val vc.val = some n) (room : (u.stream n).ovrPend = false) (area : u.kindOf n = 0) (ts : Option (BitVec 64)) (lock : Bool) :
    exec (.csiLineStart dt port ⟨vc, corrected⟩ ts lock) s = ran (u.setStream n { u.stream n with lineOpen := true }) := by
  change execCsiLineStart _ _ _ _ _ _ = _
  simp only [execCsiLineStart, on, ← hu, stream, area, room, Bool.not_true, Bool.false_eq_true, if_false, beq_self_eq_true, if_true]

theorem exec_lineStart_scan {n : Nat} (stream : u.shortStream port.val vc.val = some n) (room : (u.stream n).ovrPend = false) {p : OpenPacket} (scan : u.kindOf n = 1)
    (closed : (u.stream n).lineOpen = false) (packet : (u.stream n).open_ = some p) (ts : Option (BitVec 64)) (lock : Bool) :
    exec (.csiLineStart dt port ⟨vc, corrected⟩ ts lock) s =
      ran (u.setStream n { u.stream n with lineOpen := true, open_ := some { p with stamps := p.stamps ++ [⟨ts.map (fun v => v.toNat), some lock, u.now⟩] } }) := by
  change execCsiLineStart _ _ _ _ _ _ = _
  simp [execCsiLineStart, on, ← hu, stream, scan, room, closed, packet]

theorem exec_lineEnd_area {n : Nat} (stream : u.shortStream port.val vc.val = some n) (room : (u.stream n).ovrPend = false) (area : u.kindOf n = 0) (line : (u.stream n).lineOpen = true) :
    exec (.csiLineEnd dt port ⟨vc, corrected⟩) s = ran (u.setStream n { u.stream n with lineOpen := false }) := by
  have kind : ∀ x, (u.setStream n x).kindOf n = 0 := fun _ => area
  change execCsiLineEnd _ _ _ _ = _
  simp only [execCsiLineEnd, on, ← hu, stream, room, line, kind, Bool.not_true, Bool.false_eq_true, if_false]

/-! ### Image lines and embedded lines -/

section
variable {wc : BitVec 16} {data : Bytes} {crc : BitVec 16} {n : Nat} (room : (u.stream n).ovrPend = false) (frame : (u.stream n).frameOpen = true)
include room frame

theorem exec_longPacket_stored {dtype : BitVec 6} (stream : u.lineStream port.val vc.val dtype.toNat = some n) (area : u.kindOf n = 0)
    (good : csiCrc (sliceB data 0 wc.toNat) = crc.toNat) (shape : wc.toNat = u.get (F.IG_PKT_SHAPE_LINE_BYTES n)) :
    exec (.csiLongPacket dt port vc dtype wc data crc corrected) s = ran (u.storeLine n dtype.toNat (sliceB data 0 wc.toNat)) := by
  have whole : (csiCrc (sliceB data 0 wc.toNat) != crc.toNat) = false := by simp [good]
  have long : (wc.toNat != u.get (F.IG_PKT_SHAPE_LINE_BYTES n)) = false := by simp [shape]
  change execCsiLongPacket _ _ _ _ _ _ _ _ _ = _
  simp only [execCsiLongPacket, on, ← hu, stream, area, room, frame, whole, long, Bool.not_true, Bool.false_eq_true, if_false, beq_self_eq_true, if_true]

theorem exec_longPacket_badCrc {dtype : BitVec 6} (stream : u.lineStream port.val vc.val dtype.toNat = some n) (area : u.kindOf n = 0)
    (bad : csiCrc (sliceB data 0 wc.toNat) ≠ crc.toNat) :
    exec (.csiLongPacket dt port vc dtype wc data crc corrected) s = ran (u.truncate n 0x11 (leBytes 2 (u.stream n).frameLines ++ leBytes 2 crc.toNat)) := by
  have broken : (csiCrc (sliceB data 0 wc.toNat) != crc.toNat) = true := by simpa using bad
  change execCsiLongPacket _ _ _ _ _ _ _ _ _ = _
  simp only [execCsiLongPacket, State.lineNumber, on, ← hu, stream, area, room, frame, broken, Bool.not_true, Bool.false_eq_true, if_false, beq_self_eq_true, if_true]

theorem exec_embedded {t : State} (stream : u.findStream (fun n => u.kindOf n == 0 && u.cameraOn port.val vc.val n) = some n) (first : (u.stream n).frameLines = 0)
    (good : csiCrc (sliceB data 0 wc.toNat) = crc.toNat) (stored : u.writePacket n (sliceB data 0 wc.toNat) false = (t, .stored)) :
    exec (.csiEmbeddedData dt port vc wc data crc corrected) s =
      ran (t.setStream n { t.stream n with embedded := some ((u.stream n).embedded.getD (sliceB data 0 wc.toNat)) }) := by
  have whole : (csiCrc (sliceB data 0 wc.toNat) != crc.toNat) = false := by simp [good]
  change execCsiEmbeddedData _ _ _ _ _ _ _ _ = _
  simp only [execCsiEmbeddedData, on, ← hu, stream, room, frame, whole, first, stored, Bool.not_true, Bool.false_eq_true, if_false, lt_irrefl]

end

/-! ### Errors of the port -/

theorem exec_headerError (clean : corrected = false) (header : Word) :
    exec (.csiHeaderEccError dt port header) s = ran (((u.incSat (F.IG_CSI_ECC_UNCORR port.val)).violation port.val 0x10 (leBytes 4 header.toNat)).truncatePort port.val 48) := by
  subst hu clean
  change execCsiHeaderEccError _ _ _ _ = _
  simp only [execCsiHeaderEccError, on, if_true]
  rfl

theorem exec_sotError (clean : corrected = false) (lanes : Byte) : exec (.csiSotSyncError dt port lanes) s = ran ((u.violation port.val 0x16 [lanes]).truncatePort port.val 48) := by
  subst hu clean
  change execCsiSotSyncError _ _ _ _ = _
  simp only [execCsiSotSyncError, on, if_true]
  rfl

end

/-- Settles O7: the camera commands one by one. -/
theorem cameraCommandsComplete : Obligations.CameraCommandsComplete := by
  unfold Obligations.CameraCommandsComplete
  intro dt s u port vc corrected hu on
  refine ⟨fun fnum ts lock n stream area room => ⟨fun closed => ?_, fun frame => ?_, fun frame => ?_⟩, fun fnum ts lock none_ => ?_,
    fun ts lock n stream room => ⟨fun area => ?_, fun p scan closed packet => ?_, fun area line => ?_⟩, fun dtype wc data crc n stream area room frame good shape => ?_,
    fun dtype wc data crc n stream area room frame bad => ?_, fun wc data crc n t stream room frame first good stored => ?_, fun header clean => ?_, fun lanes clean => ?_⟩
  · exact exec_frameStart_closed hu on stream area room closed fnum ts lock
  · exact exec_frameStart_open hu on stream area room frame fnum ts lock
  · exact exec_frameEnd hu on stream area room frame fnum
  · exact exec_frameStart_unmatched hu on none_ fnum ts lock
  · exact exec_lineStart_area hu on stream room area ts lock
  · exact exec_lineStart_scan hu on stream room scan closed packet ts lock
  · exact exec_lineEnd_area hu on stream room area line
  · exact exec_longPacket_stored hu on room frame stream area good shape
  · exact exec_longPacket_badCrc hu on room frame stream area bad
  · exact exec_embedded hu on room frame stream first good stored
  · exact exec_headerError hu on clean header
  · exact exec_sotError hu on clean lanes

end Sys2Proof.Proofs
end

section
/-! The encoder, IMU and CAN commands, the packet timer and the overrun's close (O8). -/

namespace Sys2Proof.Proofs

open Sys2Proof Sys2Proof.Machine Sys2Proof.Laws

/-! ### Encoders (R65) -/

/-- The state in which an encoder's edge is counted: phases noted, standstill ended, the input's source following phase A. -/
def encoderSensed (s : State) (input : Nat) (a b : Bool) : State :=
  let s := { s with ig := { s.ig with phases := setAt s.ig.phases input (a, b) } }
  let s := s.setThy (fun t => { t with wheelEdge := setAt t.wheelEdge input s.now })
  let s := if bitOf (s.get F.TB_STILL_MASK) input then s.set F.TB_STATUS_STILL 0 else s
  s.statusSource (0x010 + input) a

theorem encoderSensed_light (u : State) {input : Nat} (h : input < 12) (a b : Bool) :
    ({ u with ig := { u.ig with phases := setAt u.ig.phases input (a, b) } } : State).light (encoderSensed u input a b) [1, 0xC] :=
  State.light_trans (State.light_trans (State.light_setThy _ _ _) (ite_light _ _ _ _ (at1 _ F.TB_STATUS_STILL _ (by decide)) (State.light_refl _ _)))
    (State.light_statusSource _ (by omega) _ (by decide))

/-- Streams are found by fields of the ingress block alone. -/
theorem encoderStream_congr {s t : State} (h : ∀ f : Field, f.addr / 0x10000 = 2 → t.get f = s.get f) (input : Nat) : t.encoderStream input = s.encoderStream input := by
  unfold State.encoderStream State.findStream
  apply List.find?_congr
  intro n hn
  have hlt : n < 48 := List.mem_range.1 hn
  have block : (0x21000 + 64 * n) / 0x10000 = 2 := by omega
  simp only [State.flag, State.kindOf, h (F.IG_SCFG_EN n) block, h (F.IG_SCFG_KIND n) block, h (F.IG_SCFG_PORT n) block]

theorem quadrature_moves {a0 b0 a b up : Bool} (h : quadrature a0 b0 a b = some up) : (a == a0 && b == b0) = false := by
  revert a0 b0 a b up; decide

section
variable {dt : Nat} {s u : State} (hu : u = s.elapse dt) (run : u.running = true)
include hu run

theorem exec_encoderEdge {input : Fin 12} {a b up : Bool} {q : Fin 8} {held : Nat} (free : u.encoderStream input.val = none) (passes : 10 * u.get (F.IO_ENC_CFG_FILT input.val) ≤ held)
    (counted : quadrature (u.ig.phases.getD input.val (false, false)).1 (u.ig.phases.getD input.val (false, false)).2 a b = some up) :
    exec (.encoderEdge dt input a b ⟨q, held⟩) s = ran ((encoderSensed u input.val a b).encoderCount input.val none up a b q.val) := by
  have none_ : (encoderSensed u input.val a b).encoderStream input.val = none := by
    rw [encoderStream_congr (s := u) fun f hf => get_frame (encoderSensed_light u input.isLt a b) f (by rw [hf]; decide), free]
  have clean : filterPasses (u.get (F.IO_ENC_CFG_FILT input.val)) held = true := decide_eq_true passes
  have moved := quadrature_moves counted
  unfold encoderSensed at none_ ⊢
  dsimp only at none_ ⊢
  change execEncoderEdge _ _ _ _ _ _ = _
  simp only [execEncoderEdge, ← hu, run, clean, none_, moved, counted, Bool.not_true, Bool.or_self, Bool.false_eq_true, if_false]

end

theorem encoderCount_value (s : State) (input : Nat) (up a b : Bool) (q : Nat) :
    (s.encoderCount input none up a b q).getI (F.IO_ENC_COUNT input) =
      signedOf 32 (patternOf 32 (s.getI (F.IO_ENC_COUNT input) + (if up != s.flag (F.IO_ENC_CFG_INVERT input) then 1 else -1))) := by
  have short : ∀ i : Int, patternOf 32 i % 2 ^ 32 = patternOf 32 i := fun i => Nat.mod_eq_of_lt (by unfold patternOf; omega)
  rw [State.getI, State.encoderCount, State.get_set_same _ _ _ (by simp only [F.IO_ENC_COUNT]; decide)]
  exact congrArg _ (short _)

/-- What an encoder's counted edge leaves of the ingress state and the count. -/
theorem encoderEdge_counts (u : State) {input : Nat} (h : input < 12) (a b up : Bool) (q : Nat) :
    ((encoderSensed u input a b).encoderCount input none up a b q).ig = { u.ig with phases := setAt u.ig.phases input (a, b) } ∧
      ((encoderSensed u input a b).encoderCount input none up a b q).getI (F.IO_ENC_COUNT input) =
        signedOf 32 (patternOf 32 (u.getI (F.IO_ENC_COUNT input) + (if up != u.flag (F.IO_ENC_CFG_INVERT input) then 1 else -1))) := by
  have light := encoderSensed_light u h a b
  have kept : ∀ f : Field, f.addr / 0x10000 = 0x14 → (encoderSensed u input a b).get f = u.get f := fun f hf => get_frame light f (by rw [hf]; decide)
  refine ⟨?_, ?_⟩
  · have same := congrArg (fun t : State => t.ig) light.2
    exact same
  · rw [encoderCount_value, State.getI, State.flag, kept _ (by simp only [F.IO_ENC_COUNT]; omega), kept _ (by simp only [F.IO_ENC_CFG_INVERT]; omega)]
    rfl

/-! ### IMUs, CAN frames, the packet timer and the overrun's close (R65, R70, R72, R83, R245) -/

section
variable {dt : Nat} {s u : State} (hu : u = s.elapse dt) (run : u.running = true)
include hu run

theorem exec_imuReady_begins {spi : Fin 4} {n : Nat} (stream : u.imuStream spi.val = some n) (idle : u.ig.imu.getD spi.val none = none) :
    exec (.imuDataReady dt spi) s =
      ran { u with ig := { u.ig with imu := setAt u.ig.imu spi.val (some u.now), spi := setAt u.ig.spi spi.val (some (bitsOf (u.get (igKind n 0)) 24 8)) } } := by
  change execImuDataReady _ _ _ = _
  simp only [execImuDataReady, ← hu, run, stream, idle]
  rfl

theorem exec_imuReady_dropped {spi : Fin 4} {n t : Nat} (stream : u.imuStream spi.val = some n) (busy : u.ig.imu.getD spi.val none = some t) :
    exec (.imuDataReady dt spi) s = ran (u.streamViol n 0x50 []) := by
  change execImuDataReady _ _ _ = _
  simp only [execImuDataReady, ← hu, run, stream, busy]

theorem exec_imuRead {spi : Fin 4} {data : Bytes} {n t : Nat} (stream : u.imuStream spi.val = some n) (busy : u.ig.imu.getD spi.val none = some t)
    (bare : bitOf (u.get (igKind n 0)) 23 = false) :
    exec (.imuReadComplete dt spi data) s = ran ((u.setImu spi.val none).putRecord n t (imuRecord t (sliceB data 0 (bitsOf (u.get (igKind n 0)) 16 7)))) := by
  have bare' : bitOf ((u.setImu spi.val none).get (igKind n 0)) 23 = false := bare
  change execImuReadComplete _ _ _ _ = _
  simp only [execImuReadComplete, ← hu, run, stream, busy, bare', Bool.false_and, Bool.false_eq_true, if_false]
  rfl

section
variable {ctrl : Fin 2} {frame : CanFrame} (on : u.flag (F.IO_CAN_CTRL_EN ctrl.val) = true) (up : u.get (F.IO_CAN_STAT_STATE ctrl.val) ≠ 2)
include on up

/-- A frame the controller's protocol takes, with or without a fault. -/
theorem exec_canFrame (takes : frame.fdf = false ∨ (frame.res = false ∧ u.flag (F.IO_CAN_CTRL_FD_EN ctrl.val) = true)) :
    exec (.canFrameReceive dt ctrl frame) s = if frame.faulty then ran (u.canDrive ctrl.val .errorFrame) else
      match (u.canDrive ctrl.val .acknowledge).canStream ctrl.val frame with
      | some n => ran ((u.canDrive ctrl.val .acknowledge).putRecord n u.now (canRecord u.now frame))
      | none => ran ((u.canDrive ctrl.val .acknowledge).incWrap (F.IO_CAN_UNMATCHED ctrl.val)) := by
  have barred : (frame.fdf && (frame.res || !u.flag (F.IO_CAN_CTRL_FD_EN ctrl.val))) = false := by
    obtain h | ⟨h, h'⟩ := takes
    · rw [h, Bool.false_and]
    · rw [h, h', Bool.not_true, Bool.or_false, Bool.and_false]
  have up' : (u.get (F.IO_CAN_STAT_STATE ctrl.val) == 2) = false := by simpa using up
  change execCanFrameReceive _ _ _ _ = _
  simp only [execCanFrameReceive, ← hu, run, on, up', barred, Bool.not_true, Bool.or_self, Bool.false_eq_true, if_false]
  rfl

theorem exec_canFrame_barred (fd : frame.fdf = true) (off : u.flag (F.IO_CAN_CTRL_FD_EN ctrl.val) = false) :
    exec (.canFrameReceive dt ctrl frame) s = ran ((u.canDrive ctrl.val .none).violation (0x10 + ctrl.val) 0x5A (leBytes 4 frame.ident.toNat)) := by
  have up' : (u.get (F.IO_CAN_STAT_STATE ctrl.val) == 2) = false := by simpa using up
  change execCanFrameReceive _ _ _ _ = _
  simp only [execCanFrameReceive, ← hu, run, on, up', fd, off, Bool.not_true, Bool.not_false, Bool.or_true, Bool.and_self, Bool.or_self, Bool.false_eq_true, if_false, if_true]

theorem exec_canBusOff (tec : Byte) : exec (.canBusOff dt ctrl tec) s =
    ran (((u.set (F.IO_CAN_STAT_TEC ctrl.val) tec.toNat).set (F.IO_CAN_STAT_STATE ctrl.val) 2).violation (0x10 + ctrl.val) 0x59 [tec]) := by
  have up' : (u.get (F.IO_CAN_STAT_STATE ctrl.val) != 2) = true := by simpa using up
  change execCanBusOff _ _ _ _ = _
  simp only [execCanBusOff, ← hu, run, on, up', Bool.and_self, if_true]

end

theorem exec_canPassive {ctrl : Fin 2} (on : u.flag (F.IO_CAN_CTRL_EN ctrl.val) = true) (active : u.get (F.IO_CAN_STAT_STATE ctrl.val) = 0) (tec rec : Byte) :
    exec (.canErrorPassive dt ctrl tec rec) s =
      ran ((((u.set (F.IO_CAN_STAT_TEC ctrl.val) tec.toNat).set (F.IO_CAN_STAT_REC ctrl.val) rec.toNat).set (F.IO_CAN_STAT_STATE ctrl.val) 1).violation (0x10 + ctrl.val) 0x58 [tec, rec]) := by
  change execCanErrorPassive _ _ _ _ _ = _
  simp only [execCanErrorPassive, ← hu, run, on, active, beq_self_eq_true, Bool.and_self, if_true]

theorem exec_canRecovery {ctrl : Fin 2} (off : u.get (F.IO_CAN_STAT_STATE ctrl.val) = 2) : exec (.canBusOffRecovery dt ctrl) s =
    ran (((u.set (F.IO_CAN_STAT_STATE ctrl.val) 0).set (F.IO_CAN_STAT_TEC ctrl.val) 0).set (F.IO_CAN_STAT_REC ctrl.val) 0) := by
  change execCanBusOffRecovery _ _ _ = _
  simp only [execCanBusOffRecovery, ← hu, run, off, beq_self_eq_true, Bool.and_self, if_true]

section
variable {stream : Fin 48} (on : u.flag (F.IG_SCFG_EN stream.val) = true) (late : u.packetLate stream.val = true) (room : (u.stream stream.val).ovrPend = false)
include on late room

theorem exec_packetTimeout_truncates (kind : u.kindOf stream.val ≤ 2) : exec (.packetTimeout dt stream) s = ran (u.truncate stream.val 0x01 (u.payloadDetail stream.val)) := by
  change execPacketTimeout _ _ _ = _
  simp only [execPacketTimeout, ← hu, run, on, late, room, kind, Bool.not_true, Bool.or_self, Bool.false_eq_true, if_false, if_true]

theorem exec_packetTimeout_closes {p : OpenPacket} (kind : 3 ≤ u.kindOf stream.val) (packet : (u.stream stream.val).open_ = some p) :
    exec (.packetTimeout dt stream) s = ran ((u.closeRecords stream.val).touch stream.val) := by
  have records : ¬ u.kindOf stream.val ≤ 2 := by omega
  change execPacketTimeout _ _ _ = _
  simp only [execPacketTimeout, ← hu, run, on, late, room, records, packet, Bool.not_true, Bool.or_self, Bool.false_eq_true, if_false]

theorem exec_packetTimeout_empty (kind : u.kindOf stream.val = 3) (packet : (u.stream stream.val).open_ = none) (free : 0 < u.freeUnits stream.val) :
    exec (.packetTimeout dt stream) s = ran ((u.emptyPacket stream.val).touch stream.val) := by
  have records : ¬ 3 ≤ 2 := by omega
  change execPacketTimeout _ _ _ = _
  simp only [execPacketTimeout, ← hu, run, on, late, room, kind, records, packet, decide_eq_true free, beq_self_eq_true, Bool.and_self, Bool.not_true, Bool.or_self, Bool.false_eq_true,
    if_false, if_true]

end

omit run in
theorem exec_overrunClose {stream : Fin 48} (pending : (u.stream stream.val).ovrPend = true) (free : 0 < u.freeUnits stream.val) :
    exec (.overrunClose dt stream) s = ran (((u.closeEarly stream.val true).streamViol stream.val 0x03 (u.payloadDetail stream.val)).enterResync stream.val) := by
  change execOverrunClose _ _ _ = _
  simp only [execOverrunClose, State.closeOverrun, ← hu, pending, decide_eq_true free, Bool.and_self, if_true]

end

/-- Settles O8: the sensor commands one by one. -/
theorem sensorCommandsComplete : Obligations.SensorCommandsComplete := by
  unfold Obligations.SensorCommandsComplete
  intro dt s u hu run
  refine ⟨fun input a b up q held free passes counted => ?_, fun spi n => exec_imuReady_begins hu run, fun spi n t => exec_imuReady_dropped hu run, fun spi data n t => exec_imuRead hu run,
    fun ctrl frame on up => ⟨fun n takes sound stream => ?_, fun takes sound stream => ?_, fun takes faulty => ?_, exec_canFrame_barred hu run on up,
      fun tec rec active => exec_canPassive hu run on active tec rec, exec_canBusOff hu run on up⟩,
    fun ctrl => exec_canRecovery hu run,
    fun stream on late room => ⟨exec_packetTimeout_truncates hu run on late room, fun p => exec_packetTimeout_closes hu run on late room, exec_packetTimeout_empty hu run on late room⟩,
    fun stream => exec_overrunClose hu⟩
  · exact ⟨_, exec_encoderEdge hu run free passes counted, encoderEdge_counts u input.isLt a b up q.val⟩
  · have stream' : (u.canDrive ctrl.val .acknowledge).canStream ctrl.val frame = some n := stream
    rw [exec_canFrame hu run on up takes, sound, stream']; rfl
  · have stream' : (u.canDrive ctrl.val .acknowledge).canStream ctrl.val frame = none := stream
    rw [exec_canFrame hu run on up takes, sound, stream']; rfl
  · rw [exec_canFrame hu run on up takes, faulty]; rfl

end Sys2Proof.Proofs
end

section
/-! The Ethernet commands complete (O9). -/

namespace Sys2Proof.Proofs

open Sys2Proof Sys2Proof.Machine Sys2Proof.Laws

section
variable {dt : Nat} {s u : State} {mac : Fin 4} (hu : u = s.elapse dt)
include hu

section
variable {frame : Bytes} {hwTs : Bool} {delay : Option Int} {q : Fin 8} (run : u.running = true) (on : u.flag (F.EN_M_CFG_EN mac.val) = true)
  (link : bitOf (u.get F.EN_STATUS) mac.val = true)
include run on link

theorem exec_frame_badLength (bad : frame.length < 64 ∨ 9018 < frame.length) :
    exec (.ethFrameReceive dt mac frame hwTs delay q) s = ran (u.violation (0x08 + mac.val) 0x29 (leBytes 2 frame.length)) := by
  have bad' : (decide (frame.length < 64) || decide (9018 < frame.length)) = true := by simpa using bad
  change execEthFrameReceive _ _ _ _ _ _ _ = _
  simp only [execEthFrameReceive, ← hu, run, on, link, bad', Bool.not_true, Bool.or_self, Bool.false_eq_true, if_false, if_true]

theorem exec_frame_badFcs (long : 64 ≤ frame.length) (short : frame.length ≤ 9018) (bad : fieldB frame (frame.length - 4) 4 ≠ crc32 (frame.take (frame.length - 4))) :
    exec (.ethFrameReceive dt mac frame hwTs delay q) s = ran ((u.incSat (F.EN_M_FCS_ERR mac.val)).violation (0x08 + mac.val) 0x28 (leBytes 2 frame.length)) := by
  have bad' : (fieldB frame (frame.length - 4) 4 != crc32 (frame.take (frame.length - 4))) = true := by simpa using bad
  change execEthFrameReceive _ _ _ _ _ _ _ = _
  simp only [execEthFrameReceive, ← hu, run, on, link, decide_eq_false (not_lt.2 long), decide_eq_false (not_lt.2 short), bad', Bool.not_true, Bool.or_self, Bool.false_eq_true, if_false, if_true]

theorem exec_frame_good (long : 64 ≤ frame.length) (short : frame.length ≤ 9018) (good : fieldB frame (frame.length - 4) 4 = crc32 (frame.take (frame.length - 4))) :
    exec (.ethFrameReceive dt mac frame hwTs delay q) s = ran (u.goodFrame mac.val frame hwTs q.val delay) := by
  have good' : (fieldB frame (frame.length - 4) 4 != crc32 (frame.take (frame.length - 4))) = false := by simpa using good
  change execEthFrameReceive _ _ _ _ _ _ _ = _
  simp only [execEthFrameReceive, ← hu, run, on, link, decide_eq_false (not_lt.2 long), decide_eq_false (not_lt.2 short), good', Bool.not_true, Bool.or_self, Bool.false_eq_true, if_false]

end

theorem exec_gateExpiry (list : u.get (F.EN_M_GCL mac.val) ≠ 0) :
    exec (.gateIntervalExpiry dt mac) s = ran { u with en := { u.en with gates := setAt u.en.gates mac.val (u.gateNow mac.val).1 } } := by
  change execGateIntervalExpiry _ _ _ = _
  simp only [execGateIntervalExpiry, ← hu, beq_iff_eq, list, if_false]

theorem exec_linkUp (down : bitOf (u.get F.EN_STATUS) mac.val = false) (lanes : Byte) :
    exec (.ethLinkChange dt mac true lanes) s = ran ((u.set F.EN_STATUS (putBit (u.get F.EN_STATUS) mac.val true)).statusSource (0x27 + mac.val) true) := by
  change execEthLinkChange _ _ _ _ _ = _
  simp only [execEthLinkChange, ← hu, down, Bool.false_beq, Bool.not_true, Bool.false_eq_true, if_false, if_true]

theorem exec_linkDown (up : bitOf (u.get F.EN_STATUS) mac.val = true) (lanes : Byte) :
    exec (.ethLinkChange dt mac false lanes) s =
      ran (((((u.set F.EN_STATUS (putBit (u.get F.EN_STATUS) mac.val false)).statusSource (0x27 + mac.val) false).violation (0x08 + mac.val) 0x2B [lanes]).raise 0x1B0).advanceEmission true).parkCheck := by
  change execEthLinkChange _ _ _ _ _ = _
  simp only [execEthLinkChange, ← hu, up, Bool.true_beq, Bool.false_eq_true, if_false]

end

/-- A good frame goes by its Ethertype (R395). -/
theorem goodFrame_byType (s : State) (m : Nat) (f : Bytes) (hwTs : Bool) (q : Nat) (delay : Option Int) :
    s.goodFrame m f hwTs q delay = (match (etherBody f).1 with
      | 0x0800 => s.ipFrame m (etherBody f).2
      | 0x0806 => s.arpFrame m (etherBody f).2
      | 0x88F7 => if s.isPtpMac m = false then s.rxDrop m else s.ptpFrame m (etherBody f).2 hwTs q delay
      | _ => s.rxDrop m) := by
  unfold State.goodFrame
  dsimp only
  cases h : s.isPtpMac m <;> split <;> simp_all

/-- Settles O9: the Ethernet commands one by one. -/
theorem ethernetCommandsComplete : Obligations.EthernetCommandsComplete := by
  unfold Obligations.EthernetCommandsComplete
  intro dt s u mac hu
  refine ⟨fun frame hwTs delay q run on link => ⟨exec_frame_badLength hu run on link, exec_frame_badFcs hu run on link, fun long short good => ?_⟩, exec_gateExpiry hu,
    fun lanes down => exec_linkUp hu down lanes, fun lanes up => exec_linkDown hu up lanes⟩
  rw [exec_frame_good hu run on link long short good, goodFrame_byType]
  rfl

end Sys2Proof.Proofs
end

section
/-! The fusion and result commands complete (O10). -/

namespace Sys2Proof.Proofs

open Sys2Proof Sys2Proof.Machine Sys2Proof.Laws

/-! ### Take-up (R67, R91, R92, R95) -/

section
variable {s : State} {n : Nat} {p : Packet} (head : (s.stream n).fifo.find? (fun p => !p.taken) = some p)
include head

theorem takePacket_outOfOrder (whole : p.trunc = false) (early : p.stamp < s.get64 (F.FU_WM_LO n) (F.FU_WM_HI n)) (first : s.lateAgain p = false) :
    s.takePacket n false = ((s.outOfOrder p).mapPacket n p.seqNo (fun q => { q with taken := true })).discardPacket p := by
  simp only [State.takePacket, head, whole, decide_eq_true early, first, Bool.not_false, Bool.and_self, Bool.false_eq_true, if_false, if_true]

theorem takePacket_inOrder (whole : p.trunc = false) (later : s.get64 (F.FU_WM_LO n) (F.FU_WM_HI n) ≤ p.stamp) :
    s.takePacket n false = ((s.putFuStream n { s.fuStream n with caught := s.thy.backs }).mapPacket n p.seqNo (fun q => { q with taken := true })).inOrder { p with taken := true } := by
  simp only [State.takePacket, head, whole, decide_eq_false (not_lt.2 later), decide_eq_true later, Bool.false_and, Bool.false_eq_true, if_false, if_true]

theorem takePacket_late (whole : p.trunc = false) (early : p.stamp < s.get64 (F.FU_WM_LO n) (F.FU_WM_HI n)) (again : s.lateAgain p = true) :
    s.takePacket n false = (s.mapPacket n p.seqNo (fun q => { q with taken := true })).inOrder { p with taken := true } := by
  simp only [State.takePacket, head, whole, again, decide_eq_false (not_le.2 early), Bool.not_true, Bool.and_false, Bool.false_eq_true, if_false]

theorem takePacket_truncated (cut : p.trunc = true) : s.takePacket n false = ((s.openHole n).mapPacket n p.seqNo (fun q => { q with taken := true })).discardPacket p := by
  simp only [State.takePacket, head, cut, Bool.false_eq_true, if_false, if_true]

theorem takePacket_upset : s.takePacket n true =
    (((s.incSat (F.IG_CRC_FAIL n)).streamViol n 0x07 (leBytes 4 p.seqNo)).mapPacket n p.seqNo (fun q => { q with taken := true })).discardPacket p := by
  simp only [State.takePacket, head, if_true]

end

/-! ### Starts, seals and the vote (R45, R86, R94, R98) -/

theorem tryStart_due {s : State} {rs : Nat} (run : s.running = true) (waits : s.get (F.FU_RS_STAT_STATE rs) = 1) (free : s.startHeld = false) (own : s.jobHeld rs = false) :
    s.tryStart rs = s.startSet rs := by
  simp only [State.tryStart, State.startDue, run, waits, free, own, beq_self_eq_true, Bool.not_false, Bool.and_self, if_true]

/-- A set that runs and has not sealed in this cycle has its tests open. -/
theorem sealTest_open {s : State} {rs : Nat} (runs : s.rsRuns rs = true) (unsealed : (s.fuSet rs).sealAt ≠ some s.thy.counter) (ue : Option UeReport) :
    s.sealTest rs ue = if s.watermarkReady rs (s.fuSet rs).k then s.sealResult rs (s.fuSet rs).k 0 ue
      else if s.instant rs (s.fuSet rs).k + s.get (F.FU_RS_H rs) ≤ s.now then s.sealResult rs (s.fuSet rs).k 1 ue else s := by
  have unsealed' : ((s.fuSet rs).sealAt == some s.thy.counter) = false := by simpa using unsealed
  simp only [State.sealTest, runs, unsealed', Bool.not_true, Bool.or_self, Bool.false_eq_true, if_false, decide_eq_true_eq]

theorem tryVote_turn {s : State} {rs : Nat} {r : Result} (next : s.result? rs (s.fuSet rs).next = some r) (idle : s.fu.emit = none) (fresh : r.emitted = false)
    (ready : r.sealCode = 2 ∨ s.listsDone rs r.k = true) (turn : s.voteTurn rs r = true) : s.tryVote rs = s.voteResult r := by
  have ready' : (!r.emitted && (r.sealCode == 2 || s.listsDone rs r.k)) = true := by simpa [fresh] using ready
  simp only [State.tryVote, State.voteHead, next, ready', idle, turn, if_true]

section
variable {dt : Nat} {s u : State} (hu : u = s.elapse dt)
include hu

theorem exec_takeUp (stream : Fin 48) (upset : Bool) (fusion : u.fusionOn = true) : exec (.packetTakeUp dt stream upset) s = ran (u.takePacket stream.val upset) := by
  change execPacketTakeUp _ _ _ _ = _
  simp only [execPacketTakeUp, ← hu, fusion, if_true]

theorem exec_setStart (rs : Fin 4) : exec (.resultSetStart dt rs) s = ran (u.tryStart rs.val) := by
  change execResultSetStart _ _ _ = _
  simp only [execResultSetStart, ← hu]

theorem exec_startWait {c : Nat} (since : u.thy.holdStart = some c) (held : u.startHeld = true) (past : u.get F.TB_CFG_START_TIMEOUT * 10 ^ 9 ≤ (u.thy.counter + 2 ^ 64 - c) % 2 ^ 64) :
    exec (.startWaitTimeout dt) s = ran ((((State.tryStart { u with thy := { u.thy with holdOver := true } } 0).tryStart 1).tryStart 2).tryStart 3) := by
  change execStartWaitTimeout _ _ = _
  simp only [execStartWaitTimeout, ← hu, since, held, decide_eq_true past, Bool.and_self, if_true]
  rfl

theorem exec_watermarkSeal {rs : Fin 4} {ue : Option UeReport} (fusion : u.fusionOn = true) (ready : u.watermarkReady rs.val (u.fuSet rs.val).k = true) :
    exec (.watermarkSeal dt ⟨rs, ue⟩) s = ran (u.sealTest rs.val ue).parkCheck := by
  change execWatermarkSeal _ _ _ = _
  simp only [execWatermarkSeal, ← hu, fusion, ready, Bool.and_self, if_true]

theorem exec_deadlineSeal {rs : Fin 4} {ue : Option UeReport} (fusion : u.fusionOn = true) (past : u.instant rs.val (u.fuSet rs.val).k + u.get (F.FU_RS_H rs.val) ≤ u.now) :
    exec (.deadlineSeal dt ⟨rs, ue⟩) s = ran (u.sealTest rs.val ue).parkCheck := by
  change execDeadlineSeal _ _ _ = _
  simp only [execDeadlineSeal, ← hu, fusion, decide_eq_true past, Bool.and_self, if_true]

theorem exec_vote {rs : Fin 4} (fusion : u.fusionOn = true) : exec (.resultVote dt rs) s = ran (u.tryVote rs.val).parkCheck := by
  change execResultVote _ _ _ = _
  simp only [execResultVote, ← hu, fusion, if_true]

theorem exec_queueRoom (mac : Fin 4) (sent : Nat) : exec (.egressQueueRoom dt mac sent) s = ran ((u.transmit mac.val sent).advanceEmission true).parkCheck := by
  change execEgressQueueRoom _ _ _ _ = _
  simp only [execEgressQueueRoom, ← hu]

theorem exec_slotAfterRead {rs : Fin 4} {slot : Fin 4096} (reading : u.hp.reading = some (rs.val, slot.val)) :
    exec (.slotOverwriteAfterRead dt rs slot) s = ran ((State.advanceEmission { u with hp := { u.hp with reading := none } } false).parkCheck) := by
  change execSlotOverwriteAfterRead _ _ _ _ = _
  simp only [execSlotOverwriteAfterRead, ← hu, reading, beq_self_eq_true, if_true]

end

/-- Settles O10: the fusion and result commands one by one. -/
theorem fusionCommandsComplete : Obligations.FusionCommandsComplete := by
  unfold Obligations.FusionCommandsComplete
  intro dt s u hu
  refine ⟨fun stream p fusion head => ?_, fun rs run waits free own => ?_, fun c => exec_startWait hu, fun rs ue fusion runs unsealed => ⟨fun ready => ?_, fun unready past => ?_⟩,
    fun rs r fusion next idle fresh ready turn => ?_, exec_queueRoom hu, fun rs slot => exec_slotAfterRead hu⟩
  · simp only [exec_takeUp hu stream _ fusion]
    exact ⟨fun whole early first => congrArg ran (takePacket_outOfOrder head whole early first), fun whole later => congrArg ran (takePacket_inOrder head whole later),
      fun whole early again => congrArg ran (takePacket_late head whole early again), fun cut => congrArg ran (takePacket_truncated head cut), congrArg ran (takePacket_upset head)⟩
  · rw [exec_setStart hu, tryStart_due run waits free own]; rfl
  · rw [exec_watermarkSeal hu fusion ready, sealTest_open runs unsealed, if_pos ready]; rfl
  · rw [exec_deadlineSeal hu fusion past, sealTest_open runs unsealed, if_neg (by simp [unready]), if_pos past]; rfl
  · rw [exec_vote hu fusion, tryVote_turn next idle fresh ready turn]; rfl

end Sys2Proof.Proofs
end

section
/-! Commands of lists: the engines', the fences', semaphores' and branches', and what ends a wait (O11, O12). -/

namespace Sys2Proof.Proofs

open Sys2Proof Sys2Proof.Machine Sys2Proof.Laws

/-! ### A command at hand runs its body (R251, R255, R256) -/

/-- Reading a command's descriptors spends none of its run's budget. -/
theorem pastBudget_takenUp (s : State) (i : Inst) (op : Opcode) (r : Bytes) (keys : List Nat) (n : Nat) :
    (s.setInst (s.takenUp i op r)).pastBudget (s.takenUp i op r) keys n = s.pastBudget i keys n := by
  unfold State.takenUp
  split <;> rfl

/-- A command whose buffers are in SRAM, or on their way out, recalls none. -/
theorem recall_present {s : State} {i : Inst} {op : Opcode} {r : Bytes} (h : (s.touched i op r).all (fun b => b.phase != .spilled && b.phase != .returning) = true) :
    s.recall i op r = (s, false) := by
  have each : ∀ b ∈ s.touched i op r, b.phase ≠ .spilled ∧ b.phase ≠ .returning := by simpa [List.all_eq_true] using h
  have spilled : (s.touched i op r).filter (fun b => b.phase == .spilled) = [] := List.filter_eq_nil_iff.2 fun b hb => by simpa using (each b hb).1
  have away : (s.touched i op r).any (fun b => b.phase == .spilled || b.phase == .returning) = false := List.any_eq_false.2 fun b hb => by simpa using each b hb
  simp only [State.recall, spilled, away, List.foldl_nil]

/-- A body run is the state it gives with its outcome taken. -/
theorem runBody_eq (s : State) (c : QCmd) (op : Opcode) (i : Inst) (r : Bytes) (body : State → Inst → Bytes → State × CmdEnd) :
    s.runBody c op i r body = (body s i r).1.cmdOut c op i r (body s i r).2 := rfl

/-- The command at hand of a queue's run, when nothing holds, faults or stops it, runs its body and its outcome is taken. -/
theorem runCmd_atCommand {s : State} {c : QCmd} {op : Opcode} {i : Inst} (h : s.atCommand c op i) (body : State → Inst → Bytes → State × CmdEnd) :
    s.runCmd c op body =
      ((body (s.setInst (s.takenUp i op (s.nextCmd i))) (s.takenUp i op (s.nextCmd i)) (s.nextCmd i)).1.cmdOut c op (s.takenUp i op (s.nextCmd i)) (s.nextCmd i)
        (body (s.setInst (s.takenUp i op (s.nextCmd i))) (s.takenUp i op (s.nextCmd i)) (s.nextCmd i)).2).parkCheck := by
  obtain ⟨queue, opcode, running, slice, ctx, notes, ue, clean, present, stalled, budget⟩ := h
  have stalled' : (s.setInst (s.takenUp i op (s.nextCmd i))).tileStalled op (s.nextCmd i) = false := stalled
  have budget' := (pastBudget_takenUp s i op (s.nextCmd i) (cycleKeys c.eng.val op (s.nextCmd i)) c.cycles).trans budget
  rw [State.runCmd, State.runNow]
  simp only [queue, opcode, running, slice, ctx, notes, ue, bne_self_eq_false, Bool.or_self, Bool.false_eq_true, if_false, List.foldl_nil, List.findSome?_nil, ite_self, clean, recall_present present,
    stalled', budget', runBody_eq]
  rfl

section
variable {dt : Nat} {s u v : State} {c : QCmd} {i j : Inst} {r : Bytes} {op : Opcode} (hu : u = s.elapse dt) (hr : r = u.nextCmd i) (hj : j = u.takenUp i op r) (hv : v = u.setInst j)
  (h : u.atCommand c op i)
include hu hr hj hv h

/-- A command at hand whose body comes out as `(t, e)` leaves `t` with the outcome `e` taken. -/
theorem command_ends {body : State → Inst → Bytes → State × CmdEnd} {t : State} {e : CmdEnd} (out : body v j r = (t, e)) :
    ran ((s.elapse dt).runCmd c op body) = .next (t.cmdOut c op j r e).parkCheck.drive := by
  subst hu hr hj hv
  rw [runCmd_atCommand h, out]
  rfl

/-- The same with the outcome alone known. -/
theorem command_ends_as {body : State → Inst → Bytes → State × CmdEnd} {e : CmdEnd} (out : (body v j r).2 = e) :
    ran ((s.elapse dt).runCmd c op body) = .next ((body v j r).1.cmdOut c op j r e).parkCheck.drive :=
  command_ends hu hr hj hv h (Prod.ext rfl out)

end

/-- Settles O11: each engine's command is `runCmd` of its body. -/
theorem engineCommandsComplete : Obligations.EngineCommandsComplete := by
  unfold Obligations.EngineCommandsComplete
  intro dt s u c i r hu hr j v
  refine ⟨?_, ?_, ?_, ?_, ?_, ?_, ?_, ?_, ?_, ?_, ?_, ?_⟩ <;> intro h hj hv out
  · exact command_ends_as hu hr hj hv h (body := fun s i record => s.loadBody i record) out
  · exact command_ends_as hu hr hj hv h (body := fun s i record => s.storeBody i record) out
  · exact command_ends_as hu hr hj hv h (body := fun s _ record => s.matmulBody record) out
  · exact command_ends_as hu hr hj hv h (body := fun s _ record => s.vectorBody record) out
  · exact command_ends_as hu hr hj hv h (body := fun s i record => s.attendBody i record) out
  · exact command_ends_as hu hr hj hv h (body := fun s i record => s.pointBuildBody i record) out
  · exact command_ends_as hu hr hj hv h (body := fun s i record => s.queryBody i record) out
  · exact command_ends_as hu hr hj hv h (body := fun s i record => s.fuseBody i record) out
  · exact command_ends_as hu hr hj hv h (body := fun s i record => s.solveBody i record) out
  · exact command_ends_as hu hr hj hv h (body := fun s i record => s.copyBody i record) out
  · exact command_ends_as hu hr hj hv h (body := fun s i record => s.collectBody i record) out
  · exact command_ends_as hu hr hj hv h (body := fun s i record => s.createBody i record) out

/-! ### Bodies of fences, semaphores and branches (R261 to R263) -/

theorem waitFenceBody_reached {s : State} {i : Inst} {r : Bytes} (h : s.fenceReached (fenceOf r) (fenceValue r i) = true) : s.waitFenceBody i r = (s, .done) := by
  simp only [State.waitFenceBody, h, if_true]

theorem signalFenceBody_add {s : State} {i : Inst} {r : Bytes} (h : bitOf (fieldB r 10 1) 0 = false) : s.signalFenceBody i r = (s.fenceAdd (fenceOf r) (fieldB r 16 8), .done) := by
  simp only [State.signalFenceBody, h, Bool.false_eq_true, if_false]

theorem signalFenceBody_set {s : State} {i : Inst} {r : Bytes} (h : bitOf (fieldB r 10 1) 0 = true) : s.signalFenceBody i r = (s.fenceSet (fenceOf r) (fenceValue r i), .done) := by
  simp only [State.signalFenceBody, h, if_true]

theorem semAcquireBody_served {s : State} {i : Inst} {r : Bytes} (enough : fieldB r 10 2 ≤ s.sem (fieldB r 8 1)) (first : s.acquirers (fieldB r 8 1) = []) :
    s.semAcquireBody i r =
      ((s.set (F.CL_SEM (fieldB r 8 1)) (s.sem (fieldB r 8 1) - fieldB r 10 2)).setInst { i with sems := i.sems ++ [(fieldB r 8 1, fieldB r 10 2)] }, .done) := by
  simp only [State.semAcquireBody, decide_eq_true enough, first, List.all_nil, Bool.and_self, if_true]

theorem branchBody_bound {s : State} {i : Inst} {r : Bytes} (mode : bitOf (fieldB r 10 1) 0 = false) :
    s.branchBody i r = (s, if s.boundVariant i (bitsOf (fieldB r 12 1) 0 4) = 0 then .done else .jump (fieldB r 8 2)) := by
  simp only [State.branchBody, mode, Bool.false_eq_true, if_false, bne_iff_ne, ne_eq, ite_not]

theorem branchBody_equal {s : State} {i : Inst} {r : Bytes} (mode : bitOf (fieldB r 10 1) 0 = true) :
    s.branchBody i r = (s, if s.boundVariant i (bitsOf (fieldB r 12 1) 0 4) = fieldB r 11 1 then .jump (fieldB r 8 2) else .done) := by
  simp only [State.branchBody, mode, if_true, beq_iff_eq]

/-! ### Waits over (R203, R239, R255) -/

section
variable {dt : Nat} {s u : State} {c : QCmd} {i : Inst} (hu : u = s.elapse dt) (queue : u.instOn c.eng.val c.q.val = some i) (free : u.ctxHeld (u.runHdr i).ctx = false)
include hu queue free

/-- A wait of a run that its context does not hold ends by `wake`. -/
theorem exec_waitSatisfied {w : WaitCause} (waits : i.wait = some w) : exec (.waitSatisfied dt c) s = ran (u.wake i w) := by
  change execWaitSatisfied _ _ _ = _
  simp only [execWaitSatisfied, ← hu, queue, waits, free, Bool.false_eq_true, if_false]

theorem exec_orderWaitEnd (waits : i.wait = some .corridorOrder) (ended : u.orderOver i = true) :
    exec (.corridorOrderWaitEnd dt c) s = ran (((u.countOrderWait i.list).rerun i).runCmd c .attend (fun s i r => s.attendBody i r)) := by
  change execCorridorOrderWaitEnd _ _ _ = _
  simp only [execCorridorOrderWaitEnd, ← hu, queue, waits, ended, free, beq_self_eq_true, Bool.not_false, Bool.and_self, if_true]

theorem exec_solveReadReady {p t w : Nat} (waits : i.wait = some (.solveRead p t)) (mark : (u.prob p).wm = some w) (past : t ≤ w) :
    exec (.solveReadDataReady dt c) s = ran ((u.rerun i).runCmd c .solve (fun s i r => s.solveBody i r)) := by
  change execSolveReadDataReady _ _ _ = _
  simp only [execSolveReadDataReady, ← hu, queue, waits, mark, decide_eq_true past, free, Bool.not_false, Bool.and_self, if_true]

end

/-- Settles O12: the waits by `wake`, the others by their body's outcome. -/
theorem listControlCommandsComplete : Obligations.ListControlCommandsComplete := by
  unfold Obligations.ListControlCommandsComplete
  intro dt s u c i r hu hr
  refine ⟨fun op j v h hj hv => ⟨?_, ?_, ?_, ?_, ?_, ?_, ?_, ?_, ?_, ?_⟩, fun f v queue waits free reached => ?_, fun n k queue waits free enough => ?_,
    fun queue waits ended free => exec_orderWaitEnd hu queue free waits ended, fun p t w queue waits mark past free => exec_solveReadReady hu queue free waits mark past⟩
  · rintro rfl reached
    exact command_ends hu hr hj hv h (body := fun s i r => s.waitFenceBody i r) (waitFenceBody_reached reached)
  · rintro rfl add
    exact command_ends hu hr hj hv h (body := fun s i r => s.signalFenceBody i r) (signalFenceBody_add add)
  · rintro rfl set
    exact command_ends hu hr hj hv h (body := fun s i r => s.signalFenceBody i r) (signalFenceBody_set set)
  · rintro rfl enough first
    exact command_ends hu hr hj hv h (body := fun s i r => s.semAcquireBody i r) (semAcquireBody_served enough first)
  · rintro rfl
    exact command_ends hu hr hj hv h (body := fun s i r => s.semReleaseBody i r) rfl
  · rintro rfl mode taken
    exact command_ends hu hr hj hv h (body := fun s i r => s.branchBody i r) (by rw [branchBody_bound mode, if_neg taken])
  · rintro rfl mode skipped
    exact command_ends hu hr hj hv h (body := fun s i r => s.branchBody i r) (by rw [branchBody_bound mode, if_pos skipped])
  · rintro rfl mode taken
    exact command_ends hu hr hj hv h (body := fun s i r => s.branchBody i r) (by rw [branchBody_equal mode, if_pos taken])
  · rintro rfl mode skipped
    exact command_ends hu hr hj hv h (body := fun s i r => s.branchBody i r) (by rw [branchBody_equal mode, if_neg skipped])
  · rintro rfl
    exact command_ends hu hr hj hv h (body := fun s i r => (s.endBuild i.list (bitOf (fieldB r 8 1) 0), .ended)) rfl
  · rw [exec_waitSatisfied hu queue free waits, State.wake, if_pos (by simpa [State.waitOver] using reached)]; rfl
  · rw [exec_waitSatisfied hu queue free waits, State.wake, if_pos (by simpa [State.waitOver] using enough)]; rfl

end Sys2Proof.Proofs
end

section
/-! Build stages, list triggers, Marjoram's and the tiles' commands complete (O13 to O15). -/

namespace Sys2Proof.Proofs

open Sys2Proof Sys2Proof.Machine Sys2Proof.Laws

section
variable {dt : Nat} {s u : State} (hu : u = s.elapse dt)
include hu

/-! ### Build stages and triggers (R139, R252, R253) -/

omit hu in
/-- A build whose context is not held goes on at its stage. -/
theorem atStage_runs {b : PtBuild} (build : u.pt = some b) (free : u.ctxHeld (u.listHdr b.owner).ctx = false) {stage : Nat} (at_ : u.get F.PT_STATUS_STAGE = stage)
    (f : State → PtBuild → State) : u.atStage stage f = f u b := by
  simp only [State.atStage, build, at_, free, beq_self_eq_true, Bool.not_false, Bool.and_self, if_true]

omit hu in
theorem buildResident_completes {b : PtBuild} {i : Inst} (owner : (u.interiorBuild b).inst? b.owner = some i)
    (command : opcodeOf ((u.interiorBuild b).nextCmd i) = some .pointBuild) : u.buildResident b = (u.interiorBuild b).finish i.list .done := by
  simp only [State.buildResident, owner, command, beq_self_eq_true, if_true]

theorem exec_timeTrigger {list : Fin 4095} {t : Nat} (run : u.running = true) (fires : assocGet list.val u.cl.fires = some t) (past : t ≤ u.cycleNow) :
    exec (.listTimeTrigger dt list) s =
      ran ((State.occur { u with cl := { u.cl with fires := assocPut list.val (t + (u.listHdr list.val).period) u.cl.fires } } list.val 1).settle false) := by
  change execListTimeTrigger _ _ _ = _
  simp only [execListTimeTrigger, ← hu, fires, run, decide_eq_true past, Bool.and_self, if_true]

theorem exec_batchWait {list : Fin 4095} {o : Occ} {os : List Occ} (run : u.running = true) (occs : u.occsOf list.val = o :: os) (kind : (u.listHdr list.val).kind = 1)
    (past : o.sealTime + (u.listHdr list.val).batchWait ≤ u.now) : exec (.batchWaitExpiry dt list) s = ran (u.settle false) := by
  change execBatchWaitExpiry _ _ _ = _
  simp only [execBatchWaitExpiry, ← hu, occs, kind, run, decide_eq_true past, beq_self_eq_true, Bool.and_self, if_true]

/-! ### Marjoram (R267 to R276) -/

theorem exec_energyTick (run : u.running = true) : exec (.energyTick dt) s = ran (((u.set F.MJ_POWER_MW (Config.measuredPower u.freeCtr)).nextFree).settle true) := by
  change execEnergyTick _ _ = _
  simp only [execEnergyTick, ← hu, run, if_true]

theorem exec_slackExpiry {list : Fin 4095} {i : Inst} (inst : u.inst? list.val = some i) (ready : i.phase = .ready) (zero : (u.listHdr i.list).cls = 0) (spent : u.slackLeft i = 0) :
    exec (.class0SlackExpiry dt list) s = ran (u.settle true) := by
  change execClass0SlackExpiry _ _ _ = _
  simp only [execClass0SlackExpiry, ← hu, inst, ready, zero, spent, beq_self_eq_true, Bool.and_self, if_true]

theorem exec_starve {list : Fin 4095} {i : Inst} (inst : u.inst? list.val = some i) (ready : i.phase = .ready) (deferred : i.deferred = true) (low : (u.listHdr i.list).cls ≠ 0)
    (past : i.readyAt + u.get F.MJ_STARVE * 1000 ≤ u.now) (free : u.starver (u.listHdr i.list).cls = none) :
    exec (.starveTimeout dt list) s = ran (u.setStarver (u.listHdr i.list).cls (some i.list)) := by
  have low' : ((u.listHdr i.list).cls != 0) = true := by simpa using low
  change execStarveTimeout _ _ _ = _
  simp only [execStarveTimeout, ← hu, inst, ready, deferred, low', decide_eq_true past, free, Option.isNone_none, beq_self_eq_true, Bool.and_self, if_true]

theorem exec_debtTimeout {c : Nat} (debt : u.mj.debtSince = some c) (untold : u.mj.debtTold = false) (past : c + u.get F.MJ_WINDOW * 10 ^ 6 < u.now) :
    exec (.energyDebtTimeout dt) s = ran ((((u.setMj (fun m => { m with debtTold := true })).raise 0x168).safetyLog (SafetyRec.of 0x36 1)).raise 0x174) := by
  change execEnergyDebtTimeout _ _ = _
  simp only [execEnergyDebtTimeout, ← hu, debt, untold, decide_eq_true past, Bool.not_false, Bool.and_self, if_true]

theorem exec_zoneSample (run : u.running = true) (temps : List (Option Int)) :
    exec (.zoneSample dt temps) s = ran ((List.range 64).foldl (fun s i => s.sampleSensor i (temps.getD i none)) u).refreshZones := by
  change execZoneSample _ _ _ = _
  simp only [execZoneSample, ← hu, run, if_true]

theorem exec_sensorTimeout {sensor : Fin 64} (run : u.running = true) (past : u.mj.sampled.getD sensor.val 0 + 100000 ≤ u.now) (good : u.flag (F.MJ_SENSOR_BAD_FLD sensor.val) = false) :
    exec (.sensorSampleTimeout dt sensor) s = ran ((u.sensorBad sensor.val (u.mj.temps.getD sensor.val 0)).refreshZones) := by
  change execSensorSampleTimeout _ _ _ = _
  simp only [execSensorSampleTimeout, ← hu, run, decide_eq_true past, good, Bool.not_false, Bool.and_self, if_true]

theorem exec_capWrite (run : u.running = true) {v : Word} (clean : cleanWrite F.MJ_CAP_MW.addr v = true) (c : Fin 8) : exec (.capWrite dt c v) s = ran (u.capWrite v) := by
  subst hu; exact congrArg ran (State.coreWrite_run run (by decide) clean c.val _)

omit hu in
theorem capWrite_taken {v : Word} (least : 60000 ≤ v.toNat) (most : v.toNat ≤ 300000) (base : u.get F.MJ_BASE_MW + 10000 ≤ v.toNat) :
    u.capWrite v = (u.set F.MJ_CAP_MW v.toNat).setMj (fun m => { m with pendingCap := some v.toNat }) := by
  simp only [State.capWrite, State.capAllowed, decide_eq_true least, decide_eq_true most, decide_eq_true base, Bool.and_self, if_true]

omit hu in
theorem capWrite_rejected {v : Word} (out : v.toNat < 60000 ∨ 300000 < v.toNat) : u.capWrite v = (u.incSat F.MJ_CAP_REJ).raise 0x16A := by
  have barred : u.capAllowed v.toNat = false := by
    rw [State.capAllowed, ← Bool.not_eq_true]
    simp only [Bool.and_eq_true, decide_eq_true_eq]
    omega
  simp only [State.capWrite, barred, Bool.false_eq_true, if_false]

/-! ### Tiles (R160, R162, R164, R167 to R169) -/

theorem exec_tileTemp {tile : Fin 144} (run : u.running = true) (live : tile.val < u.tiles) (temp : BitVec 8) :
    exec (.tileTempSample dt tile temp) s = ran ((u.set (F.TL_T_STAT_TEMP tile.val) temp.toNat).retarget tile.val) := by
  change execTileTempSample _ _ _ _ = _
  simp only [execTileTempSample, ← hu, run, decide_eq_true live, Bool.and_self, if_true]

theorem exec_opChangeDone {tile : Fin 144} {c : OpChange} (change : u.tl.opChanges.find? (fun c => c.tile == tile.val) = some c) (past : c.start + 1500 ≤ u.now) (settled : Bool) :
    exec (.opChangeDone dt tile settled) s = ran (u.endChange c settled) := by
  change execOpChangeDone _ _ _ _ = _
  simp only [execOpChangeDone, ← hu, change, past, if_true]

theorem exec_autonomousSpill {tile : Fin 144} (run : u.running = true) (high : markBytes (u.get F.TL_SPILL_CFG_HIGH) < u.sramAfter tile.val) (free : assocGet tile.val u.tl.stalls = none) :
    exec (.autonomousSpill dt tile) s = ran (u.spill tile.val) := by
  change execAutonomousSpill _ _ _ = _
  simp only [execAutonomousSpill, ← hu, run, decide_eq_true high, free, Option.isNone_none, Bool.and_self, if_true]

theorem exec_rowRemap {vault : Fin 144} {layer : Fin 4} {row : Nat} (run : u.running = true) (reached : u.get F.TL_CE_LIMIT ≤ (assocGet (rowKey vault.val layer.val row) u.tl.rowCe).getD 0)
    (open_ : rowKey vault.val layer.val row ∉ u.tl.denied) : exec (.vaultRowRemap dt vault layer row) s = ran (u.remapRow vault.val layer.val row) := by
  have open' : u.tl.denied.contains (rowKey vault.val layer.val row) = false := by simpa using open_
  change execVaultRowRemap _ _ _ _ _ = _
  simp only [execVaultRowRemap, ← hu, run, decide_eq_true reached, open', Bool.not_false, Bool.and_self, if_true]

theorem exec_scrub {vault : Fin 144} {offset : Nat} (run : u.running = true) (on : u.get F.TL_SCRUB_CFG ≠ 0) :
    (∀ row, exec (.vaultScrub dt vault offset (.corrected row)) s = ran (u.vaultCe vault.val (offset / 2 ^ 26) row)) ∧
      exec (.vaultScrub dt vault offset .uncorrectable) s = ran (u.recordUe none 0 vault.val (vault.val * 2 ^ 28 + offset)) := by
  have on' : (u.get F.TL_SCRUB_CFG != 0) = true := by simpa using on
  constructor
  · intro row
    change execVaultScrub dt vault offset (.corrected row) s = _
    simp only [execVaultScrub, ← hu, run, on', Bool.and_self, if_true]
  · change execVaultScrub dt vault offset .uncorrectable s = _
    simp only [execVaultScrub, ← hu, run, on', Bool.and_self, if_true]

theorem exec_meshArrival {m : MeshMsg} (run : u.running = true) (fresh : u.tooOld m = false) : exec (.meshMessageArrival dt m) s = ran (u.meshOrder m false) := by
  change execMeshMessageArrival _ _ _ = _
  simp only [execMeshMessageArrival, ← hu, run, fresh, Bool.false_eq_true, if_false, if_true]

theorem exec_meshRetire {m : MeshMsg} (run : u.running = true) (old : u.tooOld m = true) : exec (.meshReplyRetire dt m) s = ran (u.retire m) := by
  change execMeshReplyRetire _ _ _ = _
  simp only [execMeshReplyRetire, ← hu, run, old, Bool.and_self, if_true]

end

/-- Settles O13: the stages of a build by `atStage_runs`. -/
theorem stageAndTriggerCommandsComplete : Obligations.StageAndTriggerCommandsComplete := by
  unfold Obligations.StageAndTriggerCommandsComplete
  intro dt s u hu
  refine ⟨fun b build free => ⟨fun at_ => ?_, fun at_ => ?_, fun at_ => ?_, fun i at_ owner command => ?_⟩, fun list t => exec_timeTrigger hu, fun list o os => exec_batchWait hu⟩
  · subst hu; exact congrArg ran (atStage_runs build free at_ _)
  · subst hu; exact congrArg ran (atStage_runs build free at_ _)
  · subst hu; exact congrArg ran (atStage_runs build free at_ _)
  · subst hu; exact congrArg ran ((atStage_runs build free at_ _).trans (buildResident_completes owner command))

/-- Settles O14: a cap's store by whether the cap is taken or rejected. -/
theorem marjoramCommandsComplete : Obligations.MarjoramCommandsComplete := by
  unfold Obligations.MarjoramCommandsComplete
  intro dt s u hu
  refine ⟨exec_energyTick hu, fun list i => exec_slackExpiry hu, fun list i => exec_starve hu, fun c => exec_debtTimeout hu, fun temps run => exec_zoneSample hu run temps,
    fun sensor => exec_sensorTimeout hu, fun c v run least most base => ?_, fun c v run clean out => ?_⟩
  · rw [exec_capWrite hu run (clean_capMw v most) c, capWrite_taken least most base]; rfl
  · rw [exec_capWrite hu run clean c, capWrite_rejected out]; rfl

/-- Settles O15; a change that did not settle leaves the lesser of its target and the point it began at (R363; log entry 119). -/
theorem tileCommandsComplete : Obligations.TileCommandsComplete := by
  unfold Obligations.TileCommandsComplete
  intro dt s u hu
  refine ⟨fun tile temp run live => exec_tileTemp hu run live temp, fun tile settled c change past => ⟨fun yes => ?_, fun no => ?_⟩, fun tile => exec_autonomousSpill hu,
    fun tile offset b at_ out => ?_, fun tile offset b at_ inn => ?_, fun vault layer row => exec_rowRemap hu,
    fun vault offset row run on => ⟨(exec_scrub hu run on).1 row, (exec_scrub hu run on).2⟩, fun m run fresh due => ?_, fun m => exec_meshRetire hu⟩
  · rw [exec_opChangeDone hu change past, yes]; rfl
  · rw [exec_opChangeDone hu change past, no]; rfl
  · subst hu; exact exec_spillOut at_ out
  · subst hu; exact exec_reload at_ inn
  · rw [exec_meshArrival hu run fresh]
    simp only [State.meshOrder, due, beq_self_eq_true, if_true]
    rfl

end Sys2Proof.Proofs
end

section
/-! Tarragon's commands, the control outputs' and the event controller's complete (O16 to O18). -/

namespace Sys2Proof.Proofs

open Sys2Proof Sys2Proof.Machine Sys2Proof.Laws

section
variable {dt : Nat} {s u : State} (hu : u = s.elapse dt)
include hu

/-! ### Accesses that go through -/

/-- A core's store that nothing refuses is what stands behind it. -/
theorem store_runs (run : u.running = true) {a : Nat} {v : Word} (may : coreMayWrite a = true) (clean : cleanWrite a v = true) (c : Nat) (f : State → State) :
    ran ((s.elapse dt).coreWrite c a v f) = ran (f u) := by
  rw [← hu, State.coreWrite_run run may clean]

/-- A core's read in run state is what stands behind it. -/
theorem coreRead_runs (run : u.running = true) (c : Fin 8) (a : Nat) (f : State → State) : ran ((s.elapse dt).readGate (.core c) a f) = ran (f u) := by
  rw [← hu, State.readGate_core run]

/-- A host read that reaches its block is what stands behind it. -/
theorem hostRead_runs (reach : u.hostReaches) (a : Nat) (f : State → State) : ran ((s.elapse dt).readGate .host a f) = ran (f u) := by
  rw [← hu, State.readGate_host reach]

/-! ### Tarragon (R229 to R233, R238) -/

theorem exec_tickReady {p : Fin 32} {t0 : Nat} (run : u.running = true) (start : (u.prob p.val).t0 = some t0) (past : t0 + (u.prob p.val).next * u.get (F.SV_P_PERIOD p.val) ≤ u.now) :
    exec (.tickReady dt p) s = ran ((u.putProb p.val { u.prob p.val with next := (u.prob p.val).next + 1 }).addTick p.val (u.prob p.val).next
      (t0 + (u.prob p.val).next * u.get (F.SV_P_PERIOD p.val)) 0 none) := by
  have due : u.tickDue p.val = some ((u.prob p.val).next, t0 + (u.prob p.val).next * u.get (F.SV_P_PERIOD p.val)) := by
    simp only [State.tickDue, start, run, decide_eq_true past, Bool.and_self, if_true]
  change execTickReady _ _ _ = _
  simp only [execTickReady, ← hu, due]

theorem exec_inputsReady {p : Fin 32} {k : SvTick} (head : u.headTick p.val = some k) (ready : k.ready = true ∨ u.inputsPast p.val k.t = true) :
    exec (.tickInputsReady dt p) s = ran (u.readyTick p.val k) := by
  have ready' : (k.ready || u.inputsPast p.val k.t) = true := by simpa using ready
  change execTickInputsReady _ _ _ = _
  simp only [execTickInputsReady, ← hu, head, ready', if_true]

theorem exec_tickShort {p : Fin 32} {k : SvTick} (head : u.headTick p.val = some k) (unready : k.ready = false) (missing : u.inputsPast p.val k.t = false)
    (past : k.t + u.get (F.SV_P_WAIT p.val) ≤ u.now) :
    exec (.tickShort dt p) s = ran ((u.incSat (F.SV_P_STOPS_SHORT p.val)).readyTick p.val { k with short := true }) := by
  have due : u.shortDue p.val k = true := by simp only [State.shortDue, unready, missing, decide_eq_true past, Bool.not_false, Bool.and_self]
  change execTickShort _ _ _ = _
  simp only [execTickShort, ← hu, head, due, if_true]

theorem exec_kernelStep {stall p : Nat} {k : SvTick} (cur : u.sv.cur = some p) (head : u.headTick p = some k) (within : k.cycles + (u.stepCycles p k k.pos + stall) ≤ u.get (F.SV_P_BUDGET p)) :
    exec (.kernelStepComplete dt stall none) s = ran (u.stepDone p k (u.stepCycles p k k.pos + stall)) := by
  change execKernelStepComplete dt stall none s = _
  simp only [execKernelStepComplete, ← hu, cur, head, not_lt.2 within, if_false]

theorem exec_solverBudgetStop {p : Fin 32} {k : SvTick} (cur : u.sv.cur = some p.val) (head : u.headTick p.val = some k) :
    exec (.solverBudgetStop dt p) s = ran ((u.stopTick p.val k).completeSolve k) := by
  change execSolverBudgetStop _ _ _ = _
  simp only [execSolverBudgetStop, ← hu, cur, head, beq_self_eq_true, if_true]

/-! ### Control outputs and captures (R241 to R244) -/

theorem exec_pwmBoundary {w : Fin 12} (on : u.flag (F.IO_PWM_CFG_EN w.val) = true) (own : u.flag (F.IO_PWM_CFG_PAIR (w.val / 2 * 2)) = false ∨ w.val % 2 = 0) :
    exec (.pwmPeriodBoundary dt w) s = ran (u.applyTicks w.val (u.dueCount w.val)) := by
  have lead : u.pwmLead w.val = w.val := by
    obtain h | h := own
    · rw [State.pwmLead, h, if_neg (by decide)]
    · rw [State.pwmLead, Nat.div_mul_cancel (Nat.dvd_of_mod_eq_zero h), ite_self]
  change execPwmPeriodBoundary _ _ _ = _
  simp only [execPwmPeriodBoundary, ← hu, on, lead, beq_self_eq_true, Bool.and_self, if_true]

theorem exec_triggerFire {o : Fin 16} (run : u.running = true) (on : u.flag (F.IO_TRG_CFG_EN o.val) = true) : exec (.triggerFire dt o) s = ran (u.fireTrigger o.val) := by
  change execTriggerFire _ _ _ = _
  simp only [execTriggerFire, ← hu, run, on, Bool.and_self, if_true]

theorem exec_pulseEnd {o : Fin 16} {t : Nat} (pulse : assocGet o.val u.io.pulses = some t) (past : t ≤ u.now) :
    exec (.triggerPulseEnd dt o) s = ran (u.setIo (fun x => { x with pulses := assocDrop o.val x.pulses })) := by
  change execTriggerPulseEnd _ _ _ = _
  simp only [execTriggerPulseEnd, ← hu, pulse, past, if_true]

theorem exec_timePush {c : Fin 8} {o : Fin 16} {hi : Word} (run : u.running = true) : exec (.triggerTimePush dt c o hi) s = ran (u.trgTimeWrite o.val hi) :=
  store_runs hu run (coreMay_trgHi o) (cleanWrite_all (writable_trgHi o) hi) c.val _

theorem exec_captureEdge {line : Fin 16} {rising : Bool} {q : Fin 8} {held : Nat} (run : u.running = true) (edge : u.edgeEnabled line.val rising = true)
    (passes : 10 * u.get (F.IO_CAP_CFG_FILT line.val) ≤ held) :
    exec (.captureEdge dt line rising ⟨q, held⟩) s = ran ((u.feedCapture line.val (u.edgeValue q.val (10 * u.get (F.IO_CAP_CFG_FILT line.val)) / 4) 48).storeCapture line.val
      ⟨u.edgeValue q.val (10 * u.get (F.IO_CAP_CFG_FILT line.val)), rising⟩) := by
  have clean : filterPasses (u.get (F.IO_CAP_CFG_FILT line.val)) held = true := decide_eq_true passes
  change execCaptureEdge _ _ _ _ _ = _
  simp only [execCaptureEdge, ← hu, run, edge, clean, Bool.and_self, if_true]

omit hu in
theorem fireTrigger_periodic {o t : Nat} (periodic : u.flag (F.IO_TRG_CFG_PERIODIC o) = true) (next : assocGet o u.io.next = some t) (past : t ≤ u.cycleNow) :
    u.fireTrigger o = (u.setIo (fun x => { x with next := assocPut o (t + u.get (F.IO_TRG_PERIOD o)) x.next })).fireTime o t false := by
  simp only [State.fireTrigger, periodic, next, past, if_true]

omit hu in
theorem fireTrigger_queued {o : Nat} {x : TrgTime} (queued : u.flag (F.IO_TRG_CFG_PERIODIC o) = false) (due : u.dueQueued o = some x) :
    u.fireTrigger o = ((u.setIo (fun y => { y with queue := removeOne x y.queue })).refreshQueued o).fireTime o x.time x.late := by
  simp only [State.fireTrigger, queued, due, Bool.false_eq_true, if_false]

omit hu in
/-- A time pushed to an output that takes its times from cores is queued. -/
theorem trgTimeWrite_pushed {o : Nat} {hi : Word} (own : u.flag (F.IO_TRG_CFG_SRC o) = false) :
    u.trgTimeWrite o hi = (u.set (F.IO_TRG_TIME_HI o) hi.toNat).pushTrigger o ((u.set (F.IO_TRG_TIME_HI o) hi.toNat).get64 (F.IO_TRG_TIME_LO o) (F.IO_TRG_TIME_HI o)) := by
  have own' : (u.set (F.IO_TRG_TIME_HI o) hi.toNat).flag (F.IO_TRG_CFG_SRC o) = false := by
    rw [State.flag, State.get_set_other _ _ _ _ (by simp only [F.IO_TRG_CFG_SRC, F.IO_TRG_TIME_HI]; omega)]; exact own
  simp only [State.trgTimeWrite, own', Bool.false_eq_true, if_false]

/-! ### Events (R281 to R293) -/

theorem exec_statusSource {src : Fin 1024} (status : isStatusSource src.val = true) (awake : u.parked = false) (level : Bool) :
    exec (.statusSourceChange dt src level) s = ran (u.statusSource src.val level) := by
  change execStatusSourceChange _ _ _ _ = _
  simp only [execStatusSourceChange, ← hu, status, awake, Bool.not_true, Bool.false_eq_true, if_false]

theorem exec_coalesce {src : Fin 1024} {c : Nat} (counting : u.get (F.EV_S_STAT_STATE src.val) = 1) (timed : u.get (F.EV_S_COAL_TIME_US src.val) ≠ 0)
    (start : assocGet src.val u.ev.starts = some c) (past : c + u.get (F.EV_S_COAL_TIME_US src.val) * 1000 ≤ u.thy.counter) :
    exec (.coalesceTimeout dt src) s = ran (u.evSetState src.val 2) := by
  have timed' : (u.get (F.EV_S_COAL_TIME_US src.val) != 0) = true := by simpa using timed
  change execCoalesceTimeout _ _ _ = _
  simp only [execCoalesceTimeout, ← hu, counting, timed', start, decide_eq_true past, beq_self_eq_true, Bool.and_self, if_true]

theorem exec_delivery (open_ : u.flag F.EV_GLOBAL = false) (mie : BitVec 8) :
    exec (.eventDelivery dt mie) s = ran (u.deliverAll mie.toNat (u.ranked (fun src => u.get (F.EV_S_CFG_TARGET src) != 0)) []) := by
  change execEventDelivery _ _ _ = _
  simp only [execEventDelivery, ← hu, open_, Bool.false_eq_true, if_false]

/-- A core's read of a claim register with a source delivered claims it when the register is its own. -/
theorem exec_claim {c d : Fin 8} {h : EvHeld} (run : u.running = true) (held : (u.evCore c.val).held = some h) :
    exec (.evCClaimRead dt (.core d) c) s = ran ((if d = c then u.claimHeld c.val h else u).coreReturn d.val (u.claimWord h)) := by
  have same : (d.val + 1 == c.val + 1) = decide (d = c) := by
    rw [Bool.eq_iff_iff, beq_iff_eq, decide_eq_true_eq, Fin.ext_iff]; omega
  change execEvCClaimRead _ _ _ _ = _
  simp only [execEvCClaimRead, coreRead_runs hu run, held, Requester.num, same, decide_eq_true_eq]
  split <;> rfl

theorem exec_complete {c d : Fin 8} {v : Word} (run : u.running = true) (clean : cleanWrite (F.EV_C_COMPLETE d.val).addr v = true) :
    exec (.eventComplete dt c d v) s = ran (u.completeOn (c == d) d.val (v.toNat % 1024)) :=
  store_runs hu run (coreMay_complete d) clean c.val _

omit hu in
theorem completeOn_own {t src : Nat} {rest : List Nat} (active : (u.evCore t).active = src :: rest) :
    u.completeOn true t src = ((u.setEvCore t { u.evCore t with active := rest }).completeSource src).showLevel t := by
  simp only [State.completeOn, active, beq_self_eq_true, Bool.and_self, if_true]

omit hu in
theorem completeOn_other (t src : Nat) : u.completeOn false t src = u.incSat (F.EV_C_COMPLETE_BAD t) := by
  unfold State.completeOn
  split
  · rw [Bool.and_false, if_neg (by decide)]
  · rfl

theorem exec_causeRead (r : Requester) (pin : Fin 2) :
    exec (.evHCauseRead dt r pin) s = ran (u.readGate r (F.EV_H_CAUSE_SOURCE pin.val).addr fun s =>
      match r with
      | .host => (s.claimPin pin.val).readReturn r (s.causeWord pin.val)
      | .core _ => s.readReturn r (s.causeWord pin.val)) := by
  subst hu; rfl

end

/-- A word below 2 may be written to EV_GLOBAL. -/
theorem clean_global_word {v : Word} (h : v.toNat < 2) : cleanWrite F.EV_GLOBAL.addr v = true := by
  simpa using clean_global ⟨v.toNat, h⟩

/-- A word below 128 may be written to EV_SWSET. -/
theorem clean_swset_word {v : Word} (h : v.toNat < 128) : cleanWrite F.EV_SWSET.addr v = true := by
  simpa using clean_swset ⟨v.toNat, h⟩

/-- Settles O16: Tarragon's commands one by one. -/
theorem tarragonCommandsComplete : Obligations.TarragonCommandsComplete := by
  unfold Obligations.TarragonCommandsComplete
  intro dt s u hu
  exact ⟨fun p t0 => exec_tickReady hu, fun p k => exec_inputsReady hu, fun p k => exec_tickShort hu, fun stall p k => exec_kernelStep hu, fun p k => exec_solverBudgetStop hu⟩

/-- Settles O17: the control outputs' commands one by one, stores and reads by the gate they pass. -/
theorem controlOutputCommandsComplete : Obligations.ControlOutputCommandsComplete := by
  unfold Obligations.ControlOutputCommandsComplete
  intro dt s u hu
  refine ⟨fun w => exec_pwmBoundary hu, fun o t run on periodic next past => ?_, fun o x run on queued due => ?_, fun o t => exec_pulseEnd hu, fun c o hi run own => ?_,
    fun line rising q held => exec_captureEdge hu, fun c cap run => coreRead_runs hu run c _ _, fun cap reach => hostRead_runs hu reach _ _⟩
  · rw [exec_triggerFire hu run on, fireTrigger_periodic periodic next past]; rfl
  · rw [exec_triggerFire hu run on, fireTrigger_queued queued due]; rfl
  · rw [exec_timePush hu run, trgTimeWrite_pushed own]; rfl

/-- Settles O18: the event controller's commands one by one, stores and reads by the gate they pass. -/
theorem eventCommandsComplete : Obligations.EventCommandsComplete := by
  unfold Obligations.EventCommandsComplete
  intro dt s u hu
  refine ⟨fun src level status awake => exec_statusSource hu status awake level, fun src c => exec_coalesce hu, fun mie open_ => exec_delivery hu open_ mie, fun c h run held => ?_,
    fun c d h run held other => ?_, fun c v rest run clean active => ?_, fun c d v run clean other => ?_, fun pin reach => ?_, fun c pin run => ?_, fun c v run small => ?_, fun c w v run => ?_,
    fun c run => coreRead_runs hu run c _ _, fun c v run small => ?_, fun c w hi run => ?_⟩
  · rw [exec_claim hu run held, if_pos rfl]; rfl
  · rw [exec_claim hu run held, if_neg other]; rfl
  · rw [exec_complete hu run clean, beq_self_eq_true, completeOn_own active]; rfl
  · rw [exec_complete hu run clean, beq_false_of_ne other, completeOn_other]; rfl
  · rw [exec_causeRead hu, State.readGate_host reach]; rfl
  · rw [exec_causeRead hu, State.readGate_core run]; rfl
  · refine (store_runs hu run (by decide) (clean_global_word small) c.val _).trans ?_
    rw [Nat.mod_eq_of_lt small]; rfl
  · exact store_runs hu run (coreMay_mask w) (cleanWrite_all (writable_mask w) v) c.val _
  · refine (store_runs hu run (by decide) (clean_swset_word small) c.val _).trans ?_
    rw [Nat.mod_eq_of_lt small]; rfl
  · exact store_runs hu run (coreMay_fwHi w) (cleanWrite_all (writable_fwHi w) hi) c.val _

end Sys2Proof.Proofs
end

section
/-! Chervil's commands complete (O19, O20). -/

namespace Sys2Proof.Proofs

open Sys2Proof Sys2Proof.Machine Sys2Proof.Laws

/-- The CRC a golden run gives for a pool row is judged; a row it gives none for is left (R309). -/
def judgeRow (crcs : List (Nat × Word)) (s : State) (r : Nat) : State := match assocGet r crcs with
  | some v => s.judgeGolden r v.toNat
  | none => s

section
variable {dt : Nat} {s u : State} (hu : u = s.elapse dt)
include hu

/-! ### Supervision, budgets, deadlines and monitors (R297 to R306) -/

theorem exec_supervision_off (run : u.running = true) (off : u.sf.phase = .off) : exec (.supervisionPass dt) s = ran (u.beginSupervision.countPass) := by
  change execSupervisionPass _ _ = _
  simp only [execSupervisionPass, ← hu, run, off, if_true]

theorem exec_supervision_on (run : u.running = true) (on : u.sf.phase = .supervising) :
    exec (.supervisionPass dt) s = ran (((List.range u.tiles).foldl State.judgeCe u).countPass) := by
  change execSupervisionPass _ _ = _
  simp only [execSupervisionPass, ← hu, run, on, if_true]

theorem exec_lockstep (run : u.running = true) : exec (.lockstepMismatch dt) s = ran (u.fatal (SafetyRec.of 0x50 2)) := by
  change execLockstepMismatch _ _ = _
  simp only [execLockstepMismatch, ← hu, run, if_true]

theorem exec_budgetStop {c : QCmd} {i : Inst} {op : Opcode} (queue : u.instOn c.eng.val c.q.val = some i) (opcode : opcodeOf (u.nextCmd i) = some op) (running : i.phase = .running)
    (free : u.sliceHolds i op (u.nextCmd i) = false) (ctx : u.ctxHeld (u.runHdr i).ctx = false) (past : u.pastBudget i (cycleKeys c.eng.val op (u.nextCmd i)) c.cycles = true)
    (clean : c.ue = none) : exec (.budgetStop dt c) s = ran (u.stopInst i).parkCheck := by
  change execBudgetStop _ _ _ = _
  simp only [execBudgetStop, ← hu, queue, opcode, running, free, ctx, past, clean, beq_self_eq_true, Bool.true_or, Bool.not_false, Bool.and_self, if_true]

theorem exec_drainTimeout {c : QCmd} {d : StopDrain} (drain : u.sf.drains.find? (fun d => d.eng == c.eng.val && d.q == c.q.val) = some d) (past : d.start + 100000 ≤ u.now)
    (open_ : u.ctxReqs (some d.ctx) ≠ []) :
    exec (.budgetStopDrainTimeout dt c) s = ran ((((u.setSf (fun f => { f with drains := f.drains.filter (fun x => x != d) })).answerErrors d.ctx).ctxTriggerOf d.ctx 4 0).parkCheck) := by
  have late : (u.ctxReqs (some d.ctx)).isEmpty = false := by simpa using open_
  change execBudgetStopDrainTimeout _ _ _ = _
  simp only [execBudgetStopDrainTimeout, ← hu, drain, past, late, Bool.not_false, if_true]

theorem exec_deadlineTest {rs : Fin 4} (run : u.running = true) (sound : u.sf.phase ≠ .fault) (runs : u.rsRuns rs.val = true)
    (past : u.instant rs.val (u.fuSet rs.val).check + u.get (F.FU_RS_L rs.val) ≤ u.now) : exec (.resultDeadlineTest dt rs) s = ran (u.testDeadline rs.val) := by
  have sound' : (u.sf.phase != .fault) = true := by simpa using sound
  change execResultDeadlineTest _ _ _ = _
  simp only [execResultDeadlineTest, ← hu, run, sound', runs, decide_eq_true past, Bool.true_or, Bool.and_self, if_true]

omit hu in
theorem testDeadline_met {rs : Nat} (met : (u.fuSet rs).check < (u.fuSet rs).next) :
    u.testDeadline rs = (u.putSet rs { u.fuSet rs with check := (u.fuSet rs).check + 1 }).set (F.SF_RS_LATE_RUN rs) 0 := by
  simp only [State.testDeadline, met, if_true]

omit hu in
theorem testDeadline_missed {rs : Nat} (missed : (u.fuSet rs).next ≤ (u.fuSet rs).check) :
    u.testDeadline rs = (u.putSet rs { u.fuSet rs with check := (u.fuSet rs).check + 1 }).lateResult rs (u.fuSet rs).check
      (u.instant rs (u.fuSet rs).check + u.get (F.FU_RS_L rs)) (u.passedByStep (u.instant rs (u.fuSet rs).check + u.get (F.FU_RS_L rs))) := by
  simp only [State.testDeadline, not_lt.2 missed, if_false]
  rfl

theorem exec_clockWindow {island : Fin 178} {d expected : Nat} (clock : u.islandClock island.val = some (d, expected)) (run : u.running = true) (on : u.domainOn d = true) (khz : Nat) :
    exec (.clockMonitorWindow dt island khz false) s = ran (u.judgeClock island.val khz expected) := by
  change execClockMonitorWindow _ _ _ _ _ = _
  simp only [execClockMonitorWindow, ← hu, clock, run, on, Bool.not_true, Bool.or_self, Bool.false_eq_true, if_false]

theorem exec_voltageFault {domain : Fin 56} {mv nominal : Nat} (run : u.running = true) (on : u.domainOn domain.val = true) (off : nominal < 20 * (nominal - mv) + 20 * (mv - nominal)) :
    exec (.voltageFault dt domain mv nominal) s = ran (u.fatal { SafetyRec.of 0x31 2 with object := domain.val, detail := mv, limit := nominal }) := by
  have off' : nominal < 20 * (if mv ≤ nominal then nominal - mv else mv - nominal) := by split <;> omega
  change execVoltageFault _ _ _ _ _ = _
  simp only [execVoltageFault, ← hu, run, on, decide_eq_true off', Bool.and_self, if_true]

theorem exec_temperatureFault {sensor : Fin 64} {temp : Int} (run : u.running = true) (hot : ((u.get F.SF_TJ_MAX : Nat) : Int) < temp) :
    exec (.temperatureFault dt sensor temp) s =
      ran (u.fatal { SafetyRec.of 0x32 2 with object := zoneOfSensor sensor.val, detail := patternOf 32 temp, limit := u.get F.SF_TJ_MAX }) := by
  change execTemperatureFault _ _ _ _ = _
  simp only [execTemperatureFault, ← hu, run, decide_eq_true hot, Bool.and_self, if_true]

/-! ### Shadow runs, golden runs and self-test slices (R307 to R312) -/

theorem exec_shadowCompare {rs : Fin 4} {x : ShadowRun} (run : u.running = true) (shadow : u.sf.shadow.find? (fun x => x.rs == rs.val) = some x) (on : u.supervising = true)
    (ready : u.shadowReady x = true) (behind : Bool) (a b g : Word) : exec (.shadowCompare dt rs behind a b g) s = ran (u.decideShadow x behind a b g) := by
  change execShadowCompare _ _ _ _ _ _ _ = _
  simp only [execShadowCompare, ← hu, shadow, run, on, ready, Bool.and_self, if_true]

theorem exec_goldenRun {g : GoldRun} (run : u.running = true) (golden : u.sf.golden = some g) (on : u.supervising = true) (running : g.running = true) (crcs : List (Nat × Word)) :
    exec (.goldenRunComplete dt crcs) s = ran (u.pooledRows.foldl (judgeRow crcs)
      ((u.setSf (fun f => { f with golden := none })).incWrap F.SF_GOLD_RUNS)) := by
  have pool : ((u.setSf (fun f => { f with golden := none })).incWrap F.SF_GOLD_RUNS).get F.SF_SPARE_POOL = u.get F.SF_SPARE_POOL := State.get_set_other _ _ _ _ (by decide)
  have rows : ((u.setSf (fun f => { f with golden := none })).incWrap F.SF_GOLD_RUNS).pooledRows = u.pooledRows := by simp only [State.pooledRows, pool]
  change execGoldenRunComplete _ _ _ = _
  simp only [execGoldenRunComplete, ← hu, golden, run, on, running, Bool.and_self, if_true, rows]
  rfl

theorem exec_selfTestAttempt {zone : Fin 9} (run : u.running = true) (on : u.supervising = true) (enabled : u.flag F.SF_CFG_ST_EN = true) (first : assocGet zone.val u.sf.tries = none)
    (idle : u.sf.slices = []) : exec (.selfTestAttempt dt zone) s = ran ((u.setSf (fun f => { f with tries := assocPut zone.val u.now f.tries })).trySlice zone.val) := by
  change execSelfTestAttempt _ _ _ = _
  simp only [execSelfTestAttempt, ← hu, run, on, enabled, first, Bool.and_self, if_true]
  rw [show (u.setSf (fun f => { f with tries := assocPut zone.val u.now f.tries })).sf.slices = [] from idle]
  rfl

theorem exec_sliceEnd {zone : Fin 9} {x : Slice} (slice : u.sf.slices.find? (fun x => x.zone == zone.val) = some x) (passed : Bool) :
    exec (.selfTestSliceEnd dt zone passed) s =
      ran (if passed then (((((u.endSlice zone.val).set (F.SF_ST_ZONE_SKIPS zone.val) 0).setFlag (F.SF_ST_ZONE_DEGRADED zone.val) false).refreshCover).nextSlice zone.val).incWrap (F.SF_ST_DONE zone.val)
        else ((((((u.endSlice zone.val).set (F.SF_ST_ZONE_SKIPS zone.val) 0).setFlag (F.SF_ST_ZONE_DEGRADED zone.val) false).refreshCover).nextSlice zone.val).incWrap
          (F.SF_ST_DONE zone.val)).failSlice x (sliceTile zone.val (u.get (F.SF_ST_ZONE_HEAD zone.val))).2) := by
  change execSelfTestSliceEnd _ _ _ _ = _
  simp only [execSelfTestSliceEnd, ← hu, slice]

theorem exec_sliceOverrun {zone : Fin 9} {x : Slice} (slice : u.sf.slices.find? (fun x => x.zone == zone.val) = some x) (past : x.start + u.get F.SF_ST_SLICE * 1000 < u.now) :
    exec (.selfTestSliceOverrun dt zone) s = ran (((u.endSlice zone.val).safetyLog
      { SafetyRec.of 0x03 1 with object := zone.val, detail := u.get F.SF_ST_SLICE * 600, limit := u.get F.SF_ST_SLICE * 600 }).raise 0x171) := by
  change execSelfTestSliceOverrun _ _ _ = _
  simp only [execSelfTestSliceOverrun, ← hu, slice, past, if_true]

end

/-- Settles O19; the objects of the records of voltage and temperature faults are log entry 72's (R313). -/
theorem supervisionCommandsComplete : Obligations.SupervisionCommandsComplete := by
  unfold Obligations.SupervisionCommandsComplete
  intro dt s u hu
  refine ⟨exec_supervision_off hu, exec_supervision_on hu, exec_lockstep hu, fun c i op => exec_budgetStop hu, fun c d => exec_drainTimeout hu,
    fun rs run sound runs past => ⟨fun met => ?_, fun missed => ?_⟩, fun island khz d expected clock run on => exec_clockWindow hu clock run on khz, fun domain mv nominal => exec_voltageFault hu,
    fun sensor temp => exec_temperatureFault hu⟩
  · rw [exec_deadlineTest hu run sound runs past, testDeadline_met met]; rfl
  · rw [exec_deadlineTest hu run sound runs past, testDeadline_missed missed]; rfl

/-- Settles O20; the record of a slice's overrun is log entry 72's (R313, R314). -/
theorem redundancyCommandsComplete : Obligations.RedundancyCommandsComplete := by
  unfold Obligations.RedundancyCommandsComplete
  intro dt s u hu run
  refine ⟨fun rs behind a b g x shadow on ready => exec_shadowCompare hu run shadow on ready behind a b g, fun crcs g golden on running => exec_goldenRun hu run golden on running crcs,
    fun zone => exec_selfTestAttempt hu run, fun zone x slice => ⟨?_, ?_⟩, fun zone x => exec_sliceOverrun hu⟩
  · rw [exec_sliceEnd hu slice]; rfl
  · rw [exec_sliceEnd hu slice]; rfl

end Sys2Proof.Proofs
end

section
/-! The recovery commands complete (O21). -/

namespace Sys2Proof.Proofs

open Sys2Proof Sys2Proof.Machine Sys2Proof.Laws

/-- A record already settled leaves a window's end nothing to mark late. -/
theorem windowRecord_settled (s : State) (slot : Nat) : s.windowRecord slot true = s := if_pos rfl

section
variable {dt : Nat} {s u : State} (hu : u = s.elapse dt)
include hu

theorem exec_queueHang {eng : Fin 6} {q : Fin 16} {i : Inst} (run : u.running = true) (queue : u.instOn eng.val q.val = some i) (running : i.phase = .running) (awake : i.wait = none)
    (past : i.progressAt + u.get F.RC_HANG_MS * 1000000 ≤ u.now) (free : u.ctxHeld (u.runHdr i).ctx = false) :
    exec (.queueHang dt eng q) s = ran ((((u.incSat F.RC_HANGS).raise 0x180).ctxTriggerInst 1 i 0).parkCheck) := by
  have alone : i.waitsPeer = false := by rw [Inst.waitsPeer, awake]; rfl
  change execQueueHang _ _ _ _ = _
  simp only [execQueueHang, ← hu, queue, running, run, alone, free, decide_eq_true past, beq_self_eq_true, Bool.true_or, Bool.not_false, Bool.and_self, if_true]

theorem exec_fusionHang {rs : Fin 4} (run : u.running = true) (runs : u.rsRuns rs.val = true) (unheld : u.rc.fusionHeld = false) (free : u.rc.devReset = none)
    (past : u.instant rs.val (u.fuSet rs.val).k + u.get (F.FU_RS_H rs.val) + u.get F.RC_HANG_MS * 1000000 ≤ u.now) :
    exec (.fusionHang dt rs) s = ran (((u.incSat F.RC_HANGS).raise 0x180).devTrigger 1 none true) := by
  change execFusionHang _ _ _ = _
  simp only [execFusionHang, ← hu, run, runs, unheld, free, decide_eq_true past, Option.isNone_none, Bool.not_false, Bool.and_self, if_true]

theorem exec_ctxDrain {ctx : Fin 64} {x : CtxReset} (reset : u.ctxReset? ctx.val = some x) (draining : u.get (F.RC_CTX_STAT_STATE ctx.val) = 1) (past : x.start + 100000 ≤ u.now) :
    exec (.contextDrainTimeout dt ctx) s = ran (((u.answerErrors ctx.val).ctxRemove ctx.val).parkCheck) := by
  change execContextDrainTimeout _ _ _ = _
  simp only [execContextDrainTimeout, ← hu, reset, draining, decide_eq_true past, beq_self_eq_true, Bool.and_self, if_true]

theorem exec_ctxWindow {ctx : Fin 64} {x : CtxReset} (reset : u.ctxReset? ctx.val = some x) (past : x.start + u.get F.RC_CTX_WINDOW * 1000 ≤ u.now) (settled : x.settled = true)
    (draining : u.get (F.RC_CTX_STAT_STATE ctx.val) = 1) (alone : u.covered ctx.val = false) :
    exec (.contextWindowExpiry dt ctx) s = ran ((u.escalate ctx.val).parkCheck) := by
  change execContextWindowExpiry _ _ _ = _
  simp only [execContextWindowExpiry, ← hu, reset, past, settled, windowRecord_settled, draining, alone, beq_self_eq_true, Bool.not_false, Bool.and_self, if_true]

theorem exec_ctxRequest {v : Word} (run : u.running = true) (clean : cleanWrite F.RC_CTX_REQ_CTX.addr v = true) (go : bitOf v.toNat 31 = true) (c : Fin 8) :
    exec (.contextResetRequest dt c v) s = ran ((u.ctxTriggerOf (bitsOf v.toNat 0 6) 7 0).parkCheck) := by
  refine (store_runs hu run (by decide) clean c.val _).trans ?_
  simp only [State.ctxRequest, go, if_true]

theorem exec_partRequest {v : Word} (run : u.running = true) (clean : cleanWrite F.RC_PART_REQ_PART.addr v = true) (go : bitOf v.toNat 31 = true) (part : bitsOf v.toNat 0 4 < 12)
    (tiles : u.tilesOfPart (bitsOf v.toNat 0 4) ≠ []) (c : Fin 8) : exec (.partitionResetRequest dt c v) s = ran ((u.partTrigger (bitsOf v.toNat 0 4) 7).parkCheck) := by
  have some_ : (u.tilesOfPart (bitsOf v.toNat 0 4)).isEmpty = false := by simpa using tiles
  refine (store_runs hu run (by decide) clean c.val _).trans ?_
  simp only [State.partRequest, go, decide_eq_true part, some_, Bool.not_false, Bool.and_self, if_true]

theorem exec_partComplete {p : Fin 12} {x : PartReset} (reset : u.partReset? p.val = some x) (cleared : x.cleared = true) :
    exec (.partitionResetComplete dt p) s = ran (((u.putPartReset { x with ready := true }).tryPartDone p.val).parkCheck) := by
  change execPartitionResetComplete _ _ _ = _
  simp only [execPartitionResetComplete, ← hu, reset, cleared, if_true]

theorem exec_partWindow {p : Fin 12} {x : PartReset} (reset : u.partReset? p.val = some x) (settled : x.settled = true) (past : x.start + u.get F.RC_PART_WINDOW * 1000000 ≤ u.now) :
    exec (.partitionWindowExpiry dt p) s = ran ((u.devTrigger 8 (some p.val) false).parkCheck) := by
  change execPartitionWindowExpiry _ _ _ = _
  simp only [execPartitionWindowExpiry, ← hu, reset, past, settled, windowRecord_settled, Option.isSome_some, if_true]

theorem exec_jobAbort {sender : Fin 8} {resume : Word} (run : u.running = true) (job : u.inJob = true) (stays : resume.toNat ≠ jobLeave) (level : Fin 3) :
    exec (.jobAbortReceive dt sender level resume) s =
      ran (((((u.incSat F.RC_JOB_ABORTS_RECEIVED).raise 0x189).keepResume resume.toNat).resetJob 5 (sender.val + 256 * resume.toNat)).parkCheck) := by
  change execJobAbortReceive dt sender level resume s = _
  simp only [execJobAbortReceive, State.abortReceived, ← hu, run, job, beq_iff_eq, stays, Bool.and_self, if_true, if_false]

theorem exec_backstop {rank : Fin 8} (due : u.backstopDue rank.val = true) : exec (.backstopTimeout dt rank) s =
    ran ((((((u.incSat F.RC_BACKSTOPS).raise 0x18A).rankLeft rank.val).resetJob 6 (rank.val + 256 * jobLeave)).sendAbort 0 jobLeave rank.val).parkCheck) := by
  change execBackstopTimeout _ _ _ = _
  simp only [execBackstopTimeout, ← hu, due, if_true]

end

/-- Settles O21: the recovery commands one by one. -/
theorem recoveryCommandsComplete : Obligations.RecoveryCommandsComplete := by
  unfold Obligations.RecoveryCommandsComplete
  intro dt s u hu
  refine ⟨fun eng q i => exec_queueHang hu, fun rs => exec_fusionHang hu, fun ctx x => exec_ctxDrain hu, fun ctx x reset past => exec_ctxWindow hu reset past,
    fun c v run clean go => exec_ctxRequest hu run clean go c, fun c v run clean go part tiles => exec_partRequest hu run clean go part tiles c, fun p x => exec_partComplete hu,
    fun p x => exec_partWindow hu, fun c v j run clean job => ?_, fun sender level resume run job stays => exec_jobAbort hu run job stays level, fun rank => exec_backstop hu⟩
  exact store_runs hu run (by decide) clean c.val _

end Sys2Proof.Proofs
end

section
/-! The boot, minimal-mode, NVM and attestation commands complete (O22). -/

namespace Sys2Proof.Proofs

open Sys2Proof Sys2Proof.Machine Sys2Proof.Laws

/-- Boot's own state is not touched by an NVM violation's record. -/
theorem bt_nvmViolation (s : State) (code : Nat) (d : Bytes) : (s.nvmViolation code d).bt = s.bt := by
  have light : s.light (s.nvmViolation code d) [ringBlock 0x18, 0xC] := s.light_violation code d (by decide) (by decide) (by decide)
  exact (congrArg (fun t : State => t.bt) light.2 :)

section
variable {dt : Nat} {s u : State} (hu : u = s.elapse dt)
include hu

theorem exec_resetRelease (free : u.rc.devReset = none) (held : u.bt.inReset = true) (b : BootInputs) : exec (.powerOnResetRelease dt b) s = ran (u.bootAttempt b false) := by
  have undue : u.resetDue = false := by rw [State.resetDue, free]
  change execPowerOnResetRelease _ _ _ = _
  simp only [execPowerOnResetRelease, ← hu, undue, held, Bool.false_eq_true, if_false, if_true]

theorem exec_porst_long {lowNs : Nat} (long : 10000 ≤ lowNs) : exec (.porstAssert dt lowNs) s = ran u.lovageReset := by
  change execPorstAssert _ _ _ = _
  simp only [execPorstAssert, ← hu, long, if_true]

theorem exec_porst_short {lowNs : Nat} (short : lowNs < 1000) : exec (.porstAssert dt lowNs) s = ran u := by
  have brief : ¬ 10000 ≤ lowNs := by omega
  change execPorstAssert _ _ _ = _
  simp only [execPorstAssert, ← hu, brief, short, if_false, if_true]

theorem exec_bootWatchdog (booting : u.bt.step ≠ 0) (past : u.bt.start + u.watchdogMs * 1000000 ≤ u.thy.counter) : exec (.bootWatchdogExpiry dt) s = ran (u.bootFail 0x08 u.bt.step 0) := by
  have booting' : (u.bt.step != 0) = true := by simpa using booting
  change execBootWatchdogExpiry _ _ = _
  simp only [execBootWatchdogExpiry, ← hu, booting', decide_eq_true past, Bool.and_self, if_true]

theorem exec_sfdpTimeout (step : u.bt.step = 1) (fresh : u.bt.resuming = false) (past : u.bt.start + 10000000 ≤ u.thy.counter) :
    exec (.sfdpTimeout dt) s = ran ((u.nvmViolation 0x7A [0]).bootFail 0x01 1 0) := by
  change execSfdpTimeout _ _ = _
  simp only [execSfdpTimeout, ← hu, step, fresh, decide_eq_true past, beq_self_eq_true, Bool.not_false, Bool.and_self, if_true]

theorem exec_nvmTimeout_step1 (step : u.bt.step = 1) (fresh : u.bt.resuming = false) (addr : BitVec 29) :
    exec (.nvmReadTimeout dt addr) s = ran ((u.nvmViolation 0x78 (leBytes 4 addr.toNat)).bootFail 0x02 1 0) := by
  have reading : u.nvmReading = true := by rw [State.nvmReading, step, fresh]; rfl
  have step' : (u.nvmViolation 0x78 (leBytes 4 addr.toNat)).bt.step = 1 := by rw [bt_nvmViolation, step]
  change execNvmReadTimeout _ _ _ = _
  simp only [execNvmReadTimeout, ← hu, reading, State.readEnds, step', beq_self_eq_true, if_true]

theorem exec_retryHold {c : Nat} (hold : u.bt.hold = some c) (past : c + 100000000 ≤ u.thy.counter) : exec (.bootRetryHoldExpiry dt) s = ran u.deviceReset := by
  change execBootRetryHoldExpiry _ _ = _
  simp only [execBootRetryHoldExpiry, ← hu, hold, past, if_true]

/-- In minimal mode a command with the right key executes while none is in progress. -/
theorem minCommand_runs (minimal : u.minimal = true) (idle : u.flag F.BT_MIN_STAT_BUSY = false) (f : State → State) : ran ((s.elapse dt).minCommand 0x6D4E f) = ran (f u) := by
  simp only [State.minCommand, ← hu, minimal, idle, bne_self_eq_false, Bool.not_true, Bool.or_self, Bool.false_eq_true, if_false]

omit hu in
theorem nonceWrite_last (idle : u.flag F.BT_ATT_STAT_BUSY = false) (v : Word) :
    u.nonceWrite 3 v = ((((u.setBt (fun b => { b with nonce := patchB b.nonce 12 (leBytes 4 v.toNat) })).setFlag F.BT_ATT_STAT_BUSY true).setFlag F.BT_ATT_STAT_DONE false).writeWords
      (F.BT_ATT_REPORT 0).addr (List.replicate 40 0)).hostOk := by
  simp only [State.nonceWrite, idle, Bool.false_eq_true, if_false, beq_self_eq_true, if_true]

theorem exec_attestationDone (run : u.running = true) (busy : u.flag F.BT_ATT_STAT_BUSY = true) :
    exec (.attestationDone dt) s = ran ((((((u.incWrap F.BT_ATT_STAT_COUNT).nextFree).writeWords (F.BT_ATT_REPORT 0).addr (wordsOf 40 ((u.incWrap F.BT_ATT_STAT_COUNT).reportBody ++
      (List.range 64).map (Config.attestSign u.freeCtr (u.incWrap F.BT_ATT_STAT_COUNT).reportBody)))).setFlag F.BT_ATT_STAT_BUSY false).setFlag F.BT_ATT_STAT_DONE true).raise 0x199) := by
  have ctr : (u.incWrap F.BT_ATT_STAT_COUNT).freeCtr = u.freeCtr := rfl
  change execAttestationDone _ _ = _
  simp only [execAttestationDone, ← hu, run, busy, ctr, Bool.and_self, if_true]

end

/-- Settles O22: minimal mode's commands by `minCommand_runs`, the others one by one. -/
theorem bootCommandsComplete : Obligations.BootCommandsComplete := by
  unfold Obligations.BootCommandsComplete
  intro dt s u hu
  refine ⟨fun b free held => exec_resetRelease hu free held b, fun lowNs => exec_porst_long hu, fun lowNs => exec_porst_short hu, exec_bootWatchdog hu, fun booting => ?_, exec_sfdpTimeout hu,
    fun addr step fresh => exec_nvmTimeout_step1 hu step fresh addr, fun c => exec_retryHold hu, fun minimal idle => ⟨?_, ?_, ?_, ?_⟩, fun op a data status job => ?_,
    fun nonce reach locked idle => ?_, exec_attestationDone hu⟩
  · subst hu; exact exec_bootSupplyFault booting
  · exact minCommand_runs hu minimal idle (fun s => s.flashBegin 1)
  · exact minCommand_runs hu minimal idle (fun s => s.flashBegin 2)
  · exact minCommand_runs hu minimal idle (fun s => s.flashBegin 3)
  · exact minCommand_runs hu minimal idle State.minRetry
  · subst hu; exact exec_nvmComplete status job
  · subst hu
    exact (congrArg ran (State.hostWrite_run reach locked _ _)).trans (congrArg ran (nonceWrite_last idle nonce))

end Sys2Proof.Proofs
end

section
/-! The power, alarm, wake and clock commands complete (O23). -/

namespace Sys2Proof.Proofs

open Sys2Proof Sys2Proof.Machine Sys2Proof.Laws

section
variable {dt : Nat} {s u : State} (hu : u = s.elapse dt)
include hu

omit hu in
/-- The host's park request with the key, the go bit and no park under way is accepted and answered (R368). -/
theorem parkWrite_host {v : Word} (key : bitsOf v.toNat 16 16 = 0x504B) (go : bitOf v.toNat 0 = true) (idle : u.parking = false) :
    u.parkWrite .host v = ((u.setPw (fun p => { p with waiting := some (bitOf v.toNat 1) })).hostOk).parkCheck := by
  simp only [State.parkWrite, key, go, idle, bne_self_eq_false, Bool.not_true, Bool.or_self, Bool.false_eq_true, if_false]

omit hu in
/-- A core's park request with the key, the go bit and no park under way is accepted (R368). -/
theorem parkWrite_core {v : Word} (key : bitsOf v.toNat 16 16 = 0x504B) (go : bitOf v.toNat 0 = true) (idle : u.parking = false) (c : Fin 8) :
    u.parkWrite (.core c) v = (u.setPw (fun p => { p with waiting := some (bitOf v.toNat 1) })).parkCheck := by
  simp only [State.parkWrite, key, go, idle, bne_self_eq_false, Bool.not_true, Bool.or_self, Bool.false_eq_true, if_false]

theorem exec_parkRequest_host {v : Word} (reach : u.hostReaches) (locked : u.locked = true) (clean : cleanWrite F.PW_PARK_REQ_GO.addr v = true)
    (key : bitsOf v.toNat 16 16 = 0x504B) (go : bitOf v.toNat 0 = true) (idle : u.parking = false) :
    exec (.parkRequest dt .host v) s = ran (((u.setPw (fun p => { p with waiting := some (bitOf v.toNat 1) })).hostOk).parkCheck) := by
  change execParkRequest dt .host v s = _
  simp only [execParkRequest, ← hu, State.hostWrite_run reach locked, State.hostPark, clean, parkWrite_host key go idle, if_true]

theorem exec_parkRequest_core {c : Fin 8} {v : Word} (run : u.running = true) (clean : cleanWrite F.PW_PARK_REQ_GO.addr v = true)
    (key : bitsOf v.toNat 16 16 = 0x504B) (go : bitOf v.toNat 0 = true) (idle : u.parking = false) :
    exec (.parkRequest dt (.core c) v) s = ran ((u.setPw (fun p => { p with waiting := some (bitOf v.toNat 1) })).parkCheck) := by
  have may : coreMayWrite F.PW_PARK_REQ_GO.addr = true := by decide
  change execParkRequest dt (.core c) v s = _
  simp only [execParkRequest, ← hu, State.coreWrite_run run may clean, parkWrite_core key go idle]

theorem exec_parkDrainLimit (parking : u.parking = true) (left : u.cl.insts ≠ []) (past : u.pw.parkAt + u.get F.PW_DRAIN * 1000000 ≤ u.now) :
    exec (.parkDrainLimit dt) s = ran (u.parkRemove).parkCheck := by
  have left' : u.cl.insts.isEmpty = false := by simpa using left
  change execParkDrainLimit _ _ = _
  simp only [execParkDrainLimit, ← hu, parking, left', decide_eq_true past, Bool.false_and, Bool.not_false, Bool.and_self, if_true]

theorem exec_alarmArm {c : Fin 8} {a : Fin 4} {hi : Word} (run : u.running = true) : exec (.alarmArm dt c a hi) s = ran (u.alarmWrite a.val hi) :=
  store_runs hu run (coreMay_alarmHi a) (cleanWrite_all (writable_alarmHi a) hi) c _

omit hu in
/-- An alarm's store arms it, and it is late when its time lies before device time (R366). -/
theorem alarmWrite_late (a : Nat) (hi : Word) :
    u.alarmWrite a hi = State.setPw ((u.set (F.PW_ALARM_HI a) hi.toNat).setFlag (F.PW_ALARM_STAT_ARMED a) true)
      (fun p => { p with late := if ((u.set (F.PW_ALARM_HI a) hi.toNat).setFlag (F.PW_ALARM_STAT_ARMED a) true).get64 (F.PW_ALARM_LO a) (F.PW_ALARM_HI a) < u.cycleNow then a :: p.late else p.late.filter (fun x => x != a) }) := by
  have now : ((u.set (F.PW_ALARM_HI a) hi.toNat).setFlag (F.PW_ALARM_STAT_ARMED a) true).cycleNow = u.cycleNow := rfl
  simp only [State.alarmWrite, now, decide_eq_true_eq]

/-- An armed alarm whose time has come by passing time, and not by a step, fires (R366). -/
theorem exec_alarmFire {a : Fin 4} {b : BootInputs} (armed : u.flag (F.PW_ALARM_STAT_ARMED a.val) = true) (awake : u.parked = false) (run : u.running = true)
    (past : u.get64 (F.PW_ALARM_LO a.val) (F.PW_ALARM_HI a.val) ≤ u.cycleNow)
    (met : u.passedByStep (u.get64 (F.PW_ALARM_LO a.val) (F.PW_ALARM_HI a.val)) = false) :
    exec (.alarmFire dt a b) s = ran (((u.alarmDone a.val).raise (0x20 + a.val)).latchEdge (0x20 + a.val) (!(u.alarmDone a.val).latchFalls (0x20 + a.val)) b) := by
  have met' : (u.alarmDone a.val).passedByStep (u.get64 (F.PW_ALARM_LO a.val) (F.PW_ALARM_HI a.val)) = false := met
  change execAlarmFire _ _ _ _ = _
  simp only [execAlarmFire, ← hu, armed, awake, run, decide_eq_true past, met', Bool.not_true, Bool.and_self, Bool.false_and, Bool.false_eq_true, if_false, if_true]

theorem exec_comparatorChange {c : Fin 4} {high : Bool} (b : BootInputs) (on : u.flag (F.PW_CMP_CFG_EN c.val) = true) (moves : u.flag (F.PW_CMP_STAT_LEVEL c.val) ≠ high)
    (awake : ((u.setFlag (F.PW_CMP_STAT_LEVEL c.val) high).incSat (F.PW_CMP_STAT_CROSSINGS c.val)).parked = false) :
    exec (.comparatorOutputChange dt c high b) s =
      ran ((((u.setFlag (F.PW_CMP_STAT_LEVEL c.val) high).incSat (F.PW_CMP_STAT_CROSSINGS c.val)).statusSource (0x1C + c.val) high).latchEdge (0x1C + c.val) high b) := by
  have moves' : (u.flag (F.PW_CMP_STAT_LEVEL c.val) == high) = false := by simpa using moves
  change execComparatorOutputChange _ _ _ _ _ = _
  simp only [execComparatorOutputChange, ← hu, on, moves', awake, Bool.not_true, Bool.or_self, Bool.false_eq_true, if_false]

theorem exec_wakeLatchEdge {src : Fin 64} {rising : Bool} (b : BootInputs) (parking : u.parking = true) (edge : u.latchFalls src.val ≠ rising) (sleeps : u.latchWakes src.val = false) :
    exec (.wakeLatchEdge dt src rising b) s = ran { u with ev := { u.ev with latches := putBit u.ev.latches src.val true } } := by
  have edge' : (u.latchFalls src.val == rising) = false := by simpa using edge
  have sleeps' : State.latchWakes { u with ev := { u.ev with latches := putBit u.ev.latches src.val true } } src.val = false := sleeps
  change execWakeLatchEdge _ _ _ _ _ = _
  simp only [execWakeLatchEdge, ← hu, State.latchEdge, parking, edge', sleeps', Bool.true_or, Bool.not_true, Bool.or_self, Bool.not_false, Bool.false_eq_true, if_false, if_true]

/-- The record names the reference's island, 157 in the numbering of log entry 53, and its limit (R313). -/
theorem exec_referenceLoss (present : u.thy.refPresent = true) (awake : u.parked = false) (run : u.running = true) :
    exec (.referenceLoss dt) s = ran (State.fatal { u with thy := { u.thy with refPresent := false } } { SafetyRec.of 0x30 2 with object := 157, limit := 25000 }) := by
  have awake' : State.parked { u with thy := { u.thy with refPresent := false } } = false := awake
  have run' : State.running { u with thy := { u.thy with refPresent := false } } = true := run
  change execReferenceLoss _ _ = _
  simp only [execReferenceLoss, ← hu, present, awake', run', Bool.not_true, Bool.false_eq_true, if_false, if_true]

theorem exec_referenceRestored : exec (.referenceRestored dt) s = ran { u with thy := { u.thy with refPresent := true } } := by
  change execReferenceRestored _ _ = _
  simp only [execReferenceRestored, ← hu]

omit hu in
/-- Whether the part runs does not hang on a PLL's lock, its losses or the source they raise. -/
theorem running_pllLoss (n : Nat) : (((u.set F.PW_PLL_STAT_LOCK n).incSat F.PW_PLL_STAT_LOSSES).raise 0x1A5).running = u.running := by
  have counted : (((u.set F.PW_PLL_STAT_LOCK n).incSat F.PW_PLL_STAT_LOSSES).get F.GLB_STATUS_RUN) = u.get F.GLB_STATUS_RUN := by
    rw [State.incSat, State.addSat, State.get_set_other _ _ _ _ (by decide), State.get_set_other _ _ _ _ (by decide)]
  have raised := get_frame (((u.set F.PW_PLL_STAT_LOCK n).incSat F.PW_PLL_STAT_LOSSES).light_raise (src := 0x1A5) (by decide) (bs := [0xC]) (by decide)) F.GLB_STATUS_RUN (by decide)
  simp only [State.running, State.flag, raised, counted]

theorem exec_pllLockLoss {n : Fin 6} (lock : bitOf (u.get F.PW_PLL_STAT_LOCK) n.val = true) (stopped : u.running = false) :
    exec (.pllLockLoss dt n) s = ran (((u.set F.PW_PLL_STAT_LOCK (putBit (u.get F.PW_PLL_STAT_LOCK) n.val false)).incSat F.PW_PLL_STAT_LOSSES).raise 0x1A5) := by
  change execPllLockLoss _ _ _ = _
  simp only [execPllLockLoss, ← hu, lock, running_pllLoss, stopped, Bool.not_true, Bool.false_eq_true, if_false]

end

/-- Settles O23: under its condition each command of the power block has its effect; the island's number in the reference's record is log entry 53's choice (R313). -/
theorem powerCommandsComplete : Obligations.PowerCommandsComplete := by
  unfold Obligations.PowerCommandsComplete
  intro dt s u hu
  refine ⟨fun _ => exec_parkRequest_host hu, fun _ _ => exec_parkRequest_core hu, exec_parkDrainLimit hu, fun _ a hi run => (exec_alarmArm hu run).trans (congrArg ran (alarmWrite_late a.val hi)), fun _ _ => exec_alarmFire hu,
    fun _ _ b on moves _ => exec_comparatorChange hu b on moves, fun _ _ b parking _ => exec_wakeLatchEdge hu b parking, exec_referenceLoss hu, exec_referenceRestored hu, fun _ => exec_pllLockLoss hu⟩

end Sys2Proof.Proofs
end

section
/-! Host-port transactions with a right CRC complete (O24). -/

namespace Sys2Proof.Proofs

open Sys2Proof Sys2Proof.Machine Sys2Proof.Laws

/-- A transaction that reaches the port with a right CRC and no reading open is what its opcode does (R376). -/
theorem hostTxn_runs {u : State} (reach : u.hostReaches) (closed : u.hp.reading = none) {opcode a n : Nat} {data : Bytes} {crc : BitVec 16}
    (right : crc.toNat = hostCrc opcode a data) (f : State → State) : u.hostTxn opcode a n data crc f = f u := by
  obtain ⟨powered, -, -⟩ := reach
  simp only [State.hostTxn, powered, endHostRead_closed closed, right, beq_self_eq_true, Bool.false_eq_true, if_false, if_true]

/-- An aligned read inside one block answers the registers' words (R377). -/
theorem hostRead_blocks {u : State} (reach : u.hostReaches) {a n : Nat} (aligned : a % 4 = 0) (inside : a < 0x150000) (fits : a % 0x10000 + n ≤ 0x10000) (opcode : Nat) (met : WindowMet) :
    u.hostRead opcode a n met = (u.hostWords a (n / 4)).1.hostReply opcode 0 0 (u.hostWords a (n / 4)).2 := by
  obtain ⟨-, awake, full⟩ := reach
  have low : ¬ 0x80000000 ≤ a := by omega
  have within : ¬ 0x10000 < a % 0x10000 + n := by omega
  have may : (List.range (n / 4)).all (fun i => u.hostMayRead (a + 4 * i)) = true := by
    simp only [State.hostMayRead, full, awake, Bool.not_false, Bool.true_or, Bool.and_self, List.all_eq_true, implies_true]
  simp only [State.hostRead, low, may, aligned, inBlocks, decide_eq_true inside, decide_eq_false within, bne_self_eq_false, Bool.not_true, Bool.or_self, Bool.false_eq_true, if_false]

/-- A read of DRAM that meets no fault answers its bytes (R379, R383). -/
theorem hostDram_clean {u : State} {da n : Nat} {met : WindowMet} (quiet : met.notes = []) (sound : met.ue = none) (whole : ∀ i < n, u.faultyDram (da + i) 1 = none) (opcode tag : Nat) :
    u.hostDram opcode da n tag met = u.hostReply opcode 0 tag (u.dramRead da n) := by
  have none_faulty : (List.range n).find? (fun i => (u.faultyDram (da + i) 1).isSome) = none := by
    simp only [List.find?_eq_none, List.mem_range, Bool.not_eq_true, Option.isSome_eq_false_iff, Option.isNone_iff_eq_none]
    exact whole
  simp only [State.hostDram, quiet, List.foldl_nil, sound, none_faulty, Option.orElse_eq_orElse, Option.orElse_eq_or, Option.or_none]

/-- An aligned read of the DRAM window with every byte mapped reads the window's bytes (R379). -/
theorem windowRead_mapped {u : State} (reach : u.hostReaches) {a n : Nat} (aligned : a % 4 = 0) (top : a + n ≤ 2 ^ 32)
    (mapped : ∀ i < n, (u.toLocal (u.get F.HP_WIN_BASE * 2 ^ 31 + (a - 0x80000000) + i)).isSome = true) (opcode : Nat) (met : WindowMet) :
    u.windowRead opcode a n met = u.hostDram opcode (u.get F.HP_WIN_BASE * 2 ^ 31 + (a - 0x80000000)) n 0 met := by
  obtain ⟨-, awake, full⟩ := reach
  have within : ¬ 2 ^ 32 < a + n := by omega
  have all : (List.range n).all (fun i => (u.toLocal (u.get F.HP_WIN_BASE * 2 ^ 31 + (a - 0x80000000) + i)).isSome) = true := by
    simpa only [List.all_eq_true, List.mem_range] using mapped
  simp only [State.windowRead, full, awake, aligned, all, decide_eq_false within, bne_self_eq_false, Bool.not_true, Bool.or_self, Bool.false_eq_true, if_false]

/-- No ring's address lies among the registers' blocks. -/
theorem ringOf_blocks {a : Nat} (inside : a < 0x150000) : ringOf a = none := by
  simp only [ringOf, List.find?_eq_none, List.mem_range, within, Bool.and_eq_true, decide_eq_true_eq]
  omega

/-- A host's store in the blocks goes to its HW register after lock, and is refused elsewhere (R378, R346). -/
theorem hostStore_blocks {u : State} (reach : u.hostReaches) {a : Nat} (aligned : a % 4 = 0) (inside : a < 0x150000) (v : Word) :
    u.hostStore a v = if u.locked && hostMayWrite a then u.hwWrite a v else u.hostLocked a := by
  obtain ⟨-, awake, full⟩ := reach
  have low : ¬ 0x80000000 ≤ a := by omega
  simp only [State.hostStore, full, awake, low, ringOf_blocks inside, aligned, inBlocks, decide_eq_true inside, Option.isSome_none, decide_false, bne_self_eq_false, Bool.not_true, Bool.or_self,
    Bool.false_eq_true, if_false]

/-- A read of a full slot, inside its area, opens the slot and reads its bytes (R383). -/
theorem slotRead_full {u : State} (reach : u.hostReaches) {a n rs z i sn da : Nat} (ring : ringOf a = some rs) (size : z = u.get (F.HP_RING_CFG_SLOT_4K rs) * 4096)
    (index : i = (a - (0x01000000 + rs * 0x10000000)) / z) (aligned : a % 4 = 0) (sized : z ≠ 0) (slot : i < u.get (F.HP_RING_CFG_SLOTS rs))
    (fits : (a - (0x01000000 + rs * 0x10000000)) % z + n ≤ z) (seqNo : u.slotSeq rs i = some sn) (addr : u.slotAddr rs i = some da) (opcode : Nat) (met : WindowMet) :
    u.slotRead opcode a n met = State.hostDram { u with hp := { u.hp with reading := some (rs, i) } } opcode (da + (a - (0x01000000 + rs * 0x10000000)) % z) n sn met := by
  obtain ⟨-, awake, full⟩ := reach
  have sized' : (z == 0) = false := by simpa using sized
  simp only [State.slotRead, full, awake, ring, ← size, ← index, aligned, sized', decide_eq_false (not_le.mpr slot), decide_eq_false (not_lt.mpr fits), seqNo, addr, bne_self_eq_false, Bool.or_self,
    Bool.false_eq_true, if_false]

section
variable {dt : Nat} {s u : State} (hu : u = s.elapse dt)
include hu

/-- A register read inside the blocks answers the registers' words. -/
theorem readTxn_blocks (reach : u.hostReaches) (closed : u.hp.reading = none) {opcode a n : Nat} {crc : BitVec 16} (right : crc.toNat = hostCrc opcode a [])
    (aligned : a % 4 = 0) (inside : a < 0x150000) (fits : a % 0x10000 + n ≤ 0x10000) (met : WindowMet) :
    ran ((s.elapse dt).hostTxn opcode a n [] crc (fun s => s.hostRead opcode a n met)) = ran ((u.hostWords a (n / 4)).1.hostReply opcode 0 0 (u.hostWords a (n / 4)).2) := by
  rw [← hu, hostTxn_runs reach closed right, hostRead_blocks reach aligned inside fits]

theorem exec_rd4_window (reach : u.hostReaches) (closed : u.hp.reading = none) {addr : Word} {crc : BitVec 16} {met : WindowMet} (high : 0x80000000 ≤ addr.toNat) (aligned : addr.toNat % 4 = 0)
    (mapped : ∀ i < 4, (u.toLocal (u.get F.HP_WIN_BASE * 2 ^ 31 + (addr.toNat - 0x80000000) + i)).isSome = true) (quiet : met.notes = []) (sound : met.ue = none)
    (whole : ∀ i < 4, u.faultyDram (u.get F.HP_WIN_BASE * 2 ^ 31 + (addr.toNat - 0x80000000) + i) 1 = none) (right : crc.toNat = hostCrc 0x0B addr.toNat []) :
    exec (.rd4 dt addr crc met) s = ran (u.hostReply 0x0B 0 0 (u.dramRead (u.get F.HP_WIN_BASE * 2 ^ 31 + (addr.toNat - 0x80000000)) 4)) := by
  have top : addr.toNat + 4 ≤ 2 ^ 32 := by have := addr.isLt; omega
  change execRd4 _ _ _ _ _ = _
  simp only [execRd4, ← hu, hostTxn_runs reach closed right, State.hostRead, high, windowRead_mapped reach aligned top mapped, hostDram_clean quiet sound whole, if_true]

theorem exec_wr4 (reach : u.hostReaches) (closed : u.hp.reading = none) {addr v : Word} {crc : BitVec 16} (right : crc.toNat = hostCrc 0x02 addr.toNat (leBytes 4 v.toNat))
    (aligned : addr.toNat % 4 = 0) (inside : addr.toNat < 0x150000) :
    exec (.wr4 dt addr v crc) s = ran (if u.locked && hostMayWrite addr.toNat then u.hwWrite addr.toNat v else u.hostLocked addr.toNat) := by
  change execWr4 _ _ _ _ _ = _
  simp only [execWr4, ← hu, hostTxn_runs reach closed (opcode := opcodeWr4) right, hostStore_blocks reach aligned inside]

theorem exec_setwin (reach : u.hostReaches) (closed : u.hp.reading = none) {addr : Word} {crc : BitVec 16} (window : addr.toNat < 512) (right : crc.toNat = hostCrc 0x10 addr.toNat []) :
    exec (.setwin dt addr crc) s = ran ((u.set F.HP_WIN_BASE addr.toNat).hostReply 0x10 0 0 []) := by
  change execSetwin _ _ _ _ = _
  simp only [execSetwin, ← hu, hostTxn_runs reach closed right, reach.2.2, not_le.mpr window, Bool.false_eq_true, if_false]

/-- A read of a full slot that meets no fault answers its bytes under the slot's number. -/
theorem slotTxn_full (reach : u.hostReaches) (closed : u.hp.reading = none) {opcode a n rs z i sn da : Nat} {crc : BitVec 16} {met : WindowMet} (right : crc.toNat = hostCrc opcode a [])
    (ring : ringOf a = some rs) (size : z = u.get (F.HP_RING_CFG_SLOT_4K rs) * 4096) (index : i = (a - (0x01000000 + rs * 0x10000000)) / z) (aligned : a % 4 = 0) (sized : z ≠ 0)
    (slot : i < u.get (F.HP_RING_CFG_SLOTS rs)) (seqNo : u.slotSeq rs i = some sn) (addr : u.slotAddr rs i = some da) (quiet : met.notes = []) (sound : met.ue = none)
    (fits : (a - (0x01000000 + rs * 0x10000000)) % z + n ≤ z) (whole : ∀ j < n, u.faultyDram (da + (a - (0x01000000 + rs * 0x10000000)) % z + j) 1 = none) :
    ran ((s.elapse dt).hostTxn opcode a n [] crc (fun s => s.slotRead opcode a n met)) =
      ran (State.hostReply { u with hp := { u.hp with reading := some (rs, i) } } opcode 0 sn (u.dramRead (da + (a - (0x01000000 + rs * 0x10000000)) % z) n)) := by
  have whole' : ∀ j < n, State.faultyDram { u with hp := { u.hp with reading := some (rs, i) } } (da + (a - (0x01000000 + rs * 0x10000000)) % z + j) 1 = none := whole
  rw [← hu, hostTxn_runs reach closed right, slotRead_full reach ring size index aligned sized slot fits seqNo addr, hostDram_clean quiet sound whole']
  rfl

theorem exec_wreset (reach : u.hostReaches) (closed : u.hp.reading = none) {addr : Word} {crc : BitVec 16} (key : addr.toNat = 0x57525354) (run : u.running = true)
    (right : crc.toNat = hostCrc 0x99 addr.toNat []) : exec (.wreset dt addr crc) s = ran (((u.hostReply 0x99 0 0 []).raise 0x193).devTrigger 10 none false) := by
  have key' : (addr.toNat == wresetKey) = true := beq_iff_eq.mpr key
  change execWreset _ _ _ _ = _
  simp only [execWreset, ← hu, hostTxn_runs reach closed right, key', run, Bool.and_self, if_true]

theorem exec_unknownOpcode (reach : u.hostReaches) (closed : u.hp.reading = none) {op inv : Byte} (unknown : knownOpcode op = false ∨ inv ≠ ~~~op) :
    exec (.unknownOpcode dt op inv) s = ran ((u.violation 0x13 0x74 [op, inv]).hostReply op.toNat 0xC0 0 []) := by
  have unknown' : (knownOpcode op && inv == ~~~op) = false := by
    rcases unknown with no | other
    · rw [no, Bool.false_and]
    · rw [beq_eq_false_iff_ne.mpr other, Bool.and_false]
  change execUnknownOpcode _ _ _ _ = _
  simp only [execUnknownOpcode, ← hu, reach.1, unknown', endHostRead_closed closed, Bool.or_self, Bool.false_eq_true, if_false]

theorem exec_transactionCancel (reach : u.hostReaches) (closed : u.hp.reading = none) (op received : Byte) :
    exec (.transactionCancel dt op received) s = ran (u.violation 0x13 0x71 [op, received]) := by
  change execTransactionCancel _ _ _ _ = _
  simp only [execTransactionCancel, ← hu, reach.1, endHostRead_closed closed, Bool.false_eq_true, if_false]

theorem exec_resultRelease (reach : u.hostReaches) (closed : u.hp.reading = none) (locked : u.locked = true) {rs : Fin 4} {sn : Word}
    (slot : u.slotSeq rs.val (u.slotOf rs.val sn.toNat) = some sn.toNat) :
    exec (.hpResultRelease dt rs sn) s = ran (((u.emptySlot rs.val (u.slotOf rs.val sn.toNat)).set (F.HP_RESULT_RELEASE rs.val) sn.toNat).hostOk) := by
  change execHpResultRelease _ _ _ _ = _
  simp only [execHpResultRelease, ← hu, State.hostWrite_run reach locked, endHostRead_closed closed, State.releaseSlot, slot, beq_self_eq_true, if_true]

/-- The relock key arms the relock for one second while a refused jump is pending (R46). -/
theorem exec_relockArm (reach : u.hostReaches) (locked : u.locked = true) {v : Word} (key : v.toNat / 2 ^ 16 = 0xA5C3) (jump : v.toNat % 2 ^ 16 = u.get F.TB_JUMP_REFUSED_JUMP_ID)
    (pending : u.flag F.TB_JUMP_REFUSED_PENDING = true) (policy : u.get F.TB_CFG_POLICY = 2) :
    exec (.tbRelockArm dt v) s = ran ((u.setThy (fun t => { t with arm := some (u.now + 10 ^ 9) })).hostOk) := by
  change execTbRelockArm _ _ _ = _
  simp only [execTbRelockArm, ← hu, State.hostWrite_run reach locked, State.relockWrite, key, jump, pending, policy, beq_self_eq_true, Bool.and_self, if_true]

/-- The host's read of a fence's low word latches the fence for the host and answers the word (R266, R404). -/
theorem exec_fenceRead_host (reach : u.hostReaches) (f : Fin 4096) :
    exec (.clFenceLoRead dt .host f) s = ran ((u.latchFence 0 f.val).hostReply 0x0B 0 0 (leBytes 4 (u.readReg (F.CL_FENCE_LO f.val).addr).toNat)) :=
  hostRead_runs hu reach _ _

end

/-- Settles O24: under its condition each host-port command has its effect; the relock key is R46's and the latched read of a fence R266's and R404's. -/
theorem hostPortCommandsComplete : Obligations.HostPortCommandsComplete := by
  unfold Obligations.HostPortCommandsComplete
  intro dt s u addr crc met hu reach closed
  refine ⟨fun aligned inside right => readTxn_blocks hu reach closed right aligned inside (by omega) met,
    fun aligned inside right => readTxn_blocks hu reach closed right (by omega) inside (by omega) met,
    fun aligned inside right => readTxn_blocks hu reach closed right (by omega) inside (by omega) met,
    fun aligned inside right => readTxn_blocks hu reach closed right (by omega) inside (by omega) met,
    fun high aligned mapped quiet sound whole => exec_rd4_window hu reach closed high aligned mapped quiet sound whole, ?_, ?_,
    exec_setwin hu reach closed, fun rs i sn da z ring size index aligned sized slot seqNo da_eq quiet sound => ⟨?_, ?_⟩, exec_wreset hu reach closed, fun _ _ => exec_unknownOpcode hu reach closed,
    exec_transactionCancel hu reach closed, fun _ _ locked => exec_resultRelease hu reach closed locked, fun _ locked => exec_relockArm hu reach locked, exec_fenceRead_host hu reach⟩
  · intro v locked may inside aligned right
    have open_ : (u.locked && hostMayWrite addr.toNat) = true := by rw [locked, may, Bool.and_self]
    exact (exec_wr4 hu reach closed right aligned inside).trans (congrArg ran (if_pos open_))
  · intro v may inside aligned right
    have shut : ¬ (u.locked && hostMayWrite addr.toNat) = true := by simp only [may, Bool.and_false, Bool.false_eq_true, not_false_eq_true]
    exact (exec_wr4 hu reach closed right aligned inside).trans (congrArg ran (if_neg shut))
  · intro fits whole right
    exact slotTxn_full hu reach closed right ring size index aligned sized slot seqNo da_eq quiet sound fits whole
  · intro fits whole right
    exact slotTxn_full hu reach closed right ring size index aligned sized slot seqNo da_eq quiet sound fits whole

end Sys2Proof.Proofs
end

section
/-! The link, boundary-scan and core-store commands complete (O25). -/

namespace Sys2Proof.Proofs

open Sys2Proof Sys2Proof.Machine Sys2Proof.Laws

section
variable {dt : Nat} {s u : State} (hu : u = s.elapse dt)
include hu

theorem exec_flit_inSequence {link : Fin 4} {flit : Bytes} (up : u.linkUp link.val = true) (intact : flitIntact flit = true) (data : (flitOf flit).cls ≠ 3)
    (due : flitSeq flit = (u.link link.val).expect) : exec (.flitReceive dt link flit) s = ran ((u.acked link.val (flitAck flit)).inSequence link.val (flitOf flit)) := by
  change execFlitReceive _ _ _ _ = _
  simp only [execFlitReceive, ← hu, up, State.flitIn, intact, beq_eq_false_iff_ne.mpr data, due, bne_self_eq_false, Bool.not_true, Bool.false_eq_true, if_false, if_true]

theorem exec_flit_outOfSequence {link : Fin 4} {flit : Bytes} (up : u.linkUp link.val = true) (intact : flitIntact flit = true) (data : (flitOf flit).cls ≠ 3)
    (astray : flitSeq flit ≠ (u.link link.val).expect) : exec (.flitReceive dt link flit) s = ran (u.incSat (F.LK_L_OOS link.val)) := by
  change execFlitReceive _ _ _ _ = _
  simp only [execFlitReceive, ← hu, up, State.flitIn, intact, beq_eq_false_iff_ne.mpr data, bne_iff_ne.mpr astray, Bool.not_true, Bool.false_eq_true, if_false, if_true]

theorem exec_ackTimeout {link : Fin 4} {f : Nat × LinkFlit} {fs : List (Nat × LinkFlit)} (up : u.linkUp link.val = true) (unacked : (u.link link.val).unacked = f :: fs)
    (past : (u.link link.val).quiet + 10000 ≤ u.now) : exec (.ackTimeout dt link) s = ran (u.resend link.val f.1) := by
  have due : u.ackDue link.val = true := by simp only [State.ackDue, up, unacked, decide_eq_true past, List.isEmpty_cons, Bool.not_false, Bool.and_self]
  change execAckTimeout _ _ _ = _
  simp only [execAckTimeout, ← hu, due, State.resendAll, unacked, if_true]

theorem exec_peerLinkDown {link : Fin 4} (up : u.linkUp link.val = true) : exec (.linkDown dt link) s =
    ran (((((u.set (F.LK_L_STAT_STATE link.val) 1).incSat (F.LK_L_STAT_RETRAINS link.val)).raise 0x1A8).statusSource (0x2B + link.val) false).rerouteAborts link.val) := by
  change execLinkDown _ _ _ = _
  simp only [execLinkDown, ← hu, up, State.linkLost, if_true]

theorem exec_linkTrained_match {link : Fin 4} {rank size : Fin 8} {image : Word} (training : u.get (F.LK_L_STAT_STATE link.val) = 1) (rank_eq : rank.val = u.neighbour link.val)
    (size_eq : size.val = u.get F.LK_JOB_CFG_SIZE) (image_eq : image.toNat = u.imageId) : exec (.linkTrained dt link rank size image) s = ran (u.trained link.val) := by
  change execLinkTrained _ _ _ _ _ _ = _
  simp only [execLinkTrained, ← hu, training, rank_eq, size_eq, image_eq, beq_self_eq_true, Bool.and_self, if_true]

theorem exec_linkTrained_foreign {link : Fin 4} {rank size : Fin 8} {image : Word} (training : u.get (F.LK_L_STAT_STATE link.val) = 1) (foreign : image.toNat ≠ u.imageId) :
    exec (.linkTrained dt link rank size image) s = ran (u.heldDown link.val rank.val (size.val + 1) image.toNat) := by
  change execLinkTrained _ _ _ _ _ _ = _
  simp only [execLinkTrained, ← hu, training, beq_eq_false_iff_ne.mpr foreign, beq_self_eq_true, Bool.and_false, Bool.false_eq_true, if_false, if_true]

theorem exec_linkStartTimeout {t : Nat} (start : u.lk.startFrom = some t) (run : u.running = true) (job : u.inJob = true) (past : t + u.get F.LK_START_MS * 1000000 ≤ u.now) :
    exec (.linkStartTimeout dt) s = ran ((u.setLk (fun k => { k with startOver := true })).startJob) := by
  change execLinkStartTimeout _ _ = _
  simp only [execLinkStartTimeout, ← hu, start, run, job, decide_eq_true past, Bool.and_self, if_true]

theorem exec_coreStore_clean {c : Fin 8} {addr v : Word} (run : u.running = true) (known : mapped addr.toNat = true) (may : coreMayWrite addr.toNat = true) (clean : cleanWrite addr.toNat v = true) :
    exec (.controlCoreStore dt c addr v) s = ran (u.storeEffect c addr.toNat v) := by
  change execControlCoreStore _ _ _ _ _ = _
  simp only [execControlCoreStore, ← hu, known, State.coreWrite_run run may clean, if_true]

theorem exec_coreStore_refused {c : Fin 8} {addr v : Word} (run : u.running = true) (known : mapped addr.toNat = true) (bad : coreMayWrite addr.toNat = false ∨ cleanWrite addr.toNat v = false) :
    exec (.controlCoreStore dt c addr v) s = ran (u.refuseWrite addr.toNat (c.val + 1)) := by
  change execControlCoreStore _ _ _ _ _ = _
  simp only [execControlCoreStore, ← hu, known, State.coreWrite_refused run bad, if_true]

theorem exec_boundaryScan (code : JtagInstr) : exec (.boundaryScanInstruction dt code) s = ran { u with jt := ⟨u.jtagDecode code, jtagCapture (u.jtagDecode code)⟩ } := by
  change execBoundaryScanInstruction _ _ _ = _
  simp only [execBoundaryScanInstruction, ← hu]

end

/-- Settles O25: under its condition each command of the peer links, boundary scan and the control cores' stores has its effect. -/
theorem linkAndCoreCommandsComplete : Obligations.LinkAndCoreCommandsComplete := by
  unfold Obligations.LinkAndCoreCommandsComplete
  intro dt s u hu
  exact ⟨fun _ _ up => exec_flit_inSequence hu up, fun _ _ up => exec_flit_outOfSequence hu up, fun _ _ _ up => exec_ackTimeout hu up, fun _ => exec_peerLinkDown hu,
    fun _ _ _ _ training => ⟨exec_linkTrained_match hu training, exec_linkTrained_foreign hu training⟩, fun _ => exec_linkStartTimeout hu,
    fun _ _ _ run => exec_coreStore_clean hu run, fun _ _ _ run => exec_coreStore_refused hu run, exec_boundaryScan hu⟩

end Sys2Proof.Proofs
end

section
/-! What reset leaves (O51). -/

namespace Sys2Proof.Proofs

open Sys2Proof Sys2Proof.Machine Sys2Proof.Laws

/-- Nothing is listed in a memory at reset, so every memory is in canonical form. -/
theorem memoriesWf_reset : State.reset.memoriesWf = true := rfl

/-- The part leaves reset neither running, nor locked, nor in minimal mode. -/
theorem status_reset : State.reset.running = false ∧ State.reset.locked = false ∧ State.reset.minimal = false := by decide

/-- The fields read at reset what their registers' tables give. -/
theorem fields_reset : State.reset.get F.GLB_ID_STEPPING = 0x11 ∧ State.reset.get F.TB_CFG_START_TIMEOUT = 10 ∧ State.reset.get F.MJ_CAP_MW = 300000 ∧ State.reset.get F.SF_TJ_MAX = 105 ∧
    State.reset.get F.TL_CE_LIMIT = 8 := by decide

/-- Settles O51: the queue, the memories and the pins as the reset state lists them, the fields by the register table. That DRAM, SRAM and NVM hold nothing is the choice of log entries 7, 8 and 9. -/
theorem resetState : Obligations.ResetState := by
  obtain ⟨running, locked, minimal⟩ := status_reset
  exact ⟨rfl, memoriesWf_reset, rfl, rfl, rfl, rfl, rfl, rfl, rfl, running, locked, minimal, fields_reset⟩

end Sys2Proof.Proofs
end

section
/-! What the commands of tiles and of Tarragon leave, register by register (O26). -/

namespace Sys2Proof.Proofs

open Sys2Proof Sys2Proof.Machine Sys2Proof.Laws

/-! ### Counters -/

/-- A saturating count reads back as counted. -/
theorem get_incSat_same (s : State) (f : Field) (h : f.lo + f.width ≤ 32) : (s.incSat f).get f = satNat f.width (s.get f + 1) := by
  rw [State.incSat, State.addSat, State.get_set_same s f _ h, Nat.mod_eq_of_lt (satNat_lt _ _)]

/-- A count leaves the fields of every other register. -/
theorem get_incSat_other (s : State) {f g : Field} (h : g.addr ≠ f.addr) : (s.incSat f).get g = s.get g := State.get_set_other s f g _ h

theorem get_lt (s : State) (f : Field) : s.get f < 2 ^ f.width := by
  unfold State.get bitsOf
  exact Nat.mod_lt _ (Nat.two_pow_pos _)

/-! ### Operating points (R169) -/

/-- A tile that chooses anew writes no register. -/
theorem retarget_regs (s : State) (l : Nat) : (s.retarget l).regs = s.regs := by
  simp only [State.retarget]
  split
  · rfl
  · split <;> rfl

/-- A tile with no change under way begins one where its choice is another point. -/
theorem retarget_begins {s : State} {l : Nat} (free : s.tl.opChanges.find? (fun c => c.tile == l) = none) :
    (s.retarget l).tl.opChanges = if s.opChoice l = s.get (F.TL_T_STAT_OP l) then s.tl.opChanges else ⟨l, s.opChoice l, s.now⟩ :: s.tl.opChanges := by
  by_cases h : s.opChoice l = s.get (F.TL_T_STAT_OP l)
  · simp only [State.retarget, free, h, beq_self_eq_true, if_true]
  · simp only [State.retarget, free, beq_eq_false_iff_ne.mpr h, h, Bool.false_eq_true, if_false]

/-- A sample is held beside the point, which stays. -/
theorem temp_held (s : State) (l : Nat) (temp : BitVec 8) :
    (s.set (F.TL_T_STAT_TEMP l) temp.toNat).get (F.TL_T_STAT_TEMP l) = temp.toNat ∧ (s.set (F.TL_T_STAT_TEMP l) temp.toNat).get (F.TL_T_STAT_OP l) = s.get (F.TL_T_STAT_OP l) :=
  ⟨(s.get_set_same (F.TL_T_STAT_TEMP l) _ (by norm_num [F.TL_T_STAT_TEMP])).trans (Nat.mod_eq_of_lt temp.isLt),
    s.get_set_disjoint (F.TL_T_STAT_TEMP l) _ _ (by norm_num [F.TL_T_STAT_TEMP]) rfl (by norm_num [F.TL_T_STAT_TEMP, F.TL_T_STAT_OP])⟩

/-- A point set and counted reads back, and so does its count. -/
theorem point_counted (s : State) (l n : Nat) :
    ((s.set (F.TL_T_STAT_OP l) n).incWrap (F.TL_T_OPCHG l)).get (F.TL_T_STAT_OP l) = n % 8 ∧
      ((s.set (F.TL_T_STAT_OP l) n).incWrap (F.TL_T_OPCHG l)).get (F.TL_T_OPCHG l) = (s.get (F.TL_T_OPCHG l) + 1) % 2 ^ 32 := by
  have apart : (F.TL_T_STAT_OP l).addr ≠ (F.TL_T_OPCHG l).addr := by simp only [F.TL_T_STAT_OP, F.TL_T_OPCHG]; omega
  constructor
  · exact (State.get_set_other _ _ _ _ apart).trans (s.get_set_same (F.TL_T_STAT_OP l) n (by norm_num [F.TL_T_STAT_OP]))
  · refine (State.get_set_same _ (F.TL_T_OPCHG l) _ (by norm_num [F.TL_T_OPCHG])).trans ?_
    rw [State.get_set_other _ _ _ _ apart.symm]
    rfl

/-- A change that ends writes its point and its count and no other register, whatever the tile chooses next. -/
theorem endChange_regs (s : State) (c : OpChange) (settled : Bool) : (s.endChange c settled).regs =
    ((s.set (F.TL_T_STAT_OP c.tile) (if settled then c.target else min c.target (s.get (F.TL_T_STAT_OP c.tile)))).incWrap (F.TL_T_OPCHG c.tile)).regs := by
  cases settled
  · rfl
  · exact retarget_regs _ _

theorem tileTempSample_leaves {dt : Nat} {s u : State} (hu : u = s.elapse dt) (run : u.running = true) (tile : Fin 144) (temp : BitVec 8) (live : tile.val < u.tiles) :
    ∃ t, exec (.tileTempSample dt tile temp) s = .next t ∧ t.get (F.TL_T_STAT_TEMP tile.val) = temp.toNat ∧ t.get (F.TL_T_STAT_OP tile.val) = u.get (F.TL_T_STAT_OP tile.val) ∧
      ∀ op, op = (u.set (F.TL_T_STAT_TEMP tile.val) temp.toNat).opChoice tile.val → u.tl.opChanges.find? (fun c => c.tile == tile.val) = none →
        t.tl.opChanges = (if op = u.get (F.TL_T_STAT_OP tile.val) then u.tl.opChanges else ⟨tile.val, op, u.now⟩ :: u.tl.opChanges) := by
  obtain ⟨held, point⟩ := temp_held u tile.val temp
  have regs := get_regs (retarget_regs (u.set (F.TL_T_STAT_TEMP tile.val) temp.toNat) tile.val)
  refine ⟨_, exec_tileTemp hu run live temp, (regs _).trans held, (regs _).trans point, fun op chosen free => ?_⟩
  have begins := retarget_begins (s := u.set (F.TL_T_STAT_TEMP tile.val) temp.toNat) free
  rwa [← chosen, point] at begins

theorem opChangeDone_leaves {dt : Nat} {s u : State} (hu : u = s.elapse dt) {tile : Fin 144} {c : OpChange} (change : u.tl.opChanges.find? (fun c => c.tile == tile.val) = some c)
    (past : c.start + 1500 ≤ u.now) (settled : Bool) :
    ∃ t, exec (.opChangeDone dt tile settled) s = .next t ∧ t.get (F.TL_T_STAT_OP tile.val) = (if settled then c.target else min c.target (u.get (F.TL_T_STAT_OP tile.val))) % 8 ∧
      t.get (F.TL_T_OPCHG tile.val) = (u.get (F.TL_T_OPCHG tile.val) + 1) % 2 ^ 32 := by
  have own : c.tile = tile.val := by simpa using List.find?_some change
  have regs := get_regs (endChange_regs u c settled)
  have counted := point_counted u c.tile (if settled then c.target else min c.target (u.get (F.TL_T_STAT_OP c.tile)))
  rw [own] at regs counted
  exact ⟨_, exec_opChangeDone hu change past settled, (regs _).trans counted.1, (regs _).trans counted.2⟩

/-! ### Spills (R160) -/

/-- Buffers sent out on their way write no register and move no byte yet. -/
theorem spillFrom_regs (l : Nat) (bs : List SramBuf) : ∀ s : State, (s.spillFrom l bs).1.regs = s.regs ∧ (s.spillFrom l bs).1.sram = s.sram ∧ (s.spillFrom l bs).1.dram = s.dram := by
  induction bs with
  | nil => intro s; exact ⟨rfl, rfl, rfl⟩
  | cons b bs ih =>
    intro s
    unfold State.spillFrom
    split
    · exact ⟨rfl, rfl, rfl⟩
    · split
      · exact ih s
      · exact ih (s.putBuf { b with phase := .leaving, spill := s.spillEnd l })

/-- A spill's first step: a rise above HIGH is a crossing, counted once until it ends (log entry 46). -/
def State.crossHigh (s : State) (l : Nat) : State :=
  if s.tl.above.contains l then s else (s.incSat (F.TL_SPILL_EVENTS l)).setTl (fun t => { t with above := l :: t.above })

/-- The buffers a spill may send out, the last in SRAM first. -/
def State.spillOrder (s : State) (l : Nat) : List SramBuf := sortByKey (fun b => sramSize - b.ofs) ((s.bufsOf l).filter (fun b => b.phase == .present && b.spillable))

/-- A spill is the crossing, the buffers sent out and, when they do not suffice, a stall. -/
theorem spill_eq (s : State) (l : Nat) : s.spill l =
    if ((State.crossHigh s l).spillFrom l (State.spillOrder (State.crossHigh s l) l)).2 then
      ((State.crossHigh s l).spillFrom l (State.spillOrder (State.crossHigh s l) l)).1.setTl
        (fun t => { t with stalls := assocPut l ((State.crossHigh s l).spillFrom l (State.spillOrder (State.crossHigh s l) l)).1.thy.counter t.stalls })
    else ((State.crossHigh s l).spillFrom l (State.spillOrder (State.crossHigh s l) l)).1 := rfl

/-- Beyond the crossing a spill writes no register and moves no byte yet. -/
theorem spill_regs (s : State) (l : Nat) : (s.spill l).regs = (State.crossHigh s l).regs ∧ (s.spill l).sram = s.sram ∧ (s.spill l).dram = s.dram := by
  obtain ⟨regs, sram, dram⟩ := spillFrom_regs l (State.spillOrder (State.crossHigh s l) l) (State.crossHigh s l)
  have crossed : (State.crossHigh s l).sram = s.sram ∧ (State.crossHigh s l).dram = s.dram := by
    unfold State.crossHigh
    split <;> exact ⟨rfl, rfl⟩
  obtain ⟨crossed_sram, crossed_dram⟩ := crossed
  rw [← crossed_sram, ← crossed_dram, ← regs, ← sram, ← dram, spill_eq]
  split <;> exact ⟨rfl, rfl, rfl⟩

theorem events_crossHigh (s : State) (l : Nat) : (State.crossHigh s l).get (F.TL_SPILL_EVENTS l) =
    if s.tl.above.contains l then s.get (F.TL_SPILL_EVENTS l) else satNat 32 (s.get (F.TL_SPILL_EVENTS l) + 1) := by
  unfold State.crossHigh
  split
  · rfl
  · exact get_incSat_same s (F.TL_SPILL_EVENTS l) (by norm_num [F.TL_SPILL_EVENTS])

/-- The mark settled after a spill writes at most the stall's count. -/
theorem get_settleMark (s : State) (l : Nat) {f : Field} (apart : f.addr ≠ (F.TL_SPILL_STALL l).addr) : (s.settleMark l).get f = s.get f := by
  have unstalled : ∀ t : State, (t.unstall l).get f = t.get f := by
    intro t
    unfold State.unstall
    split
    · exact State.get_set_other t _ _ _ apart
    · rfl
  unfold State.settleMark
  split
  · exact unstalled _
  · rfl

theorem autonomousSpill_leaves {dt : Nat} {s u : State} (hu : u = s.elapse dt) (run : u.running = true) {tile : Fin 144} (high : markBytes (u.get F.TL_SPILL_CFG_HIGH) < u.sramAfter tile.val)
    (free : assocGet tile.val u.tl.stalls = none) : ∃ t, exec (.autonomousSpill dt tile) s = .next t ∧
      t.get (F.TL_SPILL_EVENTS tile.val) = (if u.tl.above.contains tile.val then u.get (F.TL_SPILL_EVENTS tile.val) else satNat 32 (u.get (F.TL_SPILL_EVENTS tile.val) + 1)) ∧
      t.sram = u.sram ∧ t.dram = u.dram := by
  obtain ⟨regs, sram, dram⟩ := spill_regs u tile.val
  exact ⟨_, exec_autonomousSpill hu run high free, (get_regs regs _).trans (events_crossHigh u tile.val), sram, dram⟩

theorem spillOut_leaves {dt : Nat} {s u : State} (hu : u = s.elapse dt) {tile : Fin 144} {offset : Nat} {b : SramBuf} (at_ : u.bufAt tile.val offset = some b) (out : b.phase = .leaving) :
    ∃ t, exec (.spillOutComplete dt tile offset) s = .next t ∧ t.get (F.TL_SPILL_OUT tile.val) = (u.get (F.TL_SPILL_OUT tile.val) + cdiv b.len 64) % 2 ^ 32 ∧ t.sram = u.sram := by
  subst hu
  obtain ⟨d, moved⟩ := State.dramWrite_eq (s.elapse dt) ((s.elapse dt).spillAddr tile.val b.spill) ((s.elapse dt).sramRead tile.val b.ofs b.len)
  refine ⟨_, exec_spillOut at_ out, ?_, ?_⟩
  · refine (get_settleMark _ _ (by simp only [F.TL_SPILL_OUT, F.TL_SPILL_STALL]; omega)).trans ?_
    rw [moved]
    exact State.get_set_same _ (F.TL_SPILL_OUT tile.val) _ (by norm_num [F.TL_SPILL_OUT])
  · refine (settleMark_eq _ _).2.1.trans ?_
    rw [moved]
    rfl

theorem reload_leaves {dt : Nat} {s u : State} (hu : u = s.elapse dt) {tile : Fin 144} {offset : Nat} {b : SramBuf} (at_ : u.bufAt tile.val offset = some b) (inn : b.phase = .returning) :
    ∃ t, exec (.reloadComplete dt tile offset) s = .next t ∧ t.get (F.TL_SPILL_IN tile.val) = (u.get (F.TL_SPILL_IN tile.val) + cdiv b.len 64) % 2 ^ 32 ∧ t.dram = u.dram := by
  subst hu
  exact ⟨_, exec_reload at_ inn, State.get_set_same _ (F.TL_SPILL_IN tile.val) _ (by norm_num [F.TL_SPILL_IN]), rfl⟩

/-! ### Vaults (R162, R164) -/

/-- A row that takes a spare row counts in REPAIR_DONE and leaves one spare fewer. -/
theorem remapRow_spare {s : State} {vault layer : Nat} (h : vault < 144) (row : Nat) (spare : 0 < s.sparesLeft vault layer) :
    (s.remapRow vault layer row).get (F.TL_VAULT_REPAIR_DONE vault) = satNat 8 (s.get (F.TL_VAULT_REPAIR_DONE vault) + 1) ∧
      (s.remapRow vault layer row).get (F.TL_VAULT_REPAIR_LEFT vault) = s.get (F.TL_VAULT_REPAIR_LEFT vault) - 1 := by
  have raised := fun (t : State) (f : Field) => get_frame (t.light_raise (src := 0x119) (by decide) (bs := [0xC]) (by decide)) f
  rw [State.remapRow, if_pos spare]
  constructor
  · refine (raised _ _ (by simp only [F.TL_VAULT_REPAIR_DONE, List.mem_singleton]; omega)).trans ?_
    refine (State.get_set_disjoint _ (F.TL_VAULT_REPAIR_LEFT vault) (F.TL_VAULT_REPAIR_DONE vault) _ (by norm_num [F.TL_VAULT_REPAIR_LEFT]) rfl (by norm_num [F.TL_VAULT_REPAIR_LEFT, F.TL_VAULT_REPAIR_DONE])).trans ?_
    exact get_incSat_same _ (F.TL_VAULT_REPAIR_DONE vault) (by norm_num [F.TL_VAULT_REPAIR_DONE])
  · refine (raised _ _ (by simp only [F.TL_VAULT_REPAIR_LEFT, List.mem_singleton]; omega)).trans ?_
    refine (State.get_set_same _ (F.TL_VAULT_REPAIR_LEFT vault) _ (by norm_num [F.TL_VAULT_REPAIR_LEFT])).trans (Nat.mod_eq_of_lt ?_)
    have fits := get_lt s (F.TL_VAULT_REPAIR_LEFT vault)
    exact lt_of_le_of_lt (Nat.sub_le _ 1) fits

/-- A row without a spare row is denied and counts in REPAIR_DENIED. -/
theorem remapRow_denied {s : State} {vault layer : Nat} (row : Nat) (spent : s.sparesLeft vault layer = 0) :
    (s.remapRow vault layer row).get (F.TL_VAULT_REPAIR_DENIED vault) = satNat 8 (s.get (F.TL_VAULT_REPAIR_DENIED vault) + 1) ∧
      rowKey vault layer row ∈ (s.remapRow vault layer row).tl.denied := by
  have spent' : ¬ 0 < s.sparesLeft vault layer := by omega
  rw [State.remapRow, if_neg spent']
  exact ⟨get_incSat_same _ (F.TL_VAULT_REPAIR_DENIED vault) (by norm_num [F.TL_VAULT_REPAIR_DENIED]), List.mem_cons_self⟩

theorem rowRemap_leaves {dt : Nat} {s u : State} (hu : u = s.elapse dt) (run : u.running = true) {vault : Fin 144} {layer : Fin 4} {row : Nat}
    (reached : u.get F.TL_CE_LIMIT ≤ (assocGet (rowKey vault.val layer.val row) u.tl.rowCe).getD 0) (open_ : rowKey vault.val layer.val row ∉ u.tl.denied) :
    ∃ t, exec (.vaultRowRemap dt vault layer row) s = .next t ∧
      (0 < u.sparesLeft vault.val layer.val → t.get (F.TL_VAULT_REPAIR_DONE vault.val) = satNat 8 (u.get (F.TL_VAULT_REPAIR_DONE vault.val) + 1) ∧ t.get (F.TL_VAULT_REPAIR_LEFT vault.val) = u.get (F.TL_VAULT_REPAIR_LEFT vault.val) - 1) ∧
      (u.sparesLeft vault.val layer.val = 0 → t.get (F.TL_VAULT_REPAIR_DENIED vault.val) = satNat 8 (u.get (F.TL_VAULT_REPAIR_DENIED vault.val) + 1) ∧ rowKey vault.val layer.val row ∈ t.tl.denied) :=
  ⟨_, exec_rowRemap hu run reached open_, remapRow_spare vault.isLt row, remapRow_denied row⟩

/-- The tiles' registers of an uncorrectable error that no context owns and scrub found (R164, R165). -/
def State.ueWritten (s : State) (tile addr : Nat) : State :=
  (((((s.set F.TL_UE_CTX_CTX 0).setFlag F.TL_UE_CTX_VALID_CTX false).set F.TL_UE_CTX_SRC 0).set F.TL_UE_CTX_TILE tile).set64 F.TL_UE_ADDR_LO F.TL_UE_ADDR_HI addr).incSat F.TL_UE_COUNT

/-- Keeping a faulty word changes the tiles' own state only. -/
theorem keepFaulty_tl (s : State) (src tile addr : Nat) : ∃ x, s.keepFaulty src tile addr = { s with tl := x } := by
  unfold State.keepFaulty
  extract_lets k
  split
  · exact ⟨s.tl, rfl⟩
  · exact ⟨_, rfl⟩

/-- The log and the sources of an uncorrectable error write nothing of the tiles' block. -/
theorem get_recordUe (s : State) (tile addr : Nat) (f : Field) (h : f.addr / 0x10000 ∉ [0xC, 0xD]) : (s.recordUe none 0 tile addr).get f = (State.ueWritten s tile addr).get f := by
  have told : ∀ (t : State) (r : SafetyRec), (((t.safetyLog r).raise 0x174).raise 0x118).get f = t.get f := fun t r =>
    get_frame (State.light_trans (State.light_trans (t.light_safetyLog r (by decide) (by decide)) (State.light_raise _ (by decide) (by decide))) (State.light_raise _ (by decide) (by decide))) f h
  obtain ⟨x, kept⟩ := keepFaulty_tl s 0 tile addr
  refine (told _ _).trans ?_
  rw [kept]
  rfl

/-- An uncorrectable error found by scrub records its source, tile and address, without a context, and counts. -/
theorem recordUe_fields (s : State) {tile : Nat} (addr : Nat) (h : tile < 256) :
    (s.recordUe none 0 tile addr).get F.TL_UE_COUNT = satNat 32 (s.get F.TL_UE_COUNT + 1) ∧ (s.recordUe none 0 tile addr).get F.TL_UE_CTX_SRC = 0 ∧
      (s.recordUe none 0 tile addr).get F.TL_UE_CTX_TILE = tile ∧ (s.recordUe none 0 tile addr).get F.TL_UE_CTX_VALID_CTX = 0 ∧
      (s.recordUe none 0 tile addr).get64 F.TL_UE_ADDR_LO F.TL_UE_ADDR_HI = addr % 2 ^ 40 := by
  have uncounted : ∀ (t : State) (f : Field), fieldsApart F.TL_UE_COUNT f = true → (t.incSat F.TL_UE_COUNT).get f = t.get f := fun t f apart => get_set_apart t apart _
  have hi_lo : fieldsApart F.TL_UE_ADDR_HI F.TL_UE_ADDR_LO = true := by decide
  refine ⟨?_, ?_, ?_, ?_, ?_⟩
  · rw [get_recordUe _ _ _ _ (by decide), State.ueWritten, get_incSat_same _ _ (by decide), get_set64_apart _ (by decide) (by decide), get_set_apart _ (by decide), get_set_apart _ (by decide), State.setFlag, get_set_apart _ (by decide), get_set_apart _ (by decide)]
    rfl
  · rw [get_recordUe _ _ _ _ (by decide), State.ueWritten, uncounted _ _ (by decide), get_set64_apart _ (by decide) (by decide), get_set_apart _ (by decide), State.get_set_same _ _ _ (by decide)]
    rfl
  · rw [get_recordUe _ _ _ _ (by decide), State.ueWritten, uncounted _ _ (by decide), get_set64_apart _ (by decide) (by decide), State.get_set_same _ _ _ (by decide)]
    exact Nat.mod_eq_of_lt h
  · rw [get_recordUe _ _ _ _ (by decide), State.ueWritten, uncounted _ _ (by decide), get_set64_apart _ (by decide) (by decide), get_set_apart _ (by decide), get_set_apart _ (by decide), State.setFlag, State.get_set_same _ _ _ (by decide)]
    rfl
  · rw [State.get64, get_recordUe _ _ _ _ (by decide), get_recordUe _ _ _ _ (by decide), State.ueWritten, uncounted _ _ (by decide), uncounted _ _ (by decide), State.set64, get_set_apart _ hi_lo, State.get_set_same _ _ _ (by decide), State.get_set_same _ _ _ (by decide)]
    show addr % 2 ^ 32 % 2 ^ 32 + 2 ^ 32 * (addr / 2 ^ 32 % 2 ^ 8) = addr % 2 ^ 40
    omega

theorem scrub_leaves {dt : Nat} {s u : State} (hu : u = s.elapse dt) (run : u.running = true) (vault : Fin 144) (offset row : Nat) (on : u.get F.TL_SCRUB_CFG ≠ 0) :
    (∃ t, exec (.vaultScrub dt vault offset .clean) s = .next t ∧ t.regs = u.regs) ∧
    (∃ t, exec (.vaultScrub dt vault offset (.corrected row)) s = .next t ∧ t.get (F.TL_VAULT_CE vault.val) = satNat 32 (u.get (F.TL_VAULT_CE vault.val) + 1)) ∧
    (∃ t, exec (.vaultScrub dt vault offset .uncorrectable) s = .next t ∧ t.get F.TL_UE_COUNT = satNat 32 (u.get F.TL_UE_COUNT + 1) ∧ t.get F.TL_UE_CTX_SRC = 0 ∧ t.get F.TL_UE_CTX_TILE = vault.val ∧
      t.get F.TL_UE_CTX_VALID_CTX = 0 ∧ t.get64 F.TL_UE_ADDR_LO F.TL_UE_ADDR_HI = (vault.val * 2 ^ 28 + offset) % 2 ^ 40) := by
  have clean : exec (.vaultScrub dt vault offset .clean) s = ran u := by
    change execVaultScrub dt vault offset .clean s = _
    simp only [execVaultScrub, ← hu, ite_self]
  obtain ⟨corrected, uncorrectable⟩ := exec_scrub (offset := offset) (vault := vault) hu run on
  exact ⟨⟨_, clean, rfl⟩, ⟨_, corrected row, get_incSat_same u (F.TL_VAULT_CE vault.val) (by norm_num [F.TL_VAULT_CE])⟩, ⟨_, uncorrectable, recordUe_fields u _ (by omega)⟩⟩

/-! ### The mesh (R167, R168, R329) -/

/-- A flow's number set is the number due in it. -/
theorem flowDue_setFlow (s : State) (f : MeshFlow) (n : Nat) : (s.setFlow f n).flowDue f = n % 2 ^ 16 := by
  simp only [State.flowDue, State.setFlow, State.setTl, List.find?_cons, beq_self_eq_true, Option.map_some, Option.getD_some]

/-- A message due, with none held behind it when it is delivered, is delivered unless it is retired, and its flow moves to the next number. -/
theorem meshOrder_due {s : State} {m : MeshMsg} (due : m.seqNo.toNat = s.flowDue (msgFlow m)) (retired : Bool) {v : State}
    (hv : v = if retired then s else s.deliverMsg m) (still : v.tl.early = []) : s.meshOrder m retired = v.setFlow (msgFlow m) ((m.seqNo.toNat + 1) % 2 ^ 16) := by
  have still' : (v.setFlow (msgFlow m) ((m.seqNo.toNat + 1) % 2 ^ 16)).tl.early = [] := still
  simp only [State.meshOrder, ← due, beq_self_eq_true, if_true, State.passFlow, ← hv, still', List.find?_nil]

/-- A request due is kept until its reply, and no register is written. -/
theorem meshRequest_leaves {dt : Nat} {s u : State} (hu : u = s.elapse dt) (run : u.running = true) {m : MeshMsg} (due : m.seqNo.toNat = u.flowDue (msgFlow m)) (alone : u.tl.early = [])
    (request : m.kind = .request) :
    ∃ t, exec (.meshMessageArrival dt m) s = .next t ∧ t.flowDue (msgFlow m) = (m.seqNo.toNat + 1) % 2 ^ 16 ∧ t.tl.reqs = u.tl.reqs ++ [m] ∧ t.regs = u.regs := by
  have fresh : u.tooOld m = false := by
    have kind : (m.kind == MeshKind.reply) = false := by rw [request]; rfl
    simp only [State.tooOld, kind, Bool.false_and]
  have delivered : u.deliverMsg m = u.setTl (fun t => { t with reqs := t.reqs ++ [m] }) := by simp only [State.deliverMsg, request]
  have passed := meshOrder_due due false rfl (by rw [if_neg Bool.false_ne_true, delivered]; exact alone)
  rw [if_neg Bool.false_ne_true, delivered] at passed
  refine ⟨_, exec_meshArrival hu run fresh, ?_⟩
  rw [passed]
  exact ⟨(flowDue_setFlow _ _ _).trans (Nat.mod_mod _ _), rfl, rfl⟩

/-- A reply due of a generation that is no longer its part's is dropped and counted (R329; log entry 82). -/
theorem meshStaleReply_leaves {dt : Nat} {s u : State} (hu : u = s.elapse dt) (run : u.running = true) {m : MeshMsg} (due : m.seqNo.toNat = u.flowDue (msgFlow m)) (alone : u.tl.early = [])
    (reply : m.kind = .reply) (fresh : u.tooOld m = false) (stale : m.gen.toNat ≠ u.genOf m.part.val) :
    ∃ t, exec (.meshMessageArrival dt m) s = .next t ∧ t.flowDue (msgFlow m) = (m.seqNo.toNat + 1) % 2 ^ 16 ∧ t.get F.RC_GEN_DROPS = satNat 32 (u.get F.RC_GEN_DROPS + 1) := by
  have delivered : u.deliverMsg m = u.incSat F.RC_GEN_DROPS := by simp only [State.deliverMsg, reply, bne_iff_ne.mpr stale, if_true]
  have passed := meshOrder_due due false rfl (by rw [if_neg Bool.false_ne_true, delivered]; exact alone)
  rw [if_neg Bool.false_ne_true, delivered] at passed
  refine ⟨_, exec_meshArrival hu run fresh, ?_⟩
  rw [passed]
  exact ⟨(flowDue_setFlow _ _ _).trans (Nat.mod_mod _ _), get_incSat_same u F.RC_GEN_DROPS (by decide)⟩

/-- A reply due that is too old passes its number undelivered and is counted (R168; log entry 82). -/
theorem meshRetire_leaves {dt : Nat} {s u : State} (hu : u = s.elapse dt) (run : u.running = true) {m : MeshMsg} (due : m.seqNo.toNat = u.flowDue (msgFlow m)) (alone : u.tl.early = [])
    (old : u.tooOld m = true) :
    ∃ t, exec (.meshReplyRetire dt m) s = .next t ∧ t.flowDue (msgFlow m) = (m.seqNo.toNat + 1) % 2 ^ 16 ∧ t.get F.TL_MESH_RETIRED = satNat 32 (u.get F.TL_MESH_RETIRED + 1) := by
  have passed : u.retire m = (u.incSat F.TL_MESH_RETIRED).setFlow (msgFlow m) ((m.seqNo.toNat + 1) % 2 ^ 16) :=
    meshOrder_due (s := u.incSat F.TL_MESH_RETIRED) due true (if_pos rfl).symm alone
  refine ⟨_, exec_meshRetire hu run old, ?_⟩
  rw [passed]
  exact ⟨(flowDue_setFlow _ _ _).trans (Nat.mod_mod _ _), get_incSat_same u F.TL_MESH_RETIRED (by decide)⟩

end Sys2Proof.Proofs
end

section
/-! What Tarragon's commands leave, and the whole of O26. -/

namespace Sys2Proof.Proofs

open Sys2Proof Sys2Proof.Machine Sys2Proof.Laws

/-! ### Ticks (R233) -/

theorem length_setAt {α : Type} (v : α) : ∀ (l : List α) (i : Nat), (setAt l i v).length = l.length
  | [], _ => rfl
  | _ :: _, 0 => rfl
  | _ :: l, i + 1 => congrArg (· + 1) (length_setAt v l i)

/-- Only a problem that Tarragon has can have begun. -/
theorem prob_lt {s : State} {p t0 : Nat} (start : (s.prob p).t0 = some t0) : p < s.sv.probs.length := by
  by_contra out
  have none_ : s.prob p = .zero := by
    rw [State.prob, List.getD_eq_getElem?_getD, List.getElem?_eq_none (not_lt.mp out)]
    rfl
  rw [none_] at start
  simp only [SvProb.zero, reduceCtorEq] at start

theorem prob_putProb_same {s : State} {p : Nat} (x : SvProb) (h : p < s.sv.probs.length) : (s.putProb p x).prob p = x := getD_setAt_same _ p x _ h

/-- A tick added goes in by its time, and a problem that had none begins to wait for inputs. -/
theorem addTick_eq {s : State} {p : Nat} (h : p < s.sv.probs.length) (j t given : Nat) (list : Option Nat) {k : SvTick}
    (hk : k = ⟨j, t, false, false, false, s.chooseStruct p j t given, false, false, 0, 0, [], .start (s.coldSol p 0), 0, 0, list⟩) :
    (s.addTick p j t given list).prob p = { s.prob p with ticks := sortByKey SvTick.t ((s.prob p).ticks ++ [k]) } ∧
      ((s.prob p).ticks = [] → (s.addTick p j t given list).get (F.SV_P_STAT_STATE p) = 1) := by
  subst hk
  constructor
  · refine Eq.trans ?_ (prob_putProb_same (s := s) _ h)
    simp only [State.addTick]
    split <;> rfl
  · intro empty
    simp only [State.addTick, empty, List.isEmpty_nil, if_true]
    exact State.get_set_same _ (F.SV_P_STAT_STATE p) 1 (by norm_num [F.SV_P_STAT_STATE])

theorem tickReady_leaves {dt : Nat} {s u : State} (hu : u = s.elapse dt) (run : u.running = true) {p : Fin 32} {t0 : Nat} {x : SvProb} {k : SvTick} (hx : u.prob p.val = x) (start : x.t0 = some t0)
    (past : t0 + x.next * u.get (F.SV_P_PERIOD p.val) ≤ u.now)
    (hk : k = ⟨x.next, t0 + x.next * u.get (F.SV_P_PERIOD p.val), false, false, false, u.chooseStruct p.val x.next (t0 + x.next * u.get (F.SV_P_PERIOD p.val)) 0, false, false, 0, 0, [], .start (u.coldSol p.val 0), 0, 0, none⟩) :
    ∃ t, exec (.tickReady dt p) s = .next t ∧ (t.prob p.val).next = x.next + 1 ∧ (t.prob p.val).ticks = sortByKey SvTick.t (x.ticks ++ [k]) ∧ (x.ticks = [] → t.get (F.SV_P_STAT_STATE p.val) = 1) := by
  subst hx
  have here := prob_lt start
  have counted : (u.putProb p.val { u.prob p.val with next := (u.prob p.val).next + 1 }).prob p.val = { u.prob p.val with next := (u.prob p.val).next + 1 } := prob_putProb_same _ here
  obtain ⟨added, waits⟩ := addTick_eq (s := u.putProb p.val { u.prob p.val with next := (u.prob p.val).next + 1 }) (p := p.val)
    (by rw [State.putProb]; exact (length_setAt _ _ _).symm ▸ here) _ _ 0 none (hk.trans rfl)
  rw [counted] at added waits
  have next := congrArg SvProb.next added
  have ticks := congrArg SvProb.ticks added
  exact ⟨_, exec_tickReady hu run start past, next, ticks, waits⟩

/-- A tick made ready is taken at once when Tarragon is idle. -/
theorem readyTick_eq {s v : State} {p : Nat} {k : SvTick}
    (hv : v = (s.putHead p { k with ready := true }).set (F.SV_P_STAT_STATE p) (if (s.putHead p { k with ready := true }).solveAhead p k then 1 else 2)) :
    s.readyTick p k = if s.sv.cur = none then v.pickTick else v := by
  have cur : v.sv.cur = s.sv.cur := by rw [hv]; rfl
  simp only [State.readyTick, ← hv, cur, Option.isNone_iff_eq_none]

/-! ### Steps and stops (R234, R238) -/

/-- A step done counts what it did; the solve goes on with the next step or publishes. -/
theorem stepDone_eq {s v : State} {p cost : Nat} {k w : SvTick} (hw : w = { (s.stepWork p k).1 with pos := k.pos + 1, cycles := k.cycles + cost }) (hv : v = (s.stepCounts p k).putHead p w) :
    s.stepDone p k cost = if k.pos + 1 < s.stepCount p then v.pickTick else (v.publish p w false).completeSolve w := by
  have steps : v.stepCount p = s.stepCount p := by rw [hv]; exact stepCounts_stepCount s p p k
  simp only [State.stepDone, ← hw, ← hv, steps]

/-- A stop at the budget sets the tick's cycles to it, counts, is told and logged, and publishes. -/
theorem stopTick_eq {s v : State} {p : Nat} {k w : SvTick} (hv : v = (Config.stepSats k.known (2 ^ 20 + k.pos)).foldl (fun s x => s.saturate p x) s)
    (hw : w = { k with cycles := s.get (F.SV_P_BUDGET p), sats := k.sats + (Config.stepSats k.known (2 ^ 20 + k.pos)).length }) {r : SafetyRec}
    (hr : r = { SafetyRec.of 0x02 1 with object := p, ctx := (State.probCtx (((v.incSat (F.SV_P_STOPS_BUDGET p)).incSat F.SV_STOPS).raise 0x138) p).getD 0xFF, seqNo := k.j % 2 ^ 32, detail := s.get (F.SV_P_BUDGET p), limit := s.get (F.SV_P_BUDGET p) }) :
    s.stopTick p k = ((((v.incSat (F.SV_P_STOPS_BUDGET p)).incSat F.SV_STOPS).raise 0x138).safetyLog r).publish p w true := by
  subst hr hw hv
  rfl

/-- Settles O26. Log entry 46 chooses that one rise above HIGH counts once, entry 82 that a retired or dropped reply passes its number, and entry 119 (R363) the point of a change that has not settled; RC_GEN_DROPS is R329's. -/
theorem tileAndSolverResults : Obligations.TileAndSolverResults := by
  unfold Obligations.TileAndSolverResults
  intro dt s u hu run
  refine ⟨tileTempSample_leaves hu run, fun tile c change past => ⟨opChangeDone_leaves hu change past true, opChangeDone_leaves hu change past false⟩, fun tile => autonomousSpill_leaves hu run,
    fun tile offset b at_ => ⟨spillOut_leaves hu at_, reload_leaves hu at_⟩, fun vault layer row => rowRemap_leaves hu run, scrub_leaves hu run,
    fun m due alone => ⟨meshRequest_leaves hu run due alone, meshStaleReply_leaves hu run due alone, meshRetire_leaves hu run due alone⟩,
    fun p t0 x k hx start past hk => tickReady_leaves hu run hx start past hk, ?_, ?_, ?_, ?_⟩
  · intro p k v head unready hv inputs
    exact (exec_inputsReady hu head (Or.inr inputs)).trans (congrArg ran (readyTick_eq hv))
  · intro p k v head unready hv missing past
    exact (exec_tickShort hu head unready missing past).trans (congrArg ran (readyTick_eq (k := { k with short := true }) hv))
  · intro stall p k w v cur head within hw hv
    have done := (exec_kernelStep hu cur head within).trans (congrArg ran (stepDone_eq hw hv))
    exact ⟨fun more => done.trans (congrArg ran (if_pos more)), fun last => done.trans (congrArg ran (if_neg (not_lt.mpr last)))⟩
  · intro p k w v cur head hv hw r hr
    exact (exec_solverBudgetStop hu cur head).trans (congrArg (fun t => ran (State.completeSolve t k)) (stopTick_eq hv hw hr))

end Sys2Proof.Proofs
end
